-- ==== Sys2Proof/Word.lean ====
section
/-! DEFINITION. The word types of the GV-90: bytes, 16-bit code parcels, 32-bit words and lane
masks, 64-bit values and addresses. -/

namespace Sys2Proof

/-- One byte of memory. -/
abbrev Byte := BitVec 8
/-- A 16-bit code parcel (R20). -/
abbrev Parcel := BitVec 16
/-- A 32-bit word: one lane of a V register, or an instruction word (R7, R37). -/
abbrev Word := BitVec 32
/-- A 64-bit value or address (R7, R8). -/
abbrev Dword := BitVec 64
/-- A set of lanes: bit l is lane l (R9). -/
abbrev Mask := BitVec 32

/-- The lanes of a cane (R6). -/
abbrev lanes : List Nat := List.range 32

end Sys2Proof
end

