-- ==== Sys2Proof/Syntax.lean ====
section
/-! DEFINITION. The instructions and device events of the GV-90: one constructor per row of
spec/opcode_table.json, the events of the outside world last. An encoded instruction carries its marks and its operand
fields (R37, R50); a device event carries what names its subject, and the values that the outside
world supplies. -/

namespace Sys2Proof

/-- The S, T and U bits of a word (R27, R28, R29, R37). -/
structure Marks where
  s : Bool
  t : Bool
  u : Bool
  deriving DecidableEq, Repr

/-- A program image for FIRMWARE_IMAGE_LOAD: bytes and the byte address they are placed at. -/
structure Image where
  base : Nat
  bytes : List Byte
  deriving DecidableEq, Repr

/-- The steps of the part: every encoded instruction and device event in the table's order, then the events
that the outside world brings. -/
inductive Instr where
  /-- NOP (R116): Advances PC with no other effect; may carry a switch marker or stop point. -/
  | nop (m : Marks)
  /-- MODE (R117): Writes the whole of MODE from the immediate, trapping ILLEGAL_MODE when bits [63:28] are nonzero. -/
  | mode (m : Marks) (i : BitVec 14)
  /-- MODER (R117): Writes the whole of MODE from a uniformly read V register. -/
  | moder (m : Marks) (a : BitVec 7)
  /-- IMMX (R40): Prefix that extends the immediate or offset of the following word, executing with it as one instruction. -/
  | immx (x : BitVec 24) (w : Word)
  /-- DICT (R21): Dictionary-code parcel that executes a dictionary entry with S and T taken from the code. -/
  | dict (s : Bool) (t : Bool) (i : BitVec 10)
  /-- BRA (R120): Guarded branch that may diverge, pushing a PENDING entry and running the lower-address path first. -/
  | bra (m : Marks) (j : BitVec 21)
  /-- BRAU (R121): Branch taken for the whole cane by the guard bit of the lowest lane, never diverging. -/
  | brau (m : Marks) (j : BitVec 21)
  /-- JOIN (R119): Pushes a JOIN entry with the target and the current reconvergence mask. -/
  | join (m : Marks) (j : BitVec 21)
  /-- CALL (R122): Writes LINK with the fall-through address and jumps to the target. -/
  | call (m : Marks) (j : BitVec 21)
  /-- RET (R122): Continues at LINK. -/
  | ret (m : Marks)
  /-- JMPR (R122): Jumps to the address held in a uniformly read V pair. -/
  | jmpr (m : Marks) (a : BitVec 6)
  /-- TRAP (R127): Traps TRAP_INSTRUCTION with SYS.EARG set to n. -/
  | trap (m : Marks) (i : BitVec 14)
  /-- ERET (R126): Returns from a handler, restoring recon, privilege and PC and trimming the stack. -/
  | eret (m : Marks)
  /-- EXIT_0 (R123): Retires the lanes of recon and runs resume() on the reconvergence stack. -/
  | exit0 (m : Marks)
  /-- EXIT_1 (R317): Ends the cane's exit routine and sets its section state to 1. -/
  | exit1 (m : Marks)
  /-- EXIT_2 (R321): Ends the entry routine and restores MODE, predicates, QMASK, recon, stack and resume PC from the held record. -/
  | exit2 (m : Marks)
  /-- BKPT (R127): Traps BREAKPOINT, or debug-parks the cane when a debugger is attached. -/
  | bkpt (m : Marks) (i : BitVec 14)
  /-- MARK (R132): Places a MARK record in the core sample and, when tracing, in the trace stream. -/
  | mark (m : Marks) (i : BitVec 14)
  /-- SYS_RD (R130): Reads a special register into V registers. -/
  | sysRd (m : Marks) (d : BitVec 7) (i : BitVec 12)
  /-- SYS_WR (R130): Writes a special register from a uniformly read V register by the selector's access code. -/
  | sysWr (m : Marks) (d : BitVec 7) (i : BitVec 12)
  /-- PERF_RD (R354): Reads a 64-bit performance or power counter into a V pair. -/
  | perfRd (m : Marks) (d : BitVec 6) (i : BitVec 12)
  /-- TRIG (R132): Asserts software event e at the die's trace unit. -/
  | trig (m : Marks) (e : BitVec 4)
  /-- PWR_REQ (R378): Asks the power controller for an operating point of one cluster and returns its decision. -/
  | pwrReq (m : Marks) (d : BitVec 7) (p : BitVec 3)
  /-- FAULT_RESUME (R309): SUP function that resumes a fault-parked cane at its faulting instruction. -/
  | faultResume (m : Marks) (d : BitVec 7)
  /-- FAULT_RETIRE (R309): SUP function that retires every lane of a fault-parked cane. -/
  | faultRetire (m : Marks) (d : BitVec 7)
  /-- FQ_SET (R310): SUP function that sets and initialises the terrace's fault queue. -/
  | fqSet (m : Marks) (d : BitVec 7)
  /-- S1_ROOT (R349): SUP function that sets a virtual device's stage-1 root and invalidates its cached translations. -/
  | s1Root (m : Marks) (d : BitVec 7)
  /-- VD_SELECT (R344): SUP function that names the steward's current virtual device. -/
  | vdSelect (m : Marks) (d : BitVec 7)
  /-- S1_PAGE (R349): SUP function that invalidates one 64 KiB stage-1 page. -/
  | s1Page (m : Marks) (d : BitVec 7)
  /-- DECANT_SET (R259): SUP function that writes a valid decant entry. -/
  | decantSet (m : Marks) (d : BitVec 7)
  /-- DECANT_CLR (R349): SUP function that makes a decant entry invalid. -/
  | decantClr (m : Marks) (d : BitVec 7)
  /-- URGENT (R314): SUP function that makes an exit-grade request on a parcel and its descendants. -/
  | urgent (m : Marks) (d : BitVec 7)
  /-- SUP_DRAIN (R313): SUP function DRAIN that makes a drain-grade request on a parcel and its descendants. -/
  | supDrain (m : Marks) (d : BitVec 7)
  /-- TERRACE_GET (R418): SUP function that copies a partition entry into scratch. -/
  | terraceGet (m : Marks) (d : BitVec 7)
  /-- TERRACE_SET (R350): SUP function that checks and writes a partition entry. -/
  | terraceSet (m : Marks) (d : BitVec 7)
  /-- TERRACE_COMMIT (R340): SUP function that zeroes new regions, shoots down translations, sets RUNNING and places the steward. -/
  | terraceCommit (m : Marks) (d : BitVec 7)
  /-- TERRACE_QUIESCE (R340): SUP function that moves a RUNNING terrace to QUIESCING with drain requests on its parcels. -/
  | terraceQuiesce (m : Marks) (d : BitVec 7)
  /-- TERRACE_OFF (R340): SUP function that switches a QUIESCED terrace off, discarding queued items and scrubbing. -/
  | terraceOff (m : Marks) (d : BitVec 7)
  /-- KEY_LOAD (R346): SUP function that loads the SM4-XTS keys of one key id. -/
  | keyLoad (m : Marks) (d : BitVec 7)
  /-- TERRACE_SCRUB (R346): SUP function that writes zeros under the current key to every used region of an OFF terrace. -/
  | terraceScrub (m : Marks) (d : BitVec 7)
  /-- S2_INV (R349): SUP function that invalidates all stage-2 translations of a terrace. -/
  | s2Inv (m : Marks) (d : BitVec 7)
  /-- S2_PAGE (R349): SUP function that invalidates one 64 KiB stage-2 page. -/
  | s2Page (m : Marks) (d : BitVec 7)
  /-- HEADLAND_REVOKE (R339): SUP function that begins revocation of a lent headland cluster. -/
  | headlandRevoke (m : Marks) (d : BitVec 7)
  /-- TERRACE_SAVE (R347): SUP function that writes a save image of a QUIESCED terrace. -/
  | terraceSave (m : Marks) (d : BitVec 7)
  /-- TERRACE_RESTORE (R348): SUP function that restores a save image into an OFF terrace and re-queues its parcels. -/
  | terraceRestore (m : Marks) (d : BitVec 7)
  /-- STEWARD_SET (R342): SUP function that fixes a terrace's steward entry, task type and initial stage-1 root. -/
  | stewardSet (m : Marks) (d : BitVec 7)
  /-- MFQ_SET (R311): SUP function that sets management's fault queue. -/
  | mfqSet (m : Marks) (d : BitVec 7)
  /-- TLB_INV_TERRACE (R135): Invalidates every stage-1 translation of the cane's terrace on every die of the terrace. -/
  | tlbInvTerrace (m : Marks)
  /-- TLB_INV_VDEV (R135): Invalidates the stage-1 translations of the cane's virtual device. -/
  | tlbInvVdev (m : Marks)
  /-- IADD (R137): Integer addition per element under R55. -/
  | iadd (m : Marks) (d : BitVec 7) (a : BitVec 7) (b : BitVec 7)
  /-- ISUB (R137): Integer subtraction per element under R55. -/
  | isub (m : Marks) (d : BitVec 7) (a : BitVec 7) (b : BitVec 7)
  /-- IMUL (R137): Integer multiplication per element under R55. -/
  | imul (m : Marks) (d : BitVec 7) (a : BitVec 7) (b : BitVec 7)
  /-- IMULH (R137): High half of the integer product per element. -/
  | imulh (m : Marks) (d : BitVec 7) (a : BitVec 7) (b : BitVec 7)
  /-- IMAD (R137): Integer multiply-add d + a × b per element. -/
  | imad (m : Marks) (d : BitVec 7) (a : BitVec 7) (b : BitVec 7)
  /-- IDIV (R56): Integer division truncating toward zero with the edge cases of R56. -/
  | idiv (m : Marks) (d : BitVec 7) (a : BitVec 7) (b : BitVec 7)
  /-- IREM (R56): Integer remainder with the sign of the dividend. -/
  | irem (m : Marks) (d : BitVec 7) (a : BitVec 7) (b : BitVec 7)
  /-- IMIN (R137): Integer minimum per element. -/
  | imin (m : Marks) (d : BitVec 7) (a : BitVec 7) (b : BitVec 7)
  /-- IMAX (R137): Integer maximum per element. -/
  | imax (m : Marks) (d : BitVec 7) (a : BitVec 7) (b : BitVec 7)
  /-- IABS (R137): Integer absolute value per element. -/
  | iabs (m : Marks) (d : BitVec 7) (a : BitVec 7)
  /-- INEG (R137): Integer negation per element. -/
  | ineg (m : Marks) (d : BitVec 7) (a : BitVec 7)
  /-- AND (R140): Bitwise and. -/
  | and (m : Marks) (d : BitVec 7) (a : BitVec 7) (b : BitVec 7)
  /-- OR (R140): Bitwise or. -/
  | or (m : Marks) (d : BitVec 7) (a : BitVec 7) (b : BitVec 7)
  /-- XOR (R140): Bitwise exclusive or. -/
  | xor (m : Marks) (d : BitVec 7) (a : BitVec 7) (b : BitVec 7)
  /-- NOT (R140): Bitwise complement. -/
  | not (m : Marks) (d : BitVec 7) (a : BitVec 7)
  /-- SHL (R138): Shift left per element. -/
  | shl (m : Marks) (d : BitVec 7) (a : BitVec 7) (b : BitVec 7)
  /-- SHR (R138): Logical shift right per element. -/
  | shr (m : Marks) (d : BitVec 7) (a : BitVec 7) (b : BitVec 7)
  /-- SAR (R138): Arithmetic shift right per element. -/
  | sar (m : Marks) (d : BitVec 7) (a : BitVec 7) (b : BitVec 7)
  /-- ROT (R138): Rotate left per element. -/
  | rot (m : Marks) (d : BitVec 7) (a : BitVec 7) (b : BitVec 7)
  /-- POPC (R138): Population count per element. -/
  | popc (m : Marks) (d : BitVec 7) (a : BitVec 7)
  /-- CLZ (R138): Count of leading zeros per element. -/
  | clz (m : Marks) (d : BitVec 7) (a : BitVec 7)
  /-- BREV (R138): Bit reversal within each element. -/
  | brev (m : Marks) (d : BitVec 7) (a : BitVec 7)
  /-- BFX (R139): Extracts a bit field. -/
  | bfx (m : Marks) (d : BitVec 7) (a : BitVec 7) (b : BitVec 7)
  /-- BFI (R139): Inserts a bit field into D. -/
  | bfi (m : Marks) (d : BitVec 7) (a : BitVec 7) (b : BitVec 7)
  /-- SEL (R140): Bitwise select of A or B by the bits of D. -/
  | sel (m : Marks) (d : BitVec 7) (a : BitVec 7) (b : BitVec 7)
  /-- ISETP (R141): Integer comparison writing a predicate bit per active lane. -/
  | isetp (m : Marks) (c : BitVec 4) (p : BitVec 3) (a : BitVec 7) (b : BitVec 7)
  /-- IADDI (R137): Adds a sign-extended immediate to D. -/
  | iaddi (m : Marks) (d : BitVec 7) (i : BitVec 14)
  /-- ANDI (R140): Ands D with an immediate. -/
  | andi (m : Marks) (d : BitVec 7) (i : BitVec 14)
  /-- MOVI (R140): Moves an immediate into D. -/
  | movi (m : Marks) (d : BitVec 7) (i : BitVec 14)
  /-- MOV (R140): Moves a register. -/
  | mov (m : Marks) (d : BitVec 7) (a : BitVec 7)
  /-- CVT (R143): Converts a group of elements from type ET to type CT. -/
  | cvt (m : Marks) (d : BitVec 7) (a : BitVec 7)
  /-- PAND (R142): Predicate and. -/
  | pand (m : Marks) (d : BitVec 3) (a : BitVec 3) (b : BitVec 3)
  /-- POR (R142): Predicate or. -/
  | por (m : Marks) (d : BitVec 3) (a : BitVec 3) (b : BitVec 3)
  /-- PNOT (R142): Predicate complement. -/
  | pnot (m : Marks) (d : BitVec 3) (a : BitVec 3)
  /-- FADD (R176): Floating-point addition. -/
  | fadd (m : Marks) (d : BitVec 7) (a : BitVec 7) (b : BitVec 7)
  /-- FSUB (R176): Floating-point subtraction. -/
  | fsub (m : Marks) (d : BitVec 7) (a : BitVec 7) (b : BitVec 7)
  /-- FMUL (R176): Floating-point multiplication. -/
  | fmul (m : Marks) (d : BitVec 7) (a : BitVec 7) (b : BitVec 7)
  /-- FFMA (R176): Fused multiply-add d + a × b, rounded once. -/
  | ffma (m : Marks) (d : BitVec 7) (a : BitVec 7) (b : BitVec 7)
  /-- FFMS (R176): Fused multiply-subtract a × b − d, rounded once. -/
  | ffms (m : Marks) (d : BitVec 7) (a : BitVec 7) (b : BitVec 7)
  /-- FNMA (R176): Fused negative multiply-add d − a × b, rounded once. -/
  | fnma (m : Marks) (d : BitVec 7) (a : BitVec 7) (b : BitVec 7)
  /-- FMIN (R59): IEEE minimumNumber. -/
  | fmin (m : Marks) (d : BitVec 7) (a : BitVec 7) (b : BitVec 7)
  /-- FMAX (R59): IEEE maximumNumber. -/
  | fmax (m : Marks) (d : BitVec 7) (a : BitVec 7) (b : BitVec 7)
  /-- FABS (R176): Floating-point absolute value. -/
  | fabs (m : Marks) (d : BitVec 7) (a : BitVec 7)
  /-- FNEG (R176): Floating-point negation. -/
  | fneg (m : Marks) (d : BitVec 7) (a : BitVec 7)
  /-- FSETP (R179): Floating-point comparison writing a predicate bit per active lane. -/
  | fsetp (m : Marks) (c : BitVec 4) (p : BitVec 3) (a : BitVec 7) (b : BitVec 7)
  /-- FRCP (R66): Reciprocal within 1 ulp. -/
  | frcp (m : Marks) (d : BitVec 7) (a : BitVec 7)
  /-- FRSQ (R66): Reciprocal square root within 1 ulp. -/
  | frsq (m : Marks) (d : BitVec 7) (a : BitVec 7)
  /-- FSQRT (R176): Exactly rounded square root. -/
  | fsqrt (m : Marks) (d : BitVec 7) (a : BitVec 7)
  /-- FEXP2 (R66): Base-2 exponential within 1 ulp. -/
  | fexp2 (m : Marks) (d : BitVec 7) (a : BitVec 7)
  /-- FLOG2 (R66): Base-2 logarithm within 1 ulp. -/
  | flog2 (m : Marks) (d : BitVec 7) (a : BitVec 7)
  /-- FDOT2 (R178): Dot product of two packed 16-bit pairs into FP32. -/
  | fdot2 (m : Marks) (d : BitVec 7) (a : BitVec 7) (b : BitVec 7)
  /-- FSCALE (R176): Multiplies by a power of two given in B. -/
  | fscale (m : Marks) (d : BitVec 7) (a : BitVec 7) (b : BitVec 7)
  /-- FCLASS (R180): Writes the class code of each element. -/
  | fclass (m : Marks) (d : BitVec 7) (a : BitVec 7)
  /-- FRND (R181): Rounds each element to an integral value in the same format. -/
  | frnd (m : Marks) (d : BitVec 7) (a : BitVec 7)
  /-- ASET (R182): Sets an affine register's base and stride. -/
  | aset (m : Marks) (d : BitVec 4) (a : BitVec 6) (b : BitVec 7)
  /-- AADD (R182): Adds to an affine register's base. -/
  | aadd (m : Marks) (d : BitVec 4) (a : BitVec 4) (b : BitVec 7)
  /-- ASTR (R182): Sets an affine register's stride. -/
  | astr (m : Marks) (d : BitVec 4) (a : BitVec 4) (b : BitVec 7)
  /-- AMUL (R182): Multiplies an affine register's stride. -/
  | amul (m : Marks) (d : BitVec 4) (a : BitVec 4) (b : BitVec 7)
  /-- AEXP (R182): Advances an affine register's base by a number of strides. -/
  | aexp (m : Marks) (d : BitVec 4) (a : BitVec 4) (b : BitVec 7)
  /-- AGET (R182): Writes each lane's affine value into a V pair. -/
  | aget (m : Marks) (d : BitVec 6) (a : BitVec 4)
  /-- ADDR (R182): Writes each lane's formed address into a V pair without access. -/
  | addr (m : Marks) (d : BitVec 6) (a : BitVec 7) (b : BitVec 7)
  /-- SHFL (R184): Moves values between lanes by a per-lane source index. -/
  | shfl (m : Marks) (d : BitVec 7) (a : BitVec 7) (b : BitVec 7)
  /-- SHFLX (R184): Moves values between lanes by xor of the lane number. -/
  | shflx (m : Marks) (d : BitVec 7) (a : BitVec 7) (b : BitVec 7)
  /-- BCAST (R184): Broadcasts one lane's value to every active lane. -/
  | bcast (m : Marks) (d : BitVec 7) (a : BitVec 7) (b : BitVec 7)
  /-- VOTE_ANY (R185): Writes whether any active lane's predicate bit is set. -/
  | voteAny (m : Marks) (d : BitVec 3) (a : BitVec 3)
  /-- VOTE_ALL (R185): Writes whether every active lane's predicate bit is set. -/
  | voteAll (m : Marks) (d : BitVec 3) (a : BitVec 3)
  /-- VOTE_BAL (R185): Writes the ballot of active predicate bits into a V register. -/
  | voteBal (m : Marks) (d : BitVec 7) (a : BitVec 3)
  /-- REDC (R186): Sums A over active lanes in a fixed tree and writes it to every active lane. -/
  | redc (m : Marks) (d : BitVec 7) (a : BitVec 7)
  /-- SCAN (R187): Writes the inclusive prefix sum over active lanes. -/
  | scan (m : Marks) (d : BitVec 7) (a : BitVec 7)
  /-- BAR_ARR (R189): Arrives at a split barrier as a release, without waiting. -/
  | barArr (m : Marks) (c : BitVec 3) (n : BitVec 4)
  /-- BAR_WAIT (R189): Waits for the pending barrier generation to complete, as an acquire. -/
  | barWait (m : Marks) (c : BitVec 3) (n : BitVec 4)
  /-- BARRIER_ARRIVAL (R190): An arrival is recorded once its release is performed, completing the generation when all participants have arrived or retired. -/
  | barrierArrival (n : Nat)
  /-- BAR_PHASE (R192): Parks the cane as arrived at the end of its phase. -/
  | barPhase (m : Marks)
  /-- PHASE_END (R162): At the last arrival the device drains copies, releases stores, writes the phase record, frees the workgroup and queues the next phase. -/
  | phaseEnd (wg : Nat)
  /-- GROW (R193): Asks for 8·k more registers, parking until granted. -/
  | grow (m : Marks) (k : BitVec 4)
  /-- GROW_TRY (R193): Attempts register growth once and writes the outcome to a predicate. -/
  | growTry (m : Marks) (d : BitVec 3) (k : BitVec 4)
  /-- SHRINK (R193): Frees and scrubs the top 8·k registers. -/
  | shrink (m : Marks) (k : BitVec 4)
  /-- GROW_GRANT (R166): A parked GROW request is granted when rows become free. -/
  | growGrant (cane : Nat)
  /-- GROW_VICTIM_SELECT (R167): When every resident cane of a core is parked in GROW, a victim workgroup is pre-empted at exit grade. -/
  | growVictimSelect (core : Nat)
  /-- GRAFT (R194): Parks the cane as arrived for a graft record. -/
  | graft (m : Marks) (g : BitVec 13)
  /-- GRAFT_EXECUTE (R168): At the last arrival the device releases stores, waits for scratch copies, fits the target and starts the successor. -/
  | graftExecute (wg : Nat)
  /-- SPAWN (R195): Reads a parcel record, applies its parent's defaults and queues it or refuses it. -/
  | spawn (m : Marks) (a : BitVec 6)
  /-- ROUTE_CHECK (R399): Before a root is queued, the device checks router rows and probes routes, failing the launch on error. -/
  | routeCheck (parcel : Nat)
  /-- PARCEL_WAIT (R196): Parks until a parcel record's status is complete. -/
  | parcelWait (m : Marks) (a : BitVec 6)
  /-- PARCEL_COMPLETE (R171): Once its work, children and stores are done, a parcel writes its status and increments its completion counter. -/
  | parcelComplete (parcel : Nat)
  /-- LD (R224): Plain load through L1. -/
  | ld (m : Marks) (d : BitVec 7) (a : BitVec 7) (b : BitVec 7)
  /-- ST (R224): Plain store. -/
  | st (m : Marks) (d : BitVec 7) (a : BitVec 7) (b : BitVec 7)
  /-- LD_BLK (R225): Loads a register block. -/
  | ldBlk (m : Marks) (d : BitVec 7) (a : BitVec 7) (b : BitVec 7)
  /-- ST_BLK (R225): Stores a register block. -/
  | stBlk (m : Marks) (d : BitVec 7) (a : BitVec 7) (b : BitVec 7)
  /-- LD_ACQ (R226): Acquire load that also sets the cane's watch. -/
  | ldAcq (m : Marks) (d : BitVec 7) (a : BitVec 7) (b : BitVec 7)
  /-- ST_REL (R227): Release store. -/
  | stRel (m : Marks) (d : BitVec 7) (a : BitVec 7) (b : BitVec 7)
  /-- ST_SIG (R227): Release store that is a signalled write. -/
  | stSig (m : Marks) (d : BitVec 7) (a : BitVec 7) (b : BitVec 7)
  /-- FENCE_ACQUIRE (R228): Fence of kind acquire over every earlier load. -/
  | fenceAcquire (m : Marks) (y : BitVec 1) (c : BitVec 3)
  /-- FENCE_RELEASE (R228): Fence of kind release, ordering engines too when async is set. -/
  | fenceRelease (m : Marks) (y : BitVec 1) (c : BitVec 3)
  /-- FENCE_FULL (R215): Fence that is a release followed by an acquire with stores performed before later loads. -/
  | fenceFull (m : Marks) (y : BitVec 1) (c : BitVec 3)
  /-- ATOM_ADD (R229): Atomic add at the press, returning the prior value. -/
  | atomAdd (m : Marks) (d : BitVec 7) (a : BitVec 7) (b : BitVec 7)
  /-- ATOM_MIN (R229): Atomic minimum at the press. -/
  | atomMin (m : Marks) (d : BitVec 7) (a : BitVec 7) (b : BitVec 7)
  /-- ATOM_MAX (R229): Atomic maximum at the press. -/
  | atomMax (m : Marks) (d : BitVec 7) (a : BitVec 7) (b : BitVec 7)
  /-- ATOM_AND (R229): Atomic and at the press. -/
  | atomAnd (m : Marks) (d : BitVec 7) (a : BitVec 7) (b : BitVec 7)
  /-- ATOM_OR (R229): Atomic or at the press. -/
  | atomOr (m : Marks) (d : BitVec 7) (a : BitVec 7) (b : BitVec 7)
  /-- ATOM_XOR (R229): Atomic xor at the press. -/
  | atomXor (m : Marks) (d : BitVec 7) (a : BitVec 7) (b : BitVec 7)
  /-- ATOM_XCHG (R229): Atomic exchange at the press. -/
  | atomXchg (m : Marks) (d : BitVec 7) (a : BitVec 7) (b : BitVec 7)
  /-- ATOM_CAS (R230): Atomic compare-and-swap at the press. -/
  | atomCas (m : Marks) (d : BitVec 7) (a : BitVec 7) (b : BitVec 6)
  /-- RED (R232): Atomic add at the press with no value returned. -/
  | red (m : Marks) (d : BitVec 7) (a : BitVec 7) (b : BitVec 7)
  /-- WAIT_ADDR (R233): Parks on an 8-byte word in the monitor table until a signalled write, a timeout or an exit request. -/
  | waitAddr (m : Marks) (d : BitVec 3) (a : BitVec 7) (b : BitVec 7)
  /-- WAIT_ADDR_TIMEOUT (R233): The timeout of a parked WAIT.ADDR expires and it ends with result 0. -/
  | waitAddrTimeout (cane : Nat)
  /-- RING_PUT (R237): Claims the next ring slot, writes the payload and marks it FULL. -/
  | ringPut (m : Marks) (d : BitVec 7) (a : BitVec 7)
  /-- RING_ACQ (R238): Takes the oldest unclaimed ring slot and marks it CLAIMED. -/
  | ringAcq (m : Marks) (d : BitVec 7) (a : BitVec 7) (b : BitVec 3)
  /-- RING_REL (R239): Frees a claimed ring slot. -/
  | ringRel (m : Marks) (d : BitVec 7) (a : BitVec 7)
  /-- BANK_ROLE (R242): Changes one core-store bank's role when R198 allows. -/
  | bankRole (m : Marks) (d : BitVec 3) (a : BitVec 7) (b : BitVec 7)
  /-- LD_NC (R224): Load at the die's L2 or beyond, bypassing L1. -/
  | ldNc (m : Marks) (d : BitVec 7) (a : BitVec 7) (b : BitVec 7)
  /-- INVAL (R243): Drops the L1 lines of each active lane's address. -/
  | inval (m : Marks) (a : BitVec 7) (b : BitVec 7)
  /-- CP4 (R246): Accepts a 4-byte copy per active lane under a tag. -/
  | cp4 (m : Marks) (d : BitVec 7) (a : BitVec 7) (b : BitVec 6)
  /-- CP8 (R246): Accepts an 8-byte copy per active lane under a tag. -/
  | cp8 (m : Marks) (d : BitVec 7) (a : BitVec 7) (b : BitVec 6)
  /-- CP16 (R246): Accepts a 16-byte copy per active lane under a tag. -/
  | cp16 (m : Marks) (d : BitVec 7) (a : BitVec 7) (b : BitVec 6)
  /-- CP_SEAL (R252): Seals the open batch and opens a new one. -/
  | cpSeal (m : Marks)
  /-- CP_WAITB (R253): Parks until at most n sealed batches are unfinished. -/
  | cpWaitb (m : Marks) (n : BitVec 4)
  /-- TAG_WANY_IMM (R249): Waits until any tag of an immediate mask completes. -/
  | tagWanyImm (m : Marks) (i : BitVec 14)
  /-- TAG_WANY_REG (R249): Waits until any tag of a register mask completes. -/
  | tagWanyReg (m : Marks) (d : BitVec 6)
  /-- TAG_WALL_IMM (R249): Waits until every tag of an immediate mask completes. -/
  | tagWallImm (m : Marks) (i : BitVec 14)
  /-- TAG_WALL_REG (R249): Waits until every tag of a register mask completes. -/
  | tagWallReg (m : Marks) (d : BitVec 6)
  /-- TAG_FFR (R250): Writes the lowest complete tag of a mask. -/
  | tagFfr (m : Marks) (d : BitVec 7) (a : BitVec 6)
  /-- TAG_CLR_IMM (R251): Waits for the tags of an immediate mask to drain and clears their used and err bits. -/
  | tagClrImm (m : Marks) (i : BitVec 14)
  /-- TAG_CLR_REG (R251): Waits for the tags of a register mask to drain and clears their used and err bits. -/
  | tagClrReg (m : Marks) (d : BitVec 6)
  /-- MCAST (R254): Delivers 16 bytes per lane from global memory into the scratch of set members. -/
  | mcast (m : Marks) (d : BitVec 7) (a : BitVec 7) (b : BitVec 7)
  /-- PULL (R256): Copies 16 bytes per lane from another member's scratch. -/
  | pull (m : Marks) (d : BitVec 7) (a : BitVec 7) (b : BitVec 6)
  /-- GATHER (R257): Fetches indexed tensor rows per lane into a destination. -/
  | gather (m : Marks) (d : BitVec 7) (a : BitVec 7) (b : BitVec 7)
  /-- DECANT (R261): Releases, waits for engine writes to a decant buffer and flips its live backing. -/
  | decant (m : Marks) (d : BitVec 3) (a : BitVec 7)
  /-- DECANT_FLIP (R261): Once the accepted engine writes are performed, the home flips the buffer's live bit as a signalled write. -/
  | decantFlip (op : Nat)
  /-- DECANT_FLIP_APPLY (R262): A die applies a flip in causal order, dropping L1 lines of both backings. -/
  | decantFlipApply (op : Nat) (die : Nat)
  /-- ASYNC_OPERATION_PERFORM (R246): The copy engine reads and writes the elements of an accepted copy or pull operation. -/
  | asyncOperationPerform (op : Nat)
  /-- GATHER_PERFORM (R258): The gather engine reads a lane's index list and writes its elements. -/
  | gatherPerform (op : Nat) (lane : Nat)
  /-- MCAST_DELIVERY (R254): A multicast delivery is written into a target member's scratch, or dropped. -/
  | mcastDelivery (op : Nat) (member : Nat)
  /-- ASYNC_OPERATION_COMPLETE (R247): An operation whose writes are all performed completes, decrementing its tag count. -/
  | asyncOperationComplete (op : Nat)
  /-- TT_ENQ (R294): Enqueues a tile-task record image into a queue. -/
  | ttEnq (m : Marks) (d : BitVec 7) (a : BitVec 7) (b : BitVec 7)
  /-- TT_WAIT (R295): Parks until a task retires and acquires its status. -/
  | ttWait (m : Marks) (d : BitVec 3) (a : BitVec 7) (b : BitVec 7)
  /-- TID_SET (R297): Checks and writes a tensor-id entry. -/
  | tidSet (m : Marks) (a : BitVec 7) (b : BitVec 7)
  /-- TID_CLR (R298): Clears a tensor-id entry. -/
  | tidClr (m : Marks) (b : BitVec 7)
  /-- SACC_CFG (R299): Writes the core's SACC.CFG register. -/
  | saccCfg (m : Marks) (a : BitVec 7)
  /-- SACC_RD (R300): Reads a field of an agreement entry or SACC.CFG. -/
  | saccRd (m : Marks) (d : BitVec 7) (a : BitVec 7)
  /-- TT_CANCEL (R296): Cancels a tile task as R292 gives. -/
  | ttCancel (m : Marks) (d : BitVec 3) (a : BitVec 7) (b : BitVec 7)
  /-- TASK_ISSUE (R276): The die's task scheduler issues a ready candidate task to a free engine after checking its entries. -/
  | taskIssue (task : Nat)
  /-- LOAD_B (R268): One macro's weights are decoded and loaded, ending at a step boundary. -/
  | loadB (task : Nat)
  /-- FETCH_A (R269): A row's K extent of A is read into the row buffer. -/
  | fetchA (task : Nat)
  /-- ALIGN (R71): Each 64-element block of the row is converted to block fixed point. -/
  | align (task : Nat)
  /-- SERIAL (R269): The row's bit planes are broadcast through the macros. -/
  | serial (task : Nat)
  /-- REDUCE (R279): Each block's exact integer dot product is completed. -/
  | reduce (task : Nat)
  /-- SCALE (R72): Each block's contribution is scaled, rounded and accumulated in block order. -/
  | scale (task : Nat)
  /-- DRAIN (R280): A row is sent to the press, and progress is written once its lines are performed. -/
  | drain (task : Nat)
  /-- PRESS_APPLY_PARTIAL (R282): A line's partial is added into C at the owning slice, or held for ORDERED order. -/
  | pressApplyPartial (n : Nat)
  /-- COLLECTIVE_START (R288): The tasks of a collective key start once all g have been issued. -/
  | collectiveStart (task : Nat)
  /-- TASK_RETIRE (R289): A task whose writes are performed writes its agreement entry, status, done and completion counter. -/
  | taskRetire (task : Nat)
  /-- RESULT_RETURN (R28): An outstanding result returns and a cane parked after a switch marker becomes ready. -/
  | resultReturn (cane : Nat)
  /-- HOME_WRITE_APPLY (R217): The home applies a write, numbers it and sends it on to dies holding copies and as stamp beats. -/
  | homeWriteApply (n : Nat)
  /-- REMOTE_WRITE_APPLY (R217): A die applies a received write or stamp beat once its clock admits it, and looks it up in the monitor table. -/
  | remoteWriteApply (n : Nat) (die : Nat)
  /-- OWN_WRITE_ACK (R218): An acknowledgement arrives, decrementing counters and reinstating the write's bytes where needed. -/
  | ownWriteAck (n : Nat)
  /-- HOST_WRITE_ACK (R411): A zero-length read completes and acknowledges every earlier host write. -/
  | hostWriteAck (vf : Nat)
  /-- PAGE_WALK_COMPLETE (R324): A translation walk finishes and fills the TLBs or reports a miss. -/
  | pageWalkComplete (walk : Nat)
  /-- TRANSLATION_RESPONSE (R325): A RETRY or DENY answer to a translation entry makes the waiting instructions re-execute. -/
  | translationResponse (terrace : Nat) (entry : Nat)
  /-- PIPE_SELECT (R150): A pipe with no owner chooses a ready cane of its core. -/
  | pipeSelect (cane : Nat)
  /-- FORCED_SWITCH (R28): A cane that issues 128 instructions without S = 1 is switched after the 128th. -/
  | forcedSwitch (cane : Nat)
  /-- AGE_PRIORITY (R152): A ready cane whose age reaches 4096 takes effective priority 16. -/
  | agePriority (cane : Nat)
  /-- RECONVERGE (R118): Before an instruction issues, JOIN and PENDING entries at PC are popped. -/
  | reconverge (cane : Nat)
  /-- DISTRIBUTOR_OFFER (R160): The distributor offers the head of its highest nonempty queue and places it first fit. -/
  | distributorOffer (die : Nat)
  /-- EXIT_VECTOR (R315): A cane about to issue a stop point under an exit request writes its record parts and enters the exit routine. -/
  | exitVector (cane : Nat)
  /-- EXIT_DECISION (R318): After every EXIT #1 the device checks the record and writes COMPLETE with a resume item. -/
  | exitDecision (wg : Nat)
  /-- EXIT_BOUND_EXPIRY (R319): The exit bound expires and the workgroup overruns, stopped and restarted or retired. -/
  | exitBoundExpiry (wg : Nat)
  /-- DRAIN_ESCALATION (R313): A workgroup still running when the drain bound expires is escalated to exit grade. -/
  | drainEscalation (wg : Nat)
  /-- BREAKPOINT_HIT (R357): A cane about to issue a matching stop point debug-parks and appends a BREAK event. -/
  | breakpointHit (cane : Nat)
  /-- REPLAY_GATE_GRANT (R369): An order gate grants a request from the next logged winner and checks the chunk hash. -/
  | replayGateGrant (terrace : Nat) (gate : Nat)
  /-- ATTEST_REPORT_DONE (R415): The signed report is written and VF.ATSTAT becomes DONE. -/
  | attestReportDone (vf : Nat)
  /-- TERRACE_QUIESCED (R340): A QUIESCING terrace with no work remaining becomes QUIESCED. -/
  | terraceQuiesced (terrace : Nat)
  /-- STEWARD_REPLACE (R342): A steward retired by an unhandled fault is replaced at its entry. -/
  | stewardReplace (terrace : Nat)
  /-- HEADLAND_LEND (R339): An idle headland cluster is lent to the lowest eligible borrower. -/
  | headlandLend (cluster : Nat)
  /-- HEADLAND_REVOKE_START (R339): A head that fits only a lent cluster begins its revocation. -/
  | headlandRevokeStart (cluster : Nat)
  /-- HEADLAND_RETURN (R339): After the borrower's work leaves, the cluster is scrubbed and returned. -/
  | headlandReturn (cluster : Nat)
  /-- USAGE_PERIOD_END (R343): At a period boundary the usage record is written and period counters reset. -/
  | usagePeriodEnd (terrace : Nat)
  /-- STALL_RATIO_SAMPLE (R382): At the end of a 10 µs window RATIO and the sample sequence are stored. RATIO follows from
  the counters, and the value that the event carries has no effect. -/
  | stallRatioSample (cluster : Nat) (ratio : BitVec 32)
  /-- QUOTA_REACHED (R343): A counter reaching its quota drains the terrace and holds placement. -/
  | quotaReached (terrace : Nat)
  /-- VDEV_QUANTUM_END (R344): A virtual device's quantum ends with a drain-grade request on its parcels. -/
  | vdevQuantumEnd (terrace : Nat)
  /-- VDEV_TURN_START (R344): When the drain completes, the next virtual device's turn begins. -/
  | vdevTurnStart (terrace : Nat)
  /-- VOLTAGE_SETTLED (R376): A voltage ramp settles, starting an up-step's frequency switch or completing a down-step. -/
  | voltageSettled (cluster : Nat)
  /-- FREQUENCY_SWITCH_END (R376): A 200 ns frequency switch ends, completing an up-step or starting a down-step's voltage ramp. -/
  | frequencySwitchEnd (cluster : Nat)
  /-- SUP_FUNCTION_COMPLETE (R134): A SUP function whose work took time completes once every affected die has acknowledged it and its write-backs or zeroing have ended, and the calling cane issues again. -/
  | supFunctionComplete (cane : Nat)
  /-- TLB_INV_RETIRE (R135): TLB.INV retires once every die of the terrace has dropped the entries and finished the walks that began before it. -/
  | tlbInvRetire (cane : Nat)
  /-- CODE_FETCH_RETURN (R25): Code or a dictionary load that a cane waits for arrives, and the cane leaves FRONTEND.FETCH. -/
  | codeFetchReturn (cane : Nat)
  /-- TRACE_CYCLE_REACHED (R363): SYS.CYCLE of the die's clusters reaches TRC.CYC, making a type-5 start or stop condition true and changing ACTIVE. -/
  | traceCycleReached (die : Nat)
  /-- TRACE_TIME_RECORD (R364): In a recorded cycle whose SYS.CYCLE mod 65536 is 0, the trace unit writes a TIME record. -/
  | traceTimeRecord (die : Nat)
  /-- DBG_CTL_WRITE (R356): A write of DBG.CTL attaches or detaches the debugger, resuming parked canes on detach. -/
  | dbgCtlWrite (terrace : Nat) (value : BitVec 32)
  /-- DBG_EVPOP (R355): A write of 1 drops the oldest debug event, making room for waiting events. -/
  | dbgEvpop (terrace : Nat) (value : BitVec 32)
  /-- DBG_RESUME (R361): Debug command that continues a debug-parked cane. -/
  | dbgResume (terrace : Nat) (value : BitVec 32)
  /-- DBG_STEP (R361): Debug command that continues a cane until its next stop point. -/
  | dbgStep (terrace : Nat) (value : BitVec 32)
  /-- TRC_CTL_WRITE (R362): A write of TRC.CTL claims or releases the trace units. -/
  | trcCtlWrite (terrace : Nat) (value : BitVec 32)
  /-- REPLAY_CTL_WRITE (R367): A write of REPLAY.CTL sets the record or replay mode and clears its flags. -/
  | replayCtlWrite (terrace : Nat) (value : BitVec 32)
  /-- REPLAY_HALT (R370): Replay action that debug-parks every cane of a diverged launch. -/
  | replayHalt (terrace : Nat)
  /-- REPLAY_FREE (R370): Replay action that sets MODE OFF and lets every gate grant freely. -/
  | replayFree (terrace : Nat)
  /-- REGISTER_WRITE (R5): A write to a register that has no row of its own sets its fields by their access codes. -/
  | registerWrite (addr : BitVec 64) (value : BitVec 64)
  /-- SIGNAL_WINDOW_WRITE (R405): A host write through a VF's signal window becomes signalled releases at dom scope. -/
  | signalWindowWrite (vf : Nat) (offset : BitVec 64) (data : List Byte)
  /-- SIGNAL_WINDOW_READ (R405): A host read of the signal window completes with Unsupported Request. -/
  | signalWindowRead (vf : Nat) (offset : BitVec 64)
  /-- MEMORY_WINDOW_WRITE (R406): A host write through a VF's memory window is a plain write to the terrace. -/
  | memoryWindowWrite (vf : Nat) (offset : BitVec 64) (data : List Byte)
  /-- MEMORY_WINDOW_READ (R406): A host read through a VF's memory window is performed at the owning slice. -/
  | memoryWindowRead (vf : Nat) (offset : BitVec 64) (len : Nat)
  /-- VF_ATTEST (R415): A write of 1 to VF.ATTEST starts an attestation report. -/
  | vfAttest (vf : Nat) (value : BitVec 32)
  /-- VF_FLR (R412): A function-level reset zeroes the VF registers and abandons any report. -/
  | vfFlr (vf : Nat)
  /-- COLD_RESET (R413): Cold reset clears the core sample and starts the boot ROM. -/
  | coldReset
  /-- WARM_RESET (R413): Warm reset starts the boot ROM and keeps the core sample. -/
  | warmReset
  /-- FIRMWARE_IMAGE_LOAD (R413): A fetched firmware image is verified and loaded, or the package stays in recovery. -/
  | firmwareImageLoad (image : Image)
  /-- LINK_FLIT_REPLAY (R393): A flit that fails its CRC is replayed. -/
  | linkFlitReplay (link : Nat)
  /-- LINK_DOWN (R393): After 8 consecutive failed replays the link goes down and management is told. -/
  | linkDown (link : Nat)
  /-- LINK_RETRAIN (R393): Management retrains a down link. -/
  | linkRetrain (link : Nat)
  /-- ENERGY_UPDATE (R381): Every 10 µs the cluster's rolling energy is updated. -/
  | energyUpdate (cluster : Nat) (energy : BitVec 32)
  /-- HOTSPOT_OVER_LIMIT (R385): HOT exceeds HOTLIM and SERIAL steps pause. -/
  | hotspotOverLimit (cluster : Nat) (hot : BitVec 32)
  /-- HOTSPOT_CLEAR (R385): HOT falls 3 °C below HOTLIM and SERIAL resumes, raising to point 2 for a running task. -/
  | hotspotClear (cluster : Nat) (hot : BitVec 32)
  /-- HOTSPOT_CRITICAL (R385): HOT exceeds HOTLIM + 5 °C and issue pauses while the cluster moves to point 0. -/
  | hotspotCritical (cluster : Nat) (hot : BitVec 32)
  /-- MEMORY_SOFT_ERROR (R207): A bit error strikes a granule in a memory level, core-store row or link buffer, leaving it correctable or poisoned. -/
  | memorySoftError (kind : Nat) (n : Nat)
  /-- FIRMWARE_FETCH_FAILURE (R413): The boot ROM's TFTP fetch of the firmware image fails, and it turns to fetching over Trellis from a neighbouring package. -/
  | firmwareFetchFailure
  deriving DecidableEq, Repr

end Sys2Proof
end

