-- ==== Sys2Proof/WellFormed.lean ====
section
/-! DEFINITION. Well-formed instructions: the field ranges of R43, R45, R47 and R51 and the operand
limits of R129 and R354, which decode checks at step 3 of R53. The limits of an immediate (R115,
R188) are checked by the meanings, since an immx word extends the immediate; they raise the same
ILLEGAL_ENCODING. -/

namespace Sys2Proof

/-- R43: an address operand is an affine register (bit 6 = 1, bits [5:4] = 0) or an even V pair. -/
def addrOk (f : BitVec 7) : Bool :=
  if f.getLsbD 6 then f.extractLsb' 4 2 == 0#2 else !f.getLsbD 0

/-- R45, R51: a scope code 0 to 5. -/
def scopeOk (c : BitVec 3) : Bool := decide (c.toNat ≤ 5)

/-- R47: the condition codes ISETP accepts. -/
def isetpOk (c : BitVec 4) : Bool := decide (c.toNat ≤ 9)

/-- R47: the condition codes FSETP accepts. -/
def fsetpOk (c : BitVec 4) : Bool := decide (c.toNat ≤ 5 ∨ 10 ≤ c.toNat)

/-- R18, R129: the assigned selectors of SYS.RD and SYS.WR, and their widths. -/
def sysWidth (sel : Nat) : Option Nat :=
  if sel == 0x006 || sel == 0x009 || sel == 0x00C || sel == 0x010 || sel == 0x014
      || sel == 0x018 || sel == 0x020 then some 64
  else if sel ≤ 0x00E || (0x011 ≤ sel && sel ≤ 0x01F) then some 32
  else none

/-- R129, R130: an assigned selector, and an even D for a 64-bit one. -/
def sysOperandOk (d : BitVec 7) (i : BitVec 12) : Bool :=
  match sysWidth i.toNat with
  | some 64 => !d.getLsbD 0
  | some _ => true
  | none => false

/-- R354, R383: the assigned counter selectors of PERF.RD. -/
def perfAssigned (i : BitVec 12) : Bool :=
  let n := i.toNat
  n == 0 || (0x010 ≤ n && n ≤ 0x01D) || (0x020 ≤ n && n ≤ 0x024)
    || (0x040 ≤ n && n ≤ 0x043) || (0x050 ≤ n && n ≤ 0x05F)

/-- The operand limits of an encoded instruction that its opcode's fixed fields do not already hold.
A device event has no encoding and meets it. -/
def Instr.wellFormed : Instr → Bool
  | .sysRd _ d i => sysOperandOk d i
  | .sysWr _ d i => sysOperandOk d i
  | .perfRd _ _ i => perfAssigned i
  | .isetp _ c _ _ _ => isetpOk c
  | .fsetp _ c _ _ _ => fsetpOk c
  | .addr _ _ a _ => addrOk a
  | .ld _ _ a _ => addrOk a
  | .st _ d _ _ => addrOk d
  | .ldBlk _ _ a _ => addrOk a
  | .stBlk _ d _ _ => addrOk d
  | .ldAcq _ _ a _ => addrOk a
  | .stRel _ d _ _ => addrOk d
  | .stSig _ d _ _ => addrOk d
  | .fenceAcquire _ _ c => scopeOk c
  | .fenceRelease _ _ c => scopeOk c
  | .fenceFull _ _ c => scopeOk c
  | .atomAdd _ _ a _ => addrOk a
  | .atomMin _ _ a _ => addrOk a
  | .atomMax _ _ a _ => addrOk a
  | .atomAnd _ _ a _ => addrOk a
  | .atomOr _ _ a _ => addrOk a
  | .atomXor _ _ a _ => addrOk a
  | .atomXchg _ _ a _ => addrOk a
  | .atomCas _ _ a _ => addrOk a
  | .red _ d _ _ => addrOk d
  | .waitAddr _ _ a _ => addrOk a
  | .ringPut _ d _ => addrOk d
  | .ringAcq _ _ a _ => addrOk a
  | .ringRel _ _ a => addrOk a
  | .ldNc _ _ a _ => addrOk a
  | .inval _ a _ => addrOk a
  | .cp4 _ d a _ => addrOk d && addrOk a
  | .cp8 _ d a _ => addrOk d && addrOk a
  | .cp16 _ d a _ => addrOk d && addrOk a
  | .mcast _ d a _ => addrOk d && addrOk a
  | .pull _ d a _ => addrOk d && addrOk a
  | .gather _ d a _ => addrOk d && addrOk a
  | .decant _ d _ => scopeOk d
  | .ttEnq _ d _ _ => addrOk d
  | .ttWait _ _ a _ => addrOk a
  | .ttCancel _ _ a _ => addrOk a
  | _ => true

end Sys2Proof
end

