-- ==== Sys2Proof/Decode.lean ====
section
/-! DEFINITION. Decoding of parcels and words (R20 to R24, R37 to R53), total and rejecting by name,
and the encoder written from the same tables. -/

namespace Sys2Proof

/-- Why bytes are no instruction (R52). -/
inductive DecodeError where
  /-- OP is unassigned in 0x00 to 0xEF (R52). -/
  | illegalOpcode
  /-- A fixed field, an operand field or an operand limit is broken, or the word may not stand here
  (R23, R52). -/
  | illegalEncoding
  /-- The bytes end before the instruction does. -/
  | truncated
  deriving DecidableEq, Repr

/-! ## Fields of a word (R37) -/

/-- OP, bits [31:24]. -/
def opOf (w : Word) : Nat := (w.extractLsb' 24 8).toNat
/-- Bits [23:21]: S, T and U. -/
def marksOf (w : Word) : Marks := ⟨w.getLsbD 23, w.getLsbD 22, w.getLsbD 21⟩
/-- The F3 format (R37). -/
def mkF3 (op : BitVec 8) (m : Marks) (d a b : BitVec 7) : Word :=
  op ++ BitVec.ofBool m.s ++ BitVec.ofBool m.t ++ BitVec.ofBool m.u ++ d ++ a ++ b
/-- The FI format (R37). -/
def mkFI (op : BitVec 8) (m : Marks) (d : BitVec 7) (i : BitVec 14) : Word :=
  op ++ BitVec.ofBool m.s ++ BitVec.ofBool m.t ++ BitVec.ofBool m.u ++ d ++ i
/-- The FB format (R37). -/
def mkFB (op : BitVec 8) (m : Marks) (j : BitVec 21) : Word :=
  op ++ BitVec.ofBool m.s ++ BitVec.ofBool m.t ++ BitVec.ofBool m.u ++ j

/-! ## The opcode map (R49, R50) -/

/-- The first row whose fixed bits (mask, value) the word holds; no row holding is ILLEGAL_ENCODING
(R52). -/
def pick (w : Word) : List (Word × Word × Instr) → Except DecodeError Instr
  | [] => .error .illegalEncoding
  | (mask, val, i) :: rest => if w &&& mask = val then .ok i else pick w rest

/-- Opcodes of the control and system group (R115, R128). -/
def decodeControl (op : Nat) (w : Word) : Except DecodeError Instr :=
  match op with
  | 0x00 => pick w [(0x1FFFFF#32, 0x000000#32, .nop (marksOf w))]
  | 0x01 => pick w [(0x1FC000#32, 0x000000#32, .mode (marksOf w) (w.extractLsb' 0 14))]
  | 0x02 => pick w [(0x1FC07F#32, 0x000000#32, .moder (marksOf w) (w.extractLsb' 7 7))]
  | 0x04 => pick w [(0x000000#32, 0x000000#32, .bra (marksOf w) (w.extractLsb' 0 21))]
  | 0x05 => pick w [(0x000000#32, 0x000000#32, .brau (marksOf w) (w.extractLsb' 0 21))]
  | 0x06 => pick w [(0x000000#32, 0x000000#32, .join (marksOf w) (w.extractLsb' 0 21))]
  | 0x07 => pick w [(0x000000#32, 0x000000#32, .call (marksOf w) (w.extractLsb' 0 21))]
  | 0x08 => pick w [(0x1FFFFF#32, 0x000000#32, .ret (marksOf w))]
  | 0x09 => pick w [(0x1FC0FF#32, 0x000000#32, .jmpr (marksOf w) (w.extractLsb' 8 6))]
  | 0x0A => pick w [(0x1FC000#32, 0x000000#32, .trap (marksOf w) (w.extractLsb' 0 14))]
  | 0x0B => pick w [(0x1FFFFF#32, 0x000000#32, .eret (marksOf w))]
  | 0x0C => pick w [(0x1FFFFF#32, 0x000000#32, .exit0 (marksOf w)),
      (0x1FFFFF#32, 0x000001#32, .exit1 (marksOf w)),
      (0x1FFFFF#32, 0x000002#32, .exit2 (marksOf w))]
  | 0x0D => pick w [(0x1FC000#32, 0x000000#32, .bkpt (marksOf w) (w.extractLsb' 0 14))]
  | 0x0E => pick w [(0x1FC000#32, 0x000000#32, .mark (marksOf w) (w.extractLsb' 0 14))]
  | 0x0F => pick w [(0x003000#32, 0x000000#32, .sysRd (marksOf w) (w.extractLsb' 14 7) (w.extractLsb' 0 12))]
  | 0x10 => pick w [(0x003000#32, 0x000000#32, .sysWr (marksOf w) (w.extractLsb' 14 7) (w.extractLsb' 0 12))]
  | 0x11 => pick w [(0x007000#32, 0x000000#32, .perfRd (marksOf w) (w.extractLsb' 15 6) (w.extractLsb' 0 12))]
  | 0x12 => pick w [(0x1FFFF0#32, 0x000000#32, .trig (marksOf w) (w.extractLsb' 0 4))]
  | 0x13 => pick w [(0x003FF8#32, 0x000000#32, .pwrReq (marksOf w) (w.extractLsb' 14 7) (w.extractLsb' 0 3))]
  | 0x14 => pick w [(0x003FFF#32, 0x000001#32, .faultResume (marksOf w) (w.extractLsb' 14 7)),
      (0x003FFF#32, 0x000002#32, .faultRetire (marksOf w) (w.extractLsb' 14 7)),
      (0x003FFF#32, 0x000010#32, .fqSet (marksOf w) (w.extractLsb' 14 7)),
      (0x003FFF#32, 0x000011#32, .s1Root (marksOf w) (w.extractLsb' 14 7)),
      (0x003FFF#32, 0x000012#32, .vdSelect (marksOf w) (w.extractLsb' 14 7)),
      (0x003FFF#32, 0x000013#32, .s1Page (marksOf w) (w.extractLsb' 14 7)),
      (0x003FFF#32, 0x000020#32, .decantSet (marksOf w) (w.extractLsb' 14 7)),
      (0x003FFF#32, 0x000021#32, .decantClr (marksOf w) (w.extractLsb' 14 7)),
      (0x003FFF#32, 0x000022#32, .urgent (marksOf w) (w.extractLsb' 14 7)),
      (0x003FFF#32, 0x000023#32, .supDrain (marksOf w) (w.extractLsb' 14 7)),
      (0x003FFF#32, 0x000080#32, .terraceGet (marksOf w) (w.extractLsb' 14 7)),
      (0x003FFF#32, 0x000081#32, .terraceSet (marksOf w) (w.extractLsb' 14 7)),
      (0x003FFF#32, 0x000082#32, .terraceCommit (marksOf w) (w.extractLsb' 14 7)),
      (0x003FFF#32, 0x000083#32, .terraceQuiesce (marksOf w) (w.extractLsb' 14 7)),
      (0x003FFF#32, 0x000084#32, .terraceOff (marksOf w) (w.extractLsb' 14 7)),
      (0x003FFF#32, 0x000085#32, .keyLoad (marksOf w) (w.extractLsb' 14 7)),
      (0x003FFF#32, 0x000086#32, .terraceScrub (marksOf w) (w.extractLsb' 14 7)),
      (0x003FFF#32, 0x000087#32, .s2Inv (marksOf w) (w.extractLsb' 14 7)),
      (0x003FFF#32, 0x000088#32, .s2Page (marksOf w) (w.extractLsb' 14 7)),
      (0x003FFF#32, 0x000089#32, .headlandRevoke (marksOf w) (w.extractLsb' 14 7)),
      (0x003FFF#32, 0x00008A#32, .terraceSave (marksOf w) (w.extractLsb' 14 7)),
      (0x003FFF#32, 0x00008B#32, .terraceRestore (marksOf w) (w.extractLsb' 14 7)),
      (0x003FFF#32, 0x00008C#32, .stewardSet (marksOf w) (w.extractLsb' 14 7)),
      (0x003FFF#32, 0x00008D#32, .mfqSet (marksOf w) (w.extractLsb' 14 7))]
  | 0x15 => pick w [(0x1FFFFF#32, 0x000000#32, .tlbInvTerrace (marksOf w)),
      (0x1FFFFF#32, 0x000001#32, .tlbInvVdev (marksOf w))]
  | _ => .error .illegalOpcode

/-- Opcodes of the integer, logic and predicate group (R136 to R143). -/
def decodeInteger (op : Nat) (w : Word) : Except DecodeError Instr :=
  match op with
  | 0x20 => pick w [(0x000000#32, 0x000000#32, .iadd (marksOf w) (w.extractLsb' 14 7) (w.extractLsb' 7 7) (w.extractLsb' 0 7))]
  | 0x21 => pick w [(0x000000#32, 0x000000#32, .isub (marksOf w) (w.extractLsb' 14 7) (w.extractLsb' 7 7) (w.extractLsb' 0 7))]
  | 0x22 => pick w [(0x000000#32, 0x000000#32, .imul (marksOf w) (w.extractLsb' 14 7) (w.extractLsb' 7 7) (w.extractLsb' 0 7))]
  | 0x23 => pick w [(0x000000#32, 0x000000#32, .imulh (marksOf w) (w.extractLsb' 14 7) (w.extractLsb' 7 7) (w.extractLsb' 0 7))]
  | 0x24 => pick w [(0x000000#32, 0x000000#32, .imad (marksOf w) (w.extractLsb' 14 7) (w.extractLsb' 7 7) (w.extractLsb' 0 7))]
  | 0x25 => pick w [(0x000000#32, 0x000000#32, .idiv (marksOf w) (w.extractLsb' 14 7) (w.extractLsb' 7 7) (w.extractLsb' 0 7))]
  | 0x26 => pick w [(0x000000#32, 0x000000#32, .irem (marksOf w) (w.extractLsb' 14 7) (w.extractLsb' 7 7) (w.extractLsb' 0 7))]
  | 0x27 => pick w [(0x000000#32, 0x000000#32, .imin (marksOf w) (w.extractLsb' 14 7) (w.extractLsb' 7 7) (w.extractLsb' 0 7))]
  | 0x28 => pick w [(0x000000#32, 0x000000#32, .imax (marksOf w) (w.extractLsb' 14 7) (w.extractLsb' 7 7) (w.extractLsb' 0 7))]
  | 0x29 => pick w [(0x00007F#32, 0x000000#32, .iabs (marksOf w) (w.extractLsb' 14 7) (w.extractLsb' 7 7))]
  | 0x2A => pick w [(0x00007F#32, 0x000000#32, .ineg (marksOf w) (w.extractLsb' 14 7) (w.extractLsb' 7 7))]
  | 0x2B => pick w [(0x000000#32, 0x000000#32, .and (marksOf w) (w.extractLsb' 14 7) (w.extractLsb' 7 7) (w.extractLsb' 0 7))]
  | 0x2C => pick w [(0x000000#32, 0x000000#32, .or (marksOf w) (w.extractLsb' 14 7) (w.extractLsb' 7 7) (w.extractLsb' 0 7))]
  | 0x2D => pick w [(0x000000#32, 0x000000#32, .xor (marksOf w) (w.extractLsb' 14 7) (w.extractLsb' 7 7) (w.extractLsb' 0 7))]
  | 0x2E => pick w [(0x00007F#32, 0x000000#32, .not (marksOf w) (w.extractLsb' 14 7) (w.extractLsb' 7 7))]
  | 0x2F => pick w [(0x000000#32, 0x000000#32, .shl (marksOf w) (w.extractLsb' 14 7) (w.extractLsb' 7 7) (w.extractLsb' 0 7))]
  | 0x30 => pick w [(0x000000#32, 0x000000#32, .shr (marksOf w) (w.extractLsb' 14 7) (w.extractLsb' 7 7) (w.extractLsb' 0 7))]
  | 0x31 => pick w [(0x000000#32, 0x000000#32, .sar (marksOf w) (w.extractLsb' 14 7) (w.extractLsb' 7 7) (w.extractLsb' 0 7))]
  | 0x32 => pick w [(0x000000#32, 0x000000#32, .rot (marksOf w) (w.extractLsb' 14 7) (w.extractLsb' 7 7) (w.extractLsb' 0 7))]
  | 0x33 => pick w [(0x00007F#32, 0x000000#32, .popc (marksOf w) (w.extractLsb' 14 7) (w.extractLsb' 7 7))]
  | 0x34 => pick w [(0x00007F#32, 0x000000#32, .clz (marksOf w) (w.extractLsb' 14 7) (w.extractLsb' 7 7))]
  | 0x35 => pick w [(0x00007F#32, 0x000000#32, .brev (marksOf w) (w.extractLsb' 14 7) (w.extractLsb' 7 7))]
  | 0x36 => pick w [(0x000000#32, 0x000000#32, .bfx (marksOf w) (w.extractLsb' 14 7) (w.extractLsb' 7 7) (w.extractLsb' 0 7))]
  | 0x37 => pick w [(0x000000#32, 0x000000#32, .bfi (marksOf w) (w.extractLsb' 14 7) (w.extractLsb' 7 7) (w.extractLsb' 0 7))]
  | 0x38 => pick w [(0x000000#32, 0x000000#32, .sel (marksOf w) (w.extractLsb' 14 7) (w.extractLsb' 7 7) (w.extractLsb' 0 7))]
  | 0x39 => pick w [(0x000000#32, 0x000000#32, .isetp (marksOf w) (w.extractLsb' 17 4) (w.extractLsb' 14 3) (w.extractLsb' 7 7) (w.extractLsb' 0 7))]
  | 0x3A => pick w [(0x000000#32, 0x000000#32, .iaddi (marksOf w) (w.extractLsb' 14 7) (w.extractLsb' 0 14))]
  | 0x3B => pick w [(0x000000#32, 0x000000#32, .andi (marksOf w) (w.extractLsb' 14 7) (w.extractLsb' 0 14))]
  | 0x3C => pick w [(0x000000#32, 0x000000#32, .movi (marksOf w) (w.extractLsb' 14 7) (w.extractLsb' 0 14))]
  | 0x3D => pick w [(0x00007F#32, 0x000000#32, .mov (marksOf w) (w.extractLsb' 14 7) (w.extractLsb' 7 7))]
  | 0x3E => pick w [(0x00007F#32, 0x000000#32, .cvt (marksOf w) (w.extractLsb' 14 7) (w.extractLsb' 7 7))]
  | 0x3F => pick w [(0x1E3C78#32, 0x000000#32, .pand (marksOf w) (w.extractLsb' 14 3) (w.extractLsb' 7 3) (w.extractLsb' 0 3))]
  | 0x40 => pick w [(0x1E3C78#32, 0x000000#32, .por (marksOf w) (w.extractLsb' 14 3) (w.extractLsb' 7 3) (w.extractLsb' 0 3))]
  | 0x41 => pick w [(0x1E3C7F#32, 0x000000#32, .pnot (marksOf w) (w.extractLsb' 14 3) (w.extractLsb' 7 3))]
  | _ => .error .illegalOpcode

/-- Opcodes of the floating-point group (R176). -/
def decodeFloat (op : Nat) (w : Word) : Except DecodeError Instr :=
  match op with
  | 0x50 => pick w [(0x000000#32, 0x000000#32, .fadd (marksOf w) (w.extractLsb' 14 7) (w.extractLsb' 7 7) (w.extractLsb' 0 7))]
  | 0x51 => pick w [(0x000000#32, 0x000000#32, .fsub (marksOf w) (w.extractLsb' 14 7) (w.extractLsb' 7 7) (w.extractLsb' 0 7))]
  | 0x52 => pick w [(0x000000#32, 0x000000#32, .fmul (marksOf w) (w.extractLsb' 14 7) (w.extractLsb' 7 7) (w.extractLsb' 0 7))]
  | 0x53 => pick w [(0x000000#32, 0x000000#32, .ffma (marksOf w) (w.extractLsb' 14 7) (w.extractLsb' 7 7) (w.extractLsb' 0 7))]
  | 0x54 => pick w [(0x000000#32, 0x000000#32, .ffms (marksOf w) (w.extractLsb' 14 7) (w.extractLsb' 7 7) (w.extractLsb' 0 7))]
  | 0x55 => pick w [(0x000000#32, 0x000000#32, .fnma (marksOf w) (w.extractLsb' 14 7) (w.extractLsb' 7 7) (w.extractLsb' 0 7))]
  | 0x56 => pick w [(0x000000#32, 0x000000#32, .fmin (marksOf w) (w.extractLsb' 14 7) (w.extractLsb' 7 7) (w.extractLsb' 0 7))]
  | 0x57 => pick w [(0x000000#32, 0x000000#32, .fmax (marksOf w) (w.extractLsb' 14 7) (w.extractLsb' 7 7) (w.extractLsb' 0 7))]
  | 0x58 => pick w [(0x00007F#32, 0x000000#32, .fabs (marksOf w) (w.extractLsb' 14 7) (w.extractLsb' 7 7))]
  | 0x59 => pick w [(0x00007F#32, 0x000000#32, .fneg (marksOf w) (w.extractLsb' 14 7) (w.extractLsb' 7 7))]
  | 0x5A => pick w [(0x000000#32, 0x000000#32, .fsetp (marksOf w) (w.extractLsb' 17 4) (w.extractLsb' 14 3) (w.extractLsb' 7 7) (w.extractLsb' 0 7))]
  | 0x5B => pick w [(0x00007F#32, 0x000000#32, .frcp (marksOf w) (w.extractLsb' 14 7) (w.extractLsb' 7 7))]
  | 0x5C => pick w [(0x00007F#32, 0x000000#32, .frsq (marksOf w) (w.extractLsb' 14 7) (w.extractLsb' 7 7))]
  | 0x5D => pick w [(0x00007F#32, 0x000000#32, .fsqrt (marksOf w) (w.extractLsb' 14 7) (w.extractLsb' 7 7))]
  | 0x5E => pick w [(0x00007F#32, 0x000000#32, .fexp2 (marksOf w) (w.extractLsb' 14 7) (w.extractLsb' 7 7))]
  | 0x5F => pick w [(0x00007F#32, 0x000000#32, .flog2 (marksOf w) (w.extractLsb' 14 7) (w.extractLsb' 7 7))]
  | 0x60 => pick w [(0x000000#32, 0x000000#32, .fdot2 (marksOf w) (w.extractLsb' 14 7) (w.extractLsb' 7 7) (w.extractLsb' 0 7))]
  | 0x61 => pick w [(0x000000#32, 0x000000#32, .fscale (marksOf w) (w.extractLsb' 14 7) (w.extractLsb' 7 7) (w.extractLsb' 0 7))]
  | 0x62 => pick w [(0x00007F#32, 0x000000#32, .fclass (marksOf w) (w.extractLsb' 14 7) (w.extractLsb' 7 7))]
  | 0x63 => pick w [(0x00007F#32, 0x000000#32, .frnd (marksOf w) (w.extractLsb' 14 7) (w.extractLsb' 7 7))]
  | _ => .error .illegalOpcode

/-- Opcodes of the affine group (R182). -/
def decodeAffine (op : Nat) (w : Word) : Except DecodeError Instr :=
  match op with
  | 0x70 => pick w [(0x1C0080#32, 0x000000#32, .aset (marksOf w) (w.extractLsb' 14 4) (w.extractLsb' 8 6) (w.extractLsb' 0 7))]
  | 0x71 => pick w [(0x1C3800#32, 0x000000#32, .aadd (marksOf w) (w.extractLsb' 14 4) (w.extractLsb' 7 4) (w.extractLsb' 0 7))]
  | 0x72 => pick w [(0x1C3800#32, 0x000000#32, .astr (marksOf w) (w.extractLsb' 14 4) (w.extractLsb' 7 4) (w.extractLsb' 0 7))]
  | 0x73 => pick w [(0x1C3800#32, 0x000000#32, .amul (marksOf w) (w.extractLsb' 14 4) (w.extractLsb' 7 4) (w.extractLsb' 0 7))]
  | 0x74 => pick w [(0x1C3800#32, 0x000000#32, .aexp (marksOf w) (w.extractLsb' 14 4) (w.extractLsb' 7 4) (w.extractLsb' 0 7))]
  | 0x75 => pick w [(0x00787F#32, 0x000000#32, .aget (marksOf w) (w.extractLsb' 15 6) (w.extractLsb' 7 4))]
  | 0x76 => pick w [(0x004000#32, 0x000000#32, .addr (marksOf w) (w.extractLsb' 15 6) (w.extractLsb' 7 7) (w.extractLsb' 0 7))]
  | _ => .error .illegalOpcode

/-- Opcodes of the cross-lane group (R183). -/
def decodeCrossLane (op : Nat) (w : Word) : Except DecodeError Instr :=
  match op with
  | 0x80 => pick w [(0x000000#32, 0x000000#32, .shfl (marksOf w) (w.extractLsb' 14 7) (w.extractLsb' 7 7) (w.extractLsb' 0 7))]
  | 0x81 => pick w [(0x000000#32, 0x000000#32, .shflx (marksOf w) (w.extractLsb' 14 7) (w.extractLsb' 7 7) (w.extractLsb' 0 7))]
  | 0x82 => pick w [(0x000000#32, 0x000000#32, .bcast (marksOf w) (w.extractLsb' 14 7) (w.extractLsb' 7 7) (w.extractLsb' 0 7))]
  | 0x83 => pick w [(0x1E3C7F#32, 0x000000#32, .voteAny (marksOf w) (w.extractLsb' 14 3) (w.extractLsb' 7 3))]
  | 0x84 => pick w [(0x1E3C7F#32, 0x000000#32, .voteAll (marksOf w) (w.extractLsb' 14 3) (w.extractLsb' 7 3))]
  | 0x85 => pick w [(0x003C7F#32, 0x000000#32, .voteBal (marksOf w) (w.extractLsb' 14 7) (w.extractLsb' 7 3))]
  | 0x86 => pick w [(0x00007F#32, 0x000000#32, .redc (marksOf w) (w.extractLsb' 14 7) (w.extractLsb' 7 7))]
  | 0x87 => pick w [(0x00007F#32, 0x000000#32, .scan (marksOf w) (w.extractLsb' 14 7) (w.extractLsb' 7 7))]
  | _ => .error .illegalOpcode

/-- Opcodes of the workgroup group (R188). -/
def decodeWorkgroup (op : Nat) (w : Word) : Except DecodeError Instr :=
  match op with
  | 0x90 => pick w [(0x1FFF80#32, 0x000000#32, .barArr (marksOf w) (w.extractLsb' 4 3) (w.extractLsb' 0 4))]
  | 0x91 => pick w [(0x1FFF80#32, 0x000000#32, .barWait (marksOf w) (w.extractLsb' 4 3) (w.extractLsb' 0 4))]
  | 0x92 => pick w [(0x1FFFFF#32, 0x000000#32, .barPhase (marksOf w))]
  | 0x93 => pick w [(0x1FFFF0#32, 0x000000#32, .grow (marksOf w) (w.extractLsb' 0 4))]
  | 0x94 => pick w [(0x1E3FF0#32, 0x000000#32, .growTry (marksOf w) (w.extractLsb' 14 3) (w.extractLsb' 0 4))]
  | 0x95 => pick w [(0x1FFFF0#32, 0x000000#32, .shrink (marksOf w) (w.extractLsb' 0 4))]
  | 0x96 => pick w [(0x1FE000#32, 0x000000#32, .graft (marksOf w) (w.extractLsb' 0 13))]
  | 0x97 => pick w [(0x1FC0FF#32, 0x000000#32, .spawn (marksOf w) (w.extractLsb' 8 6))]
  | 0x98 => pick w [(0x1FC0FF#32, 0x000000#32, .parcelWait (marksOf w) (w.extractLsb' 8 6))]
  | _ => .error .illegalOpcode

/-- Opcodes of the memory group. -/
def decodeMemory (op : Nat) (w : Word) : Except DecodeError Instr :=
  match op with
  | 0xA0 => pick w [(0x000000#32, 0x000000#32, .ld (marksOf w) (w.extractLsb' 14 7) (w.extractLsb' 7 7) (w.extractLsb' 0 7))]
  | 0xA1 => pick w [(0x000000#32, 0x000000#32, .st (marksOf w) (w.extractLsb' 14 7) (w.extractLsb' 7 7) (w.extractLsb' 0 7))]
  | 0xA2 => pick w [(0x000000#32, 0x000000#32, .ldBlk (marksOf w) (w.extractLsb' 14 7) (w.extractLsb' 7 7) (w.extractLsb' 0 7))]
  | 0xA3 => pick w [(0x000000#32, 0x000000#32, .stBlk (marksOf w) (w.extractLsb' 14 7) (w.extractLsb' 7 7) (w.extractLsb' 0 7))]
  | 0xA4 => pick w [(0x000000#32, 0x000000#32, .ldAcq (marksOf w) (w.extractLsb' 14 7) (w.extractLsb' 7 7) (w.extractLsb' 0 7))]
  | 0xA5 => pick w [(0x000000#32, 0x000000#32, .stRel (marksOf w) (w.extractLsb' 14 7) (w.extractLsb' 7 7) (w.extractLsb' 0 7))]
  | 0xA6 => pick w [(0x000000#32, 0x000000#32, .stSig (marksOf w) (w.extractLsb' 14 7) (w.extractLsb' 7 7) (w.extractLsb' 0 7))]
  | 0xA7 => pick w [(0x1FFFD8#32, 0x000000#32, .fenceAcquire (marksOf w) (w.extractLsb' 5 1) (w.extractLsb' 0 3)),
      (0x1FFFD8#32, 0x000008#32, .fenceRelease (marksOf w) (w.extractLsb' 5 1) (w.extractLsb' 0 3)),
      (0x1FFFD8#32, 0x000010#32, .fenceFull (marksOf w) (w.extractLsb' 5 1) (w.extractLsb' 0 3))]
  | 0xA8 => pick w [(0x000000#32, 0x000000#32, .atomAdd (marksOf w) (w.extractLsb' 14 7) (w.extractLsb' 7 7) (w.extractLsb' 0 7))]
  | 0xA9 => pick w [(0x000000#32, 0x000000#32, .atomMin (marksOf w) (w.extractLsb' 14 7) (w.extractLsb' 7 7) (w.extractLsb' 0 7))]
  | 0xAA => pick w [(0x000000#32, 0x000000#32, .atomMax (marksOf w) (w.extractLsb' 14 7) (w.extractLsb' 7 7) (w.extractLsb' 0 7))]
  | 0xAB => pick w [(0x000000#32, 0x000000#32, .atomAnd (marksOf w) (w.extractLsb' 14 7) (w.extractLsb' 7 7) (w.extractLsb' 0 7))]
  | 0xAC => pick w [(0x000000#32, 0x000000#32, .atomOr (marksOf w) (w.extractLsb' 14 7) (w.extractLsb' 7 7) (w.extractLsb' 0 7))]
  | 0xAD => pick w [(0x000000#32, 0x000000#32, .atomXor (marksOf w) (w.extractLsb' 14 7) (w.extractLsb' 7 7) (w.extractLsb' 0 7))]
  | 0xAE => pick w [(0x000000#32, 0x000000#32, .atomXchg (marksOf w) (w.extractLsb' 14 7) (w.extractLsb' 7 7) (w.extractLsb' 0 7))]
  | 0xAF => pick w [(0x000001#32, 0x000000#32, .atomCas (marksOf w) (w.extractLsb' 14 7) (w.extractLsb' 7 7) (w.extractLsb' 1 6))]
  | 0xB0 => pick w [(0x000000#32, 0x000000#32, .red (marksOf w) (w.extractLsb' 14 7) (w.extractLsb' 7 7) (w.extractLsb' 0 7))]
  | 0xB1 => pick w [(0x1E0000#32, 0x000000#32, .waitAddr (marksOf w) (w.extractLsb' 14 3) (w.extractLsb' 7 7) (w.extractLsb' 0 7))]
  | 0xB2 => pick w [(0x00007F#32, 0x00007F#32, .ringPut (marksOf w) (w.extractLsb' 14 7) (w.extractLsb' 7 7))]
  | 0xB3 => pick w [(0x000078#32, 0x000000#32, .ringAcq (marksOf w) (w.extractLsb' 14 7) (w.extractLsb' 7 7) (w.extractLsb' 0 3))]
  | 0xB4 => pick w [(0x00007F#32, 0x000000#32, .ringRel (marksOf w) (w.extractLsb' 14 7) (w.extractLsb' 7 7))]
  | 0xB5 => pick w [(0x1E0000#32, 0x000000#32, .bankRole (marksOf w) (w.extractLsb' 14 3) (w.extractLsb' 7 7) (w.extractLsb' 0 7))]
  | 0xB6 => pick w [(0x000000#32, 0x000000#32, .ldNc (marksOf w) (w.extractLsb' 14 7) (w.extractLsb' 7 7) (w.extractLsb' 0 7))]
  | 0xB7 => pick w [(0x1FC000#32, 0x000000#32, .inval (marksOf w) (w.extractLsb' 7 7) (w.extractLsb' 0 7))]
  | _ => .error .illegalOpcode

/-- Opcodes of the async copy group (R244). -/
def decodeAsync (op : Nat) (w : Word) : Except DecodeError Instr :=
  match op with
  | 0xC0 => pick w [(0x000040#32, 0x000000#32, .cp4 (marksOf w) (w.extractLsb' 14 7) (w.extractLsb' 7 7) (w.extractLsb' 0 6))]
  | 0xC1 => pick w [(0x000040#32, 0x000000#32, .cp8 (marksOf w) (w.extractLsb' 14 7) (w.extractLsb' 7 7) (w.extractLsb' 0 6))]
  | 0xC2 => pick w [(0x000040#32, 0x000000#32, .cp16 (marksOf w) (w.extractLsb' 14 7) (w.extractLsb' 7 7) (w.extractLsb' 0 6))]
  | 0xC3 => pick w [(0x1FFFFF#32, 0x000000#32, .cpSeal (marksOf w))]
  | 0xC4 => pick w [(0x1FFFF0#32, 0x000000#32, .cpWaitb (marksOf w) (w.extractLsb' 0 4))]
  | 0xC5 => pick w [(0x1FC000#32, 0x1FC000#32, .tagWanyImm (marksOf w) (w.extractLsb' 0 14)),
      (0x007FFF#32, 0x000000#32, .tagWanyReg (marksOf w) (w.extractLsb' 15 6))]
  | 0xC6 => pick w [(0x1FC000#32, 0x1FC000#32, .tagWallImm (marksOf w) (w.extractLsb' 0 14)),
      (0x007FFF#32, 0x000000#32, .tagWallReg (marksOf w) (w.extractLsb' 15 6))]
  | 0xC7 => pick w [(0x0000FF#32, 0x000000#32, .tagFfr (marksOf w) (w.extractLsb' 14 7) (w.extractLsb' 8 6))]
  | 0xC8 => pick w [(0x1FC000#32, 0x1FC000#32, .tagClrImm (marksOf w) (w.extractLsb' 0 14)),
      (0x007FFF#32, 0x000000#32, .tagClrReg (marksOf w) (w.extractLsb' 15 6))]
  | 0xC9 => pick w [(0x000000#32, 0x000000#32, .mcast (marksOf w) (w.extractLsb' 14 7) (w.extractLsb' 7 7) (w.extractLsb' 0 7))]
  | 0xCA => pick w [(0x000040#32, 0x000000#32, .pull (marksOf w) (w.extractLsb' 14 7) (w.extractLsb' 7 7) (w.extractLsb' 0 6))]
  | 0xCB => pick w [(0x000000#32, 0x000000#32, .gather (marksOf w) (w.extractLsb' 14 7) (w.extractLsb' 7 7) (w.extractLsb' 0 7))]
  | 0xCC => pick w [(0x1E007F#32, 0x000000#32, .decant (marksOf w) (w.extractLsb' 14 3) (w.extractLsb' 7 7))]
  | _ => .error .illegalOpcode

/-- Opcodes of the tile task group (R293). -/
def decodeTile (op : Nat) (w : Word) : Except DecodeError Instr :=
  match op with
  | 0xD0 => pick w [(0x000000#32, 0x000000#32, .ttEnq (marksOf w) (w.extractLsb' 14 7) (w.extractLsb' 7 7) (w.extractLsb' 0 7))]
  | 0xD1 => pick w [(0x1E0000#32, 0x000000#32, .ttWait (marksOf w) (w.extractLsb' 14 3) (w.extractLsb' 7 7) (w.extractLsb' 0 7))]
  | 0xD2 => pick w [(0x1FC000#32, 0x000000#32, .tidSet (marksOf w) (w.extractLsb' 7 7) (w.extractLsb' 0 7))]
  | 0xD3 => pick w [(0x1FFF80#32, 0x000000#32, .tidClr (marksOf w) (w.extractLsb' 0 7))]
  | 0xD4 => pick w [(0x1FC07F#32, 0x000000#32, .saccCfg (marksOf w) (w.extractLsb' 7 7))]
  | 0xD5 => pick w [(0x00007F#32, 0x000000#32, .saccRd (marksOf w) (w.extractLsb' 14 7) (w.extractLsb' 7 7))]
  | 0xD6 => pick w [(0x1E0000#32, 0x000000#32, .ttCancel (marksOf w) (w.extractLsb' 14 3) (w.extractLsb' 7 7) (w.extractLsb' 0 7))]
  | _ => .error .illegalOpcode

/-- The instruction of a word by its opcode, before the operand limits. OP 0x03 is the immx word, which
may stand neither in a dictionary nor behind another immx word, and OP 0xF0 to 0xFF cannot be the first
parcel of a word (R23, R52). -/
def decodeFields (w : Word) : Except DecodeError Instr :=
  let op := opOf w
  if op = 0x03 then .error .illegalEncoding
  else if op < 0x20 then decodeControl op w
  else if op < 0x50 then decodeInteger op w
  else if op < 0x70 then decodeFloat op w
  else if op < 0x80 then decodeAffine op w
  else if op < 0x90 then decodeCrossLane op w
  else if op < 0xA0 then decodeWorkgroup op w
  else if op < 0xC0 then decodeMemory op w
  else if op < 0xD0 then decodeAsync op w
  else if op < 0xE0 then decodeTile op w
  else if op < 0xF0 then .error .illegalOpcode
  else .error .illegalEncoding

/-- One 32-bit word that is no immx word (R52, steps 2 and 3 of R53). -/
def decodeWord (w : Word) : Except DecodeError Instr :=
  match decodeFields w with
  | .ok i => if i.wellFormed then .ok i else .error .illegalEncoding
  | .error e => .error e

/-- A dictionary code parcel (R21, R39). -/
def isDictCode (p : Parcel) : Bool := p.extractLsb' 12 4 == 0xF#4

/-- The first parcel of an immx word (R40). -/
def isImmx (p : Parcel) : Bool := p.extractLsb' 8 8 == 0x03#8

/-- One instruction from a stream of parcels, and the parcels behind it. An immx word is decoded with
the word that follows it as it stands; what that word may be is checked when the pair executes (R24,
R42). -/
def decodeParcels : List Parcel → Except DecodeError (Instr × List Parcel)
  | [] => .error .truncated
  | p :: rest =>
    if isDictCode p then
      .ok (.dict (p.getLsbD 11) (p.getLsbD 10) (p.extractLsb' 0 10), rest)
    else match rest with
      | [] => .error .truncated
      | q :: rest =>
        if isImmx p then
          match rest with
          | a :: b :: rest => .ok (.immx (p.extractLsb' 0 8 ++ q) (a ++ b), rest)
          | _ => .error .truncated
        else match decodeWord (p ++ q) with
          | .ok i => .ok (i, rest)
          | .error e => .error e

/-- Parcels lie little-endian in memory (R20); an odd last byte is no parcel. -/
def parcelsOf : List Byte → List Parcel
  | lo :: hi :: rest => (hi ++ lo) :: parcelsOf rest
  | _ => []

/-- One instruction from the bytes at an instruction's address (R20). -/
def decode (bs : List Byte) : Except DecodeError (Instr × List Parcel) :=
  decodeParcels (parcelsOf bs)

/-- The bytes of a parcel, low byte first (R20). -/
def bytesOfParcel (p : Parcel) : List Byte := [p.extractLsb' 0 8, p.extractLsb' 8 8]

/-- The bytes of parcels in order. -/
def bytesOfParcels (ps : List Parcel) : List Byte := ps.flatMap bytesOfParcel

/-! ## The encoder -/

/-- The word of an instruction that is one word (R50). -/
def encodeWord : Instr → Option Word
  | .nop m => some (mkF3 0x00 m 0#7 0#7 0#7)
  | .mode m i => some (mkFI 0x01 m 0#7 i)
  | .moder m a => some (mkF3 0x02 m 0#7 a 0#7)
  | .bra m j => some (mkFB 0x04 m j)
  | .brau m j => some (mkFB 0x05 m j)
  | .join m j => some (mkFB 0x06 m j)
  | .call m j => some (mkFB 0x07 m j)
  | .ret m => some (mkF3 0x08 m 0#7 0#7 0#7)
  | .jmpr m a => some (mkF3 0x09 m 0#7 (a ++ 0#1) 0#7)
  | .trap m i => some (mkFI 0x0A m 0#7 i)
  | .eret m => some (mkF3 0x0B m 0#7 0#7 0#7)
  | .exit0 m => some (mkFI 0x0C m 0#7 0#14)
  | .exit1 m => some (mkFI 0x0C m 0#7 1#14)
  | .exit2 m => some (mkFI 0x0C m 0#7 2#14)
  | .bkpt m i => some (mkFI 0x0D m 0#7 i)
  | .mark m i => some (mkFI 0x0E m 0#7 i)
  | .sysRd m d i => some (mkFI 0x0F m d (0#2 ++ i))
  | .sysWr m d i => some (mkFI 0x10 m d (0#2 ++ i))
  | .perfRd m d i => some (mkFI 0x11 m (d ++ 0#1) (0#2 ++ i))
  | .trig m e => some (mkFI 0x12 m 0#7 (0#10 ++ e))
  | .pwrReq m d p => some (mkFI 0x13 m d (0#11 ++ p))
  | .faultResume m d => some (mkFI 0x14 m d 1#14)
  | .faultRetire m d => some (mkFI 0x14 m d 2#14)
  | .fqSet m d => some (mkFI 0x14 m d 16#14)
  | .s1Root m d => some (mkFI 0x14 m d 17#14)
  | .vdSelect m d => some (mkFI 0x14 m d 18#14)
  | .s1Page m d => some (mkFI 0x14 m d 19#14)
  | .decantSet m d => some (mkFI 0x14 m d 32#14)
  | .decantClr m d => some (mkFI 0x14 m d 33#14)
  | .urgent m d => some (mkFI 0x14 m d 34#14)
  | .supDrain m d => some (mkFI 0x14 m d 35#14)
  | .terraceGet m d => some (mkFI 0x14 m d 128#14)
  | .terraceSet m d => some (mkFI 0x14 m d 129#14)
  | .terraceCommit m d => some (mkFI 0x14 m d 130#14)
  | .terraceQuiesce m d => some (mkFI 0x14 m d 131#14)
  | .terraceOff m d => some (mkFI 0x14 m d 132#14)
  | .keyLoad m d => some (mkFI 0x14 m d 133#14)
  | .terraceScrub m d => some (mkFI 0x14 m d 134#14)
  | .s2Inv m d => some (mkFI 0x14 m d 135#14)
  | .s2Page m d => some (mkFI 0x14 m d 136#14)
  | .headlandRevoke m d => some (mkFI 0x14 m d 137#14)
  | .terraceSave m d => some (mkFI 0x14 m d 138#14)
  | .terraceRestore m d => some (mkFI 0x14 m d 139#14)
  | .stewardSet m d => some (mkFI 0x14 m d 140#14)
  | .mfqSet m d => some (mkFI 0x14 m d 141#14)
  | .tlbInvTerrace m => some (mkFI 0x15 m 0#7 0#14)
  | .tlbInvVdev m => some (mkFI 0x15 m 0#7 1#14)
  | .iadd m d a b => some (mkF3 0x20 m d a b)
  | .isub m d a b => some (mkF3 0x21 m d a b)
  | .imul m d a b => some (mkF3 0x22 m d a b)
  | .imulh m d a b => some (mkF3 0x23 m d a b)
  | .imad m d a b => some (mkF3 0x24 m d a b)
  | .idiv m d a b => some (mkF3 0x25 m d a b)
  | .irem m d a b => some (mkF3 0x26 m d a b)
  | .imin m d a b => some (mkF3 0x27 m d a b)
  | .imax m d a b => some (mkF3 0x28 m d a b)
  | .iabs m d a => some (mkF3 0x29 m d a 0#7)
  | .ineg m d a => some (mkF3 0x2A m d a 0#7)
  | .and m d a b => some (mkF3 0x2B m d a b)
  | .or m d a b => some (mkF3 0x2C m d a b)
  | .xor m d a b => some (mkF3 0x2D m d a b)
  | .not m d a => some (mkF3 0x2E m d a 0#7)
  | .shl m d a b => some (mkF3 0x2F m d a b)
  | .shr m d a b => some (mkF3 0x30 m d a b)
  | .sar m d a b => some (mkF3 0x31 m d a b)
  | .rot m d a b => some (mkF3 0x32 m d a b)
  | .popc m d a => some (mkF3 0x33 m d a 0#7)
  | .clz m d a => some (mkF3 0x34 m d a 0#7)
  | .brev m d a => some (mkF3 0x35 m d a 0#7)
  | .bfx m d a b => some (mkF3 0x36 m d a b)
  | .bfi m d a b => some (mkF3 0x37 m d a b)
  | .sel m d a b => some (mkF3 0x38 m d a b)
  | .isetp m c p a b => some (mkF3 0x39 m (c ++ p) a b)
  | .iaddi m d i => some (mkFI 0x3A m d i)
  | .andi m d i => some (mkFI 0x3B m d i)
  | .movi m d i => some (mkFI 0x3C m d i)
  | .mov m d a => some (mkF3 0x3D m d a 0#7)
  | .cvt m d a => some (mkF3 0x3E m d a 0#7)
  | .pand m d a b => some (mkF3 0x3F m (0#4 ++ d) (0#4 ++ a) (0#4 ++ b))
  | .por m d a b => some (mkF3 0x40 m (0#4 ++ d) (0#4 ++ a) (0#4 ++ b))
  | .pnot m d a => some (mkF3 0x41 m (0#4 ++ d) (0#4 ++ a) 0#7)
  | .fadd m d a b => some (mkF3 0x50 m d a b)
  | .fsub m d a b => some (mkF3 0x51 m d a b)
  | .fmul m d a b => some (mkF3 0x52 m d a b)
  | .ffma m d a b => some (mkF3 0x53 m d a b)
  | .ffms m d a b => some (mkF3 0x54 m d a b)
  | .fnma m d a b => some (mkF3 0x55 m d a b)
  | .fmin m d a b => some (mkF3 0x56 m d a b)
  | .fmax m d a b => some (mkF3 0x57 m d a b)
  | .fabs m d a => some (mkF3 0x58 m d a 0#7)
  | .fneg m d a => some (mkF3 0x59 m d a 0#7)
  | .fsetp m c p a b => some (mkF3 0x5A m (c ++ p) a b)
  | .frcp m d a => some (mkF3 0x5B m d a 0#7)
  | .frsq m d a => some (mkF3 0x5C m d a 0#7)
  | .fsqrt m d a => some (mkF3 0x5D m d a 0#7)
  | .fexp2 m d a => some (mkF3 0x5E m d a 0#7)
  | .flog2 m d a => some (mkF3 0x5F m d a 0#7)
  | .fdot2 m d a b => some (mkF3 0x60 m d a b)
  | .fscale m d a b => some (mkF3 0x61 m d a b)
  | .fclass m d a => some (mkF3 0x62 m d a 0#7)
  | .frnd m d a => some (mkF3 0x63 m d a 0#7)
  | .aset m d a b => some (mkF3 0x70 m (0#3 ++ d) (a ++ 0#1) b)
  | .aadd m d a b => some (mkF3 0x71 m (0#3 ++ d) (0#3 ++ a) b)
  | .astr m d a b => some (mkF3 0x72 m (0#3 ++ d) (0#3 ++ a) b)
  | .amul m d a b => some (mkF3 0x73 m (0#3 ++ d) (0#3 ++ a) b)
  | .aexp m d a b => some (mkF3 0x74 m (0#3 ++ d) (0#3 ++ a) b)
  | .aget m d a => some (mkF3 0x75 m (d ++ 0#1) (0#3 ++ a) 0#7)
  | .addr m d a b => some (mkF3 0x76 m (d ++ 0#1) a b)
  | .shfl m d a b => some (mkF3 0x80 m d a b)
  | .shflx m d a b => some (mkF3 0x81 m d a b)
  | .bcast m d a b => some (mkF3 0x82 m d a b)
  | .voteAny m d a => some (mkF3 0x83 m (0#4 ++ d) (0#4 ++ a) 0#7)
  | .voteAll m d a => some (mkF3 0x84 m (0#4 ++ d) (0#4 ++ a) 0#7)
  | .voteBal m d a => some (mkF3 0x85 m d (0#4 ++ a) 0#7)
  | .redc m d a => some (mkF3 0x86 m d a 0#7)
  | .scan m d a => some (mkF3 0x87 m d a 0#7)
  | .barArr m c n => some (mkFI 0x90 m 0#7 (0#7 ++ c ++ n))
  | .barWait m c n => some (mkFI 0x91 m 0#7 (0#7 ++ c ++ n))
  | .barPhase m => some (mkFI 0x92 m 0#7 0#14)
  | .grow m k => some (mkFI 0x93 m 0#7 (0#10 ++ k))
  | .growTry m d k => some (mkFI 0x94 m (0#4 ++ d) (0#10 ++ k))
  | .shrink m k => some (mkFI 0x95 m 0#7 (0#10 ++ k))
  | .graft m g => some (mkFI 0x96 m 0#7 (0#1 ++ g))
  | .spawn m a => some (mkF3 0x97 m 0#7 (a ++ 0#1) 0#7)
  | .parcelWait m a => some (mkF3 0x98 m 0#7 (a ++ 0#1) 0#7)
  | .ld m d a b => some (mkF3 0xA0 m d a b)
  | .st m d a b => some (mkF3 0xA1 m d a b)
  | .ldBlk m d a b => some (mkF3 0xA2 m d a b)
  | .stBlk m d a b => some (mkF3 0xA3 m d a b)
  | .ldAcq m d a b => some (mkF3 0xA4 m d a b)
  | .stRel m d a b => some (mkF3 0xA5 m d a b)
  | .stSig m d a b => some (mkF3 0xA6 m d a b)
  | .fenceAcquire m y c => some (mkFI 0xA7 m 0#7 (0#8 ++ y ++ 0#2 ++ c))
  | .fenceRelease m y c => some (mkFI 0xA7 m 0#7 (0#8 ++ y ++ 1#2 ++ c))
  | .fenceFull m y c => some (mkFI 0xA7 m 0#7 (0#8 ++ y ++ 2#2 ++ c))
  | .atomAdd m d a b => some (mkF3 0xA8 m d a b)
  | .atomMin m d a b => some (mkF3 0xA9 m d a b)
  | .atomMax m d a b => some (mkF3 0xAA m d a b)
  | .atomAnd m d a b => some (mkF3 0xAB m d a b)
  | .atomOr m d a b => some (mkF3 0xAC m d a b)
  | .atomXor m d a b => some (mkF3 0xAD m d a b)
  | .atomXchg m d a b => some (mkF3 0xAE m d a b)
  | .atomCas m d a b => some (mkF3 0xAF m d a (b ++ 0#1))
  | .red m d a b => some (mkF3 0xB0 m d a b)
  | .waitAddr m d a b => some (mkF3 0xB1 m (0#4 ++ d) a b)
  | .ringPut m d a => some (mkF3 0xB2 m d a 127#7)
  | .ringAcq m d a b => some (mkF3 0xB3 m d a (0#4 ++ b))
  | .ringRel m d a => some (mkF3 0xB4 m d a 0#7)
  | .bankRole m d a b => some (mkF3 0xB5 m (0#4 ++ d) a b)
  | .ldNc m d a b => some (mkF3 0xB6 m d a b)
  | .inval m a b => some (mkF3 0xB7 m 0#7 a b)
  | .cp4 m d a b => some (mkF3 0xC0 m d a (0#1 ++ b))
  | .cp8 m d a b => some (mkF3 0xC1 m d a (0#1 ++ b))
  | .cp16 m d a b => some (mkF3 0xC2 m d a (0#1 ++ b))
  | .cpSeal m => some (mkF3 0xC3 m 0#7 0#7 0#7)
  | .cpWaitb m n => some (mkFI 0xC4 m 0#7 (0#10 ++ n))
  | .tagWanyImm m i => some (mkFI 0xC5 m 127#7 i)
  | .tagWanyReg m d => some (mkFI 0xC5 m (d ++ 0#1) 0#14)
  | .tagWallImm m i => some (mkFI 0xC6 m 127#7 i)
  | .tagWallReg m d => some (mkFI 0xC6 m (d ++ 0#1) 0#14)
  | .tagFfr m d a => some (mkF3 0xC7 m d (a ++ 0#1) 0#7)
  | .tagClrImm m i => some (mkFI 0xC8 m 127#7 i)
  | .tagClrReg m d => some (mkFI 0xC8 m (d ++ 0#1) 0#14)
  | .mcast m d a b => some (mkF3 0xC9 m d a b)
  | .pull m d a b => some (mkF3 0xCA m d a (0#1 ++ b))
  | .gather m d a b => some (mkF3 0xCB m d a b)
  | .decant m d a => some (mkF3 0xCC m (0#4 ++ d) a 0#7)
  | .ttEnq m d a b => some (mkF3 0xD0 m d a b)
  | .ttWait m d a b => some (mkF3 0xD1 m (0#4 ++ d) a b)
  | .tidSet m a b => some (mkF3 0xD2 m 0#7 a b)
  | .tidClr m b => some (mkF3 0xD3 m 0#7 0#7 b)
  | .saccCfg m a => some (mkF3 0xD4 m 0#7 a 0#7)
  | .saccRd m d a => some (mkF3 0xD5 m d a 0#7)
  | .ttCancel m d a b => some (mkF3 0xD6 m (0#4 ++ d) a b)
  | _ => none

/-- The parcels of an instruction; a device event has none. -/
def encode : Instr → Option (List Parcel)
  | .immx x w => some [0x03#8 ++ x.extractLsb' 16 8, x.extractLsb' 0 16,
      w.extractLsb' 16 16, w.extractLsb' 0 16]
  | .dict s t i => some [0xF#4 ++ BitVec.ofBool s ++ BitVec.ofBool t ++ i]
  | i => (encodeWord i).map fun w => [w.extractLsb' 16 16, w.extractLsb' 0 16]

/-! ## Words of the opcode table -/

/-- The parcels of a table row's bits: a 16-bit row is one parcel, a 32-bit row a word whose first
parcel is bits [31:16] (R37); zeros follow. -/
def tableParcels (nbits w : Nat) : List Parcel :=
  if nbits ≤ 16 then [BitVec.ofNat 16 w, 0#16, 0#16, 0#16]
  else [BitVec.ofNat 16 (w / 65536), BitVec.ofNat 16 w, 0#16, 0#16]

/-- The instruction the decoder reads from a table row's bits, laid out as the part stores them. A row
of no bits (a device event) has no encoding. -/
def decodeTableWord (nbits w : Nat) : Option Instr :=
  if nbits = 0 then none
  else match decode (bytesOfParcels (tableParcels nbits w)) with
    | .ok (i, _) => some i
    | .error _ => none

end Sys2Proof
end

