-- ==== Sys2Proof/Config.lean ====
section
/-! DEFINITION. What the spec leaves to the part: free values (no body, so no proof can see them) and
the choices of one implementation. Each is named in the assumption log. -/

namespace Sys2Proof.Config

/-- R66: FRCP, FRSQ, FEXP2 and FLOG2 return one of the two representable values that bracket the exact
result; which of the two is free. The arguments are the opcode, the element type code and the operand's
bits; true stands for the upper value. -/
opaque approxUpper : Nat → Nat → Nat → Bool

/-- R413: what a byte of memory reads as after a reset, until it is written: the decryption of what the reset has
left. The arguments are the number of the reset, the byte's physical address, and the data key and tweak key that its
address has. -/
opaque veiledByte : Nat → Nat → BitVec 128 → BitVec 128 → Byte

/-- R210: the data key and the tweak key of management memory, which no rule gives. -/
opaque managementKey : BitVec 128
@[inherit_doc managementKey]
opaque managementTweak : BitVec 128

/-- R204: the fixed hashes of a line that choose its L2 slice (modulo 32) and its slice among the eight of its cellar's
base die (modulo 8). The argument is the line's number. -/
opaque l2Slice : Nat → Nat
@[inherit_doc l2Slice]
opaque cellarSlice : Nat → Nat

/-- Which line of an overfull L2 or cellar slice is given up (R204 fixes no replacement rule): an index, taken modulo
the lines of the slice. The arguments are the slice, how many lines it holds, and the number of free values drawn
before. -/
opaque l2Victim : Nat → Nat → Nat → Nat
@[inherit_doc l2Victim]
opaque cellarVictim : Nat → Nat → Nat → Nat

/-- R392: whether a line takes the second of the two ports that face another package. -/
opaque secondPort : Nat → Bool

/-- What a read of a management register returns that the spec does not assign (R394). The arguments are
the physical address and the number of free values drawn before. -/
opaque unassignedByte : Nat → Nat → Byte

/-- Which line of a full L1 set is given up (R204 fixes no replacement rule): an index, taken modulo the
lines of the set. The argument is the number of free values drawn before. -/
opaque l1Victim : Nat → Nat

/-- SYS.STEP: the stepping of the part (R18). -/
opaque stepping : Word

/-- R378, R387: whether the package's rolling power exceeds 1400 W when the power controller decides a
request; no register of the spec holds that power. The argument is the number of free values drawn
before. -/
opaque packageOver : Nat → Bool

/-- R343: how many mJ a cluster draws while time passes; no rule computes them from other state. The arguments are the
cluster and the number of free values drawn before. -/
opaque energyDrawn : Nat → Nat → Nat

/-- R345, R415: the SM2 signature (r, then s) of the device identity key (R414), which no program reads. The
arguments are 0 for a usage checkpoint and 1 for an attestation report, the digest signed as a number of its
bytes, first byte lowest, and the number of free values drawn before. -/
opaque signature : Nat → Nat → Nat → Nat × Nat

/-- R415: the fingerprint of the identity public key, as a number of its bytes, first byte lowest. -/
opaque identityPrint : Nat

/-- R415: the package's serial number. -/
opaque serialNumber : Nat

/-- R413: the fingerprint of the root key that is fused in the package, as a number of its bytes. -/
opaque rootPrint : Nat

/-- R413, R114: whether an SM2 signature verifies under the root key: its digest, r and s. -/
opaque verifies : Nat → Nat → Nat → Bool

/-- R130: how many µs of the reference timer pass before a step. The argument is the number of free values drawn
before. -/
opaque elapsed : Nat → Nat

/-- R130: how many cycles of its cluster have passed, without an issue in it, before a cane reads SYS.CYCLE. The
argument is the number of free values drawn before. -/
opaque idleCycles : Nat → Nat

/-- R247: which value an engine reads of an element that unfenced stores of its cane have written, for the n-th free choice:
0 the one it holds, k > 0 the one before the k-th latest of them. -/
opaque staleStore : Nat → Nat

/-- R393: whether the replay of a flit that failed its CRC fails too, for the n-th free choice. -/
opaque replayFails : Nat → Bool

end Sys2Proof.Config
end

