-- ==== Sys2Proof/Machine/Numbers.lean ====
section
/-! DEFINITION. Element types, integer results, saturation and the stochastic generator
(R11, R54 to R56, R63, R67, R68). -/

namespace Sys2Proof.Machine

/-- R11: the element types that MODE.ET and MODE.CT name. -/
inductive ElemType where
  | i32 | n32 | i16 | n16 | i8 | n8 | i64 | n64 | fp32 | fp16 | bf16 | e4m3 | e5m2 | nq4
  deriving DecidableEq, Repr

/-- R11: the code of a type; 14 and 15 are reserved. -/
def ElemType.ofCode : Nat → Option ElemType
  | 0 => some .i32 | 1 => some .n32 | 2 => some .i16 | 3 => some .n16
  | 4 => some .i8 | 5 => some .n8 | 6 => some .i64 | 7 => some .n64
  | 8 => some .fp32 | 9 => some .fp16 | 10 => some .bf16 | 11 => some .e4m3
  | 12 => some .e5m2 | 13 => some .nq4 | _ => none

/-- R54, R57, R68: the width of an element in bits. -/
def ElemType.width : ElemType → Nat
  | .i32 | .n32 | .fp32 => 32
  | .i16 | .n16 | .fp16 | .bf16 => 16
  | .i8 | .n8 | .e4m3 | .e5m2 => 8
  | .i64 | .n64 => 64
  | .nq4 => 4

/-- I types are signed (R54). -/
def ElemType.signed : ElemType → Bool
  | .i32 | .i16 | .i8 | .i64 => true
  | _ => false

/-- Codes 0 to 7. -/
def ElemType.isInt : ElemType → Bool
  | .i32 | .n32 | .i16 | .n16 | .i8 | .n8 | .i64 | .n64 => true
  | _ => false

/-- Codes 8 to 12. -/
def ElemType.isFloat : ElemType → Bool
  | .fp32 | .fp16 | .bf16 | .e4m3 | .e5m2 => true
  | _ => false

/-- I64 and N64 lie in even/odd pairs (R7, R54). -/
def ElemType.is64 : ElemType → Bool
  | .i64 | .n64 => true
  | _ => false

/-- Elements in one 32-bit lane; a 64-bit element fills a pair (R54). -/
def ElemType.count (t : ElemType) : Nat := if t.is64 then 1 else 32 / t.width

/-- The bits of a lane value: 32, or 64 for a pair. -/
def ElemType.laneBits (t : ElemType) : Nat := if t.is64 then 64 else 32

/-- Element j of a lane value (R54). -/
def elemBits (t : ElemType) (v : Nat) (j : Nat) : Nat := (v >>> (t.width * j)) % 2 ^ t.width

/-- The elements of a lane value, element 0 first. -/
def elemsOf (t : ElemType) (v : Nat) : List Nat := (List.range t.count).map (elemBits t v)

/-- The lane value of elements of width w, element 0 lowest (R54). -/
def packElems (w : Nat) : List Nat → Nat
  | [] => 0
  | x :: xs => x % 2 ^ w + 2 ^ w * packElems w xs

/-- The integer an element's bits stand for: signed for I types, unsigned otherwise (R54). -/
def intOf (t : ElemType) (x : Nat) : Int :=
  if t.signed && decide (2 ^ (t.width - 1) ≤ x) then (x : Int) - 2 ^ t.width else x

/-- The bits of an integer modulo 2^w. -/
def bitsOfInt (w : Nat) (x : Int) : Nat := (x % 2 ^ w).toNat

/-- The least value of an integer type. -/
def ElemType.minInt (t : ElemType) : Int := if t.signed then -(2 ^ (t.width - 1) : Int) else 0
/-- The greatest value of an integer type. -/
def ElemType.maxInt (t : ElemType) : Int :=
  if t.signed then 2 ^ (t.width - 1) - 1 else 2 ^ t.width - 1

/-! ## FLAGS bits (R14) -/

/-- IEEE invalid operation. -/
abbrev flagNV : Word := 0x01#32
/-- Division by zero. -/
abbrev flagDZ : Word := 0x02#32
/-- IEEE overflow. -/
abbrev flagOF : Word := 0x04#32
/-- IEEE underflow. -/
abbrev flagUF : Word := 0x08#32
/-- IEEE inexact. -/
abbrev flagNX : Word := 0x10#32
/-- An integer result was clamped under MODE.SAT. -/
abbrev flagIS : Word := 0x20#32

/-- One element's result with the flags it raises. -/
structure ElemRes where
  bits : Nat
  flags : Word
  deriving DecidableEq, Repr

/-- R36: x clamped to the range of integer type t, with IS when it changes x. -/
def saturateInt (t : ElemType) (x : Int) : ElemRes :=
  if x < t.minInt then ⟨bitsOfInt t.width t.minInt, flagIS⟩
  else if t.maxInt < x then ⟨bitsOfInt t.width t.maxInt, flagIS⟩
  else ⟨bitsOfInt t.width x, 0⟩

/-- R55: the exact integer result delivered to type t. -/
def deliverInt (sat : Bool) (t : ElemType) (x : Int) : ElemRes :=
  if sat then saturateInt t x else ⟨bitsOfInt t.width x, 0⟩

/-- R56: the quotient truncated toward zero. -/
def divElem (sat : Bool) (t : ElemType) (a b : Nat) : ElemRes :=
  let x := intOf t a
  let y := intOf t b
  if y = 0 then ⟨0, flagDZ⟩
  else if t.signed && decide (x = t.minInt ∧ y = -1) then
    if sat then ⟨bitsOfInt t.width t.maxInt, flagIS⟩ else ⟨bitsOfInt t.width t.minInt, 0⟩
  else ⟨bitsOfInt t.width (x.tdiv y), 0⟩

/-- R56: the remainder, with the sign of the dividend. Its table gives IS under SAT for the minimum over −1, to IREM as to
IDIV. -/
def remElem (sat : Bool) (t : ElemType) (a b : Nat) : ElemRes :=
  let x := intOf t a
  let y := intOf t b
  if y = 0 then ⟨a, flagDZ⟩
  else ⟨bitsOfInt t.width (x.tmod y), if sat && t.signed && decide (x = t.minInt ∧ y = -1) then flagIS else 0⟩

/-! ## The stochastic-rounding generator (R63) -/

/-- One step of the Galois LFSR. -/
def lfsrStep (s : Word) : Word :=
  if s.getLsbD 0 then (s >>> 1) ^^^ 0x80200003#32 else s >>> 1

/-- g of element j: the low 24 bits of s rotated left by 8·j. -/
def srBits (s : Word) (j : Nat) : Nat := (s.rotateLeft (8 * j % 32)).toNat % 2 ^ 24

/-! ## NQ4 (R67) -/

/-- value·64 of each NQ4 code. -/
def nq4Value : Nat → Int
  | 0 => -64 | 1 => -47 | 2 => -36 | 3 => -27 | 4 => -19 | 5 => -12 | 6 => -6 | 7 => 0
  | 8 => 5 | 9 => 11 | 10 => 17 | 11 => 24 | 12 => 31 | 13 => 40 | 14 => 50 | _ => 64

end Sys2Proof.Machine
end

