-- ==== Sys2Proof/Machine/Floats.lean ====
section
/-! DEFINITION. Floating-point formats, rounding and the exact results of the floating-point rules
(R57 to R66, R72, R74, R176 to R181). A value is an exact dyadic; every result is formed exactly and
rounded once. -/

namespace Sys2Proof.Machine

/-! ## Formats (R57) -/

/-- The layout of a format: exponent bits, fraction bits, bias, and whether the all-ones exponent is
reserved for infinities and NaNs (E4M3 keeps it for finite values). -/
structure FFmt where
  ebits : Nat
  mbits : Nat
  bias : Nat
  hasInf : Bool
  deriving DecidableEq, Repr

/-- binary32. -/
abbrev fmt32 : FFmt := ⟨8, 23, 127, true⟩
/-- binary16. -/
abbrev fmt16 : FFmt := ⟨5, 10, 15, true⟩
/-- bfloat16. -/
abbrev fmtB16 : FFmt := ⟨8, 7, 127, true⟩
/-- OCP E4M3. -/
abbrev fmtE4M3 : FFmt := ⟨4, 3, 7, false⟩
/-- OCP E5M2. -/
abbrev fmtE5M2 : FFmt := ⟨5, 2, 15, true⟩

/-- The format of a floating-point element type. -/
def ElemType.fmt : ElemType → FFmt
  | .fp16 => fmt16 | .bf16 => fmtB16 | .e4m3 => fmtE4M3 | .e5m2 => fmtE5M2 | _ => fmt32

/-- The sign bit's weight. -/
def FFmt.signBit (f : FFmt) : Nat := 2 ^ (f.ebits + f.mbits)
/-- The magnitude bits of +∞ (of the first value past the largest finite one, in E4M3 the NaN). -/
def FFmt.infBits (f : FFmt) : Nat :=
  if f.hasInf then (2 ^ f.ebits - 1) * 2 ^ f.mbits else 2 ^ (f.ebits + f.mbits) - 1
/-- R57: the canonical NaN. -/
def FFmt.nanBits (f : FFmt) : Nat :=
  if f.hasInf then f.infBits + 2 ^ (f.mbits - 1) else f.infBits
/-- The magnitude bits of the largest finite value. -/
def FFmt.maxBits (f : FFmt) : Nat := f.infBits - 1
/-- The exponent of the smallest normal. -/
def FFmt.emin (f : FFmt) : Int := 1 - (f.bias : Int)
/-- The exponent of one unit in the last place of a subnormal. -/
def FFmt.qmin (f : FFmt) : Int := f.emin - f.mbits

/-- What an element's bits stand for: a NaN, an infinity, or (-1)^neg · m · 2^e. -/
inductive FVal where
  | nan (signalling : Bool)
  | inf (neg : Bool)
  | fin (neg : Bool) (m : Nat) (e : Int)
  deriving DecidableEq, Repr

/-- The value of an element's bits (R57, R58). -/
def decodeF (f : FFmt) (x : Nat) : FVal :=
  let neg := decide (f.signBit ≤ x % (2 * f.signBit))
  let mag := x % f.signBit
  let ex := mag / 2 ^ f.mbits
  let fr := mag % 2 ^ f.mbits
  if f.hasInf && decide (ex = 2 ^ f.ebits - 1) then
    if fr = 0 then .inf neg else .nan (decide (fr < 2 ^ (f.mbits - 1)))
  else if !f.hasInf && decide (mag = f.infBits) then .nan false
  else if ex = 0 then .fin neg fr f.qmin
  else .fin neg (2 ^ f.mbits + fr) (f.qmin + (ex - 1 : Int))

/-- A nonzero value whose exponent field is 0. -/
def isSubnormal (f : FFmt) (x : Nat) : Bool :=
  let mag := x % f.signBit
  decide (mag ≠ 0 ∧ mag < 2 ^ f.mbits)

/-- R36, R60: a zero of the same sign for a subnormal under FTZ. -/
def flushIn (ftz : Bool) (f : FFmt) (x : Nat) : Nat :=
  if ftz && isSubnormal f x then x / f.signBit % 2 * f.signBit else x

/-! ## Rounding (R62, R63) -/

/-- R12: the rounding modes. -/
inductive RMode where
  | rne | rtz | rdn | rup | rna | sr
  deriving DecidableEq, Repr

/-- The mode of a code; 6 and 7 are reserved. -/
def RMode.ofCode : Nat → Option RMode
  | 0 => some .rne | 1 => some .rtz | 2 => some .rdn | 3 => some .rup | 4 => some .rna
  | 5 => some .sr | _ => none

/-- The exact real (-1)^neg · (m + δ) · 2^e, where δ = 0, or 0 < δ < 1 when sticky. -/
structure Exact where
  neg : Bool
  m : Nat
  e : Int
  sticky : Bool
  deriving DecidableEq, Repr

/-- |x| in units of 2^q: the integer part, and the discarded part as a numerator under 2^sh. -/
def splitAt (x : Exact) (q : Int) : Nat × Nat × Nat :=
  if q ≤ x.e then (x.m * 2 ^ (x.e - q).toNat, 0, 0)
  else let sh := (q - x.e).toNat; (x.m / 2 ^ sh, x.m % 2 ^ sh, sh)

/-- Whether the truncated magnitude t takes one more unit (R62, R63); g is the generator's value. -/
def roundsUp (rm : RMode) (g : Nat) (neg : Bool) (t rem sh : Nat) (sticky : Bool) : Bool :=
  let inexact := decide (rem ≠ 0) || sticky
  match rm with
  | .rne => decide (2 ^ sh < 2 * rem) || (decide (2 * rem = 2 ^ sh) && decide (rem ≠ 0)
      && (sticky || decide (t % 2 = 1)))
  | .rtz => false
  | .rdn => neg && inexact
  | .rup => !neg && inexact
  | .rna => decide (rem ≠ 0) && decide (2 ^ sh ≤ 2 * rem)
  | .sr => decide (2 ^ 24 ≤ rem * 2 ^ 24 / 2 ^ sh + g)

/-- x rounded to an integer number of units 2^q, and whether it changed. -/
def roundUnits (rm : RMode) (g : Nat) (x : Exact) (q : Int) : Nat × Bool :=
  let (t, rem, sh) := splitAt x q
  (if roundsUp rm g x.neg t rem sh x.sticky then t + 1 else t, decide (rem ≠ 0) || x.sticky)

/-- Bits in the binary numeral of m. -/
def bitLen (m : Nat) : Nat := if m = 0 then 0 else Nat.log2 m + 1

/-- The magnitude bits of t units of 2^q, for q ≥ qmin. -/
def encodeMag (f : FFmt) (t : Nat) (q : Int) : Nat := (q - f.qmin).toNat * 2 ^ f.mbits + t

/-- The sign bit of a result. -/
def signOf (f : FFmt) (neg : Bool) : Nat := if neg then f.signBit else 0

/-- The result on overflow (R62); in E4M3 and E5M2 a narrowing overflow follows R65 (R177). -/
def overflowBits (f : FFmt) (rm : RMode) (sat : Bool) (neg : Bool) : Nat :=
  if !f.hasInf then (if sat then signOf f neg + f.maxBits else f.nanBits)
  else if sat && decide (f.ebits + f.mbits = 7) then signOf f neg + f.maxBits
  else match rm with
    | .rne | .rna | .sr => signOf f neg + f.infBits
    | .rtz => signOf f neg + f.maxBits
    | .rdn => if neg then signOf f neg + f.infBits else f.maxBits
    | .rup => if neg then signOf f neg + f.maxBits else f.infBits

/-- R36, R61, R62: the exact real rounded to a format, with OF, UF and NX; under FTZ a subnormal
result becomes a zero with UF and NX (R60). Tininess is judged after rounding. -/
def roundF (f : FFmt) (rm : RMode) (sat ftz : Bool) (g : Nat) (x : Exact) : ElemRes :=
  if x.m = 0 && !x.sticky then ⟨signOf f x.neg, 0⟩
  else
    let qn : Int := x.e + bitLen x.m - 1 - f.mbits
    let q := max qn f.qmin
    let (t, inexact) := roundUnits rm g x q
    let mag := encodeMag f t q
    let (tn, _) := roundUnits rm g x qn
    let tiny := decide (qn < f.qmin) && decide (tn < 2 ^ (f.mbits + (f.qmin - qn).toNat))
    if f.infBits ≤ mag then ⟨overflowBits f rm sat x.neg, flagOF ||| flagNX⟩
    else if ftz && isSubnormal f mag then ⟨signOf f x.neg, flagUF ||| flagNX⟩
    else ⟨signOf f x.neg + mag,
      (if inexact then flagNX else 0) ||| (if inexact && tiny then flagUF else 0)⟩

/-! ## Exact results (R176) -/

/-- An operation's exact result before rounding. -/
inductive FReal where
  /-- A canonical NaN; invalid says that NV is set. -/
  | nan (invalid : Bool)
  | inf (neg : Bool)
  | real (x : Exact)
  deriving DecidableEq, Repr

/-- A sum of exact dyadics; an exact zero takes the sign that IEEE 754 gives (R175). -/
def addExact (rm : RMode) (x y : Exact) : Exact :=
  let e := min x.e y.e
  let a : Int := (if x.neg then -1 else 1) * (x.m * 2 ^ (x.e - e).toNat : Nat)
  let b : Int := (if y.neg then -1 else 1) * (y.m * 2 ^ (y.e - e).toNat : Nat)
  let s := a + b
  if s = 0 then
    ⟨if x.m = 0 && y.m = 0 && x.neg == y.neg then x.neg else decide (rm = .rdn), 0, e, false⟩
  else ⟨decide (s < 0), s.natAbs, e, false⟩

/-- A negated real. -/
def FReal.negate : FReal → FReal
  | .nan i => .nan i
  | .inf n => .inf (!n)
  | .real x => .real { x with neg := !x.neg }

/-- An operand as a real; a signalling NaN is invalid (R58). -/
def FVal.toReal : FVal → FReal
  | .nan s => .nan s
  | .inf n => .inf n
  | .fin n m e => .real ⟨n, m, e, false⟩

/-- a + b (R176). -/
def addReal (rm : RMode) : FReal → FReal → FReal
  | .nan i, .nan j => .nan (i || j)
  | .nan i, _ => .nan i
  | _, .nan j => .nan j
  | .inf a, .inf b => if a = b then .inf a else .nan true
  | .inf a, _ => .inf a
  | _, .inf b => .inf b
  | .real x, .real y => .real (addExact rm x y)

/-- a × b (R176); 0 × ∞ is invalid. -/
def mulReal : FReal → FReal → FReal
  | .nan i, .nan j => .nan (i || j)
  | .nan i, _ => .nan i
  | _, .nan j => .nan j
  | .inf a, .inf b => .inf (a != b)
  | .inf a, .real y => if y.m = 0 then .nan true else .inf (a != y.neg)
  | .real x, .inf b => if x.m = 0 then .nan true else .inf (x.neg != b)
  | .real x, .real y => .real ⟨x.neg != y.neg, x.m * y.m, x.e + y.e, false⟩

/-- The element an exact result is delivered as: canonical NaN with NV when invalid (R58), an infinity,
or the rounded value flushed under FTZ (R175). -/
def deliverF (f : FFmt) (rm : RMode) (sat ftz : Bool) (g : Nat) : FReal → ElemRes
  | .nan invalid => ⟨f.nanBits, if invalid then flagNV else 0⟩
  | .inf neg => ⟨signOf f neg + f.infBits, 0⟩
  | .real x => roundF f rm sat ftz g x

/-- Integer square root by binary digits, from digit n down. -/
def isqrtFrom (x : Nat) : Nat → Nat → Nat
  | 0, r => r
  | n + 1, r => let r' := r + 2 ^ n; isqrtFrom x n (if r' * r' ≤ x then r' else r)

/-- The greatest r with r·r ≤ x. -/
def isqrt (x : Nat) : Nat := isqrtFrom x (bitLen x / 2 + 1) 0

/-- √a (R176): the root of a scaled even power with its sticky bit. -/
def sqrtReal : FReal → FReal
  | .nan i => .nan i
  | .inf neg => if neg then .nan true else .inf false
  | .real x =>
    if x.m = 0 then .real x
    else if x.neg then .nan true
    else
      let odd := decide (x.e % 2 = 1)
      let m := (if odd then 2 * x.m else x.m) * 4 ^ 64
      let e := (if odd then x.e - 1 else x.e) / 2 - 64
      let r := isqrt m
      .real ⟨false, r, e, decide (r * r ≠ m)⟩

/-! ## The approximate functions (R66) -/

/-- A bracketed result: the upper or the lower of the two representable values around x, with the
out-of-range rows of R66. -/
def bracketF (f : FFmt) (ftz upper : Bool) (x : Exact) : ElemRes :=
  let r := roundF f (if upper then .rup else .rdn) false ftz 0 x
  if r.flags &&& flagOF ≠ 0 then ⟨signOf f x.neg + f.infBits, flagOF ||| flagNX⟩ else r

/-- 1/m·2^(-e) of a nonzero finite value. -/
def recipExact (neg : Bool) (m : Nat) (e : Int) : Exact :=
  let n := 2 ^ (bitLen m + 64)
  ⟨neg, n / m, -e - (bitLen m + 64 : Nat), decide (n % m ≠ 0)⟩

/-- 1/√(m·2^e) of a positive value. -/
def recipSqrtExact (m : Nat) (e : Int) : Exact :=
  let odd := decide (e % 2 = 1)
  let m := if odd then 2 * m else m
  let e := if odd then e - 1 else e
  let k := bitLen m + 64
  let r := isqrt (4 ^ k / m)
  ⟨false, r, -(e / 2) - k, decide (r * r * m ≠ 4 ^ k)⟩

/-- ln 2 in units of 2^-256, from below: Σ 1/(k·2^k). -/
def ln2Units : Nat := (List.range 300).foldl (fun s k => s + 2 ^ 256 / ((k + 1) * 2 ^ (k + 1))) 0

/-- e^y for y in units of 2^-256 with 0 ≤ y < 1, from below: Σ y^n/n!. -/
def expUnits (y : Nat) : Nat :=
  ((List.range 80).foldl (fun (st : Nat × Nat) n =>
    let term := st.2 * y / 2 ^ 256 / (n + 1)
    (st.1 + term, term)) (2 ^ 256, 2 ^ 256)).1

/-- 2^(±m·2^e): exact for an integer, otherwise truncated with its sticky bit. Magnitudes past every
format's range are held at 2^±1024, which rounds alike. -/
def exp2Exact (neg : Bool) (m : Nat) (e : Int) : Exact :=
  if 2 ^ 10 ≤ m * 2 ^ e.toNat / 2 ^ (-e).toNat then ⟨false, 1, if neg then -1024 else 1024, false⟩
  else
    -- ±m·2^e as units of 2^-256, split at the integer below
    let v : Int := (if neg then -1 else 1) * (m * 2 ^ (e + 256).toNat / 2 ^ (-(e + 256)).toNat : Nat)
    let k := v / 2 ^ 256
    let fr := (v % 2 ^ 256).toNat
    if fr = 0 then ⟨false, 1, k, false⟩
    else ⟨false, expUnits (fr * ln2Units / 2 ^ 256), k - 256, true⟩

/-- The binary digits of log2 of y, 1 ≤ y < 2 in units of 2^-420, by repeated squaring: n digits. -/
def log2Digits : Nat → Nat → Nat → Nat
  | 0, _, acc => acc
  | n + 1, y, acc =>
    let y2 := y * y / 2 ^ 420
    if 2 ^ 421 ≤ y2 then log2Digits n (y2 / 2) (2 * acc + 1) else log2Digits n y2 (2 * acc)

/-- log2 of a positive m·2^e: exact for a power of two, otherwise in units of 2^-160 with its sticky
bit, truncated toward zero. -/
def log2Exact (m : Nat) (e : Int) : Exact :=
  let l := bitLen m - 1
  let k : Int := e + l
  if m = 2 ^ l then ⟨decide (k < 0), k.natAbs, 0, false⟩
  else
    let n : Int := k * 2 ^ 160 + log2Digits 160 (m * 2 ^ 420 / 2 ^ l) 0
    if n < 0 then ⟨true, n.natAbs - 2, -160, true⟩ else ⟨false, n.natAbs, -160, true⟩

/-- FRCP (R66). -/
def rcpF (f : FFmt) (ftz upper : Bool) : FVal → ElemRes
  | .nan s => ⟨f.nanBits, if s then flagNV else 0⟩
  | .inf n => ⟨signOf f n, 0⟩
  | .fin n m e =>
    if m = 0 then ⟨signOf f n + f.infBits, flagDZ⟩ else bracketF f ftz upper (recipExact n m e)

/-- FRSQ (R66). -/
def rsqF (f : FFmt) (ftz upper : Bool) : FVal → ElemRes
  | .nan s => ⟨f.nanBits, if s then flagNV else 0⟩
  | .inf n => if n then ⟨f.nanBits, flagNV⟩ else ⟨0, 0⟩
  | .fin n m e =>
    if m = 0 then ⟨signOf f n + f.infBits, flagDZ⟩
    else if n then ⟨f.nanBits, flagNV⟩
    else bracketF f ftz upper (recipSqrtExact m e)

/-- FEXP2 (R66). -/
def exp2F (f : FFmt) (ftz upper : Bool) : FVal → ElemRes
  | .nan s => ⟨f.nanBits, if s then flagNV else 0⟩
  | .inf n => if n then ⟨0, 0⟩ else ⟨f.infBits, 0⟩
  | .fin n m e => bracketF f ftz upper (exp2Exact n m e)

/-- FLOG2 (R66). -/
def log2F (f : FFmt) (ftz upper : Bool) : FVal → ElemRes
  | .nan s => ⟨f.nanBits, if s then flagNV else 0⟩
  | .inf n => if n then ⟨f.nanBits, flagNV⟩ else ⟨f.infBits, 0⟩
  | .fin n m e =>
    if m = 0 then ⟨f.signBit + f.infBits, flagDZ⟩
    else if n then ⟨f.nanBits, flagNV⟩
    else bracketF f ftz upper (log2Exact m e)

/-! ## Minimum, maximum, class, comparison, integral rounding -/

/-- A value's place on the number line for R59's order, in which −0 lies below +0. -/
def ltNum (f : FFmt) (a b : Nat) : Bool :=
  let key (x : Nat) : Int :=
    let mag : Int := (x % f.signBit : Nat)
    if f.signBit ≤ x % (2 * f.signBit) then -mag - 1 else mag
  decide (key a < key b)

/-- R59: minimumNumber (or maximumNumber when max). -/
def minMaxF (f : FFmt) (isMax : Bool) (a b : Nat) : ElemRes :=
  let nv (s : Bool) : Word := if s then flagNV else 0
  match decodeF f a, decodeF f b with
  | .nan s, .nan s' => ⟨f.nanBits, nv (s || s')⟩
  | .nan s, _ => ⟨b, nv s⟩
  | _, .nan s => ⟨a, nv s⟩
  | _, _ => ⟨if ltNum f a b != isMax then a else b, 0⟩

/-- R180: the class code of an element. -/
def classF (f : FFmt) (x : Nat) : Nat :=
  match decodeF f x with
  | .nan s => if s then 8 else 9
  | .inf n => if n then 0 else 7
  | .fin n m _ =>
    if m = 0 then (if n then 3 else 4)
    else if isSubnormal f x then (if n then 2 else 5) else if n then 1 else 6

/-- The order of two numbers: less, equal, greater. -/
def compareF : FVal → FVal → Option Ordering
  | .nan _, _ => none
  | _, .nan _ => none
  | .inf a, .inf b => some (compare b a)
  | .inf a, _ => some (if a then .lt else .gt)
  | _, .inf b => some (if b then .gt else .lt)
  | .fin n m e, .fin n' m' e' =>
    let s := addExact .rne ⟨n, m, e, false⟩ ⟨!n', m', e', false⟩
    some (if s.m = 0 then .eq else if s.neg then .lt else .gt)

/-- R47: the FSETP condition on one element pair. -/
def fcond (c : Nat) (a b : FVal) : Bool :=
  match compareF a b with
  | none => decide (11 ≤ c)
  | some o =>
    match c with
    | 0 | 12 => o == .eq
    | 1 | 13 => o != .eq
    | 2 | 14 => o == .lt
    | 3 | 15 => o != .gt
    | 4 => o == .gt
    | 5 => o != .lt
    | 10 => true
    | _ => false

/-- A signalling NaN. -/
def FVal.isSignalling : FVal → Bool
  | .nan s => s
  | _ => false

/-- R181: FRND of an element already flushed. -/
def rndF (f : FFmt) (rm : RMode) (g : Nat) (x : Nat) : ElemRes :=
  match decodeF f x with
  | .nan s => ⟨f.nanBits, if s then flagNV else 0⟩
  | .inf _ => ⟨x, 0⟩
  | .fin n m e =>
    if m = 0 then ⟨x, 0⟩
    else
      let (t, inexact) := roundUnits rm g ⟨n, m, e, false⟩ 0
      ⟨(roundF f .rtz false false 0 ⟨n, t, 0, false⟩).bits, if inexact then flagNX else 0⟩

/-! ## Conversions (R64, R65) -/

/-- R64: float to integer. -/
def toIntF (rm : RMode) (sat : Bool) (g : Nat) (t : ElemType) : FReal → ElemRes
  | .nan _ => ⟨0, flagNV⟩
  | .inf neg =>
    if sat then ⟨bitsOfInt t.width (if neg then t.minInt else t.maxInt), flagNV ||| flagIS⟩
    else ⟨0, flagNV⟩
  | .real x =>
    let (u, inexact) := roundUnits rm g x 0
    let v : Int := if x.neg then -(u : Int) else u
    if v < t.minInt ∨ t.maxInt < v then
      if sat then ⟨(saturateInt t v).bits, flagNV ||| flagIS⟩ else ⟨bitsOfInt t.width v, flagNV⟩
    else ⟨bitsOfInt t.width v, if inexact then flagNX else 0⟩

/-- R65: an infinite input of a conversion into a format. -/
def convInf (f : FFmt) (sat : Bool) (neg : Bool) : ElemRes :=
  if !f.hasInf then (if sat then ⟨signOf f neg + f.maxBits, 0⟩ else ⟨f.nanBits, flagNV⟩)
  else if sat && decide (f.ebits + f.mbits = 7) then ⟨signOf f neg + f.maxBits, 0⟩
  else ⟨signOf f neg + f.infBits, 0⟩

/-- R144: a real converted to a floating-point format. -/
def toFloatF (f : FFmt) (rm : RMode) (sat ftz : Bool) (g : Nat) : FReal → ElemRes
  | .inf neg => convInf f sat neg
  | r => deliverF f rm sat ftz g r

end Sys2Proof.Machine
end

