-- ==== Sys2Proof/Machine/State.lean ====
section
/-! DEFINITION. The state of the GV-90 package as plain data: its canes, cores, clusters, dies,
terraces, parcels and workgroups, memory, and the device's own pending work. INVENTORY.md names the
rule of every field. -/

namespace Sys2Proof.Machine

/-! ## Tables

A table of numbered things is a list read with a default: entry n is the default until it is written. -/

/-- Entry n of a table whose unwritten entries are d. -/
def getI {α : Type} (d : α) : List α → Nat → α
  | [], _ => d
  | x :: _, 0 => x
  | _ :: xs, n + 1 => getI d xs n

/-- The table with entry n replaced. -/
def setI {α : Type} (d : α) : List α → Nat → α → List α
  | [], 0, v => [v]
  | [], n + 1, v => d :: setI d [] n v
  | _ :: xs, 0, v => v :: xs
  | x :: xs, n + 1, v => x :: setI d xs n v

/-! ## One cane (R6) -/

/-- R8: an affine register. -/
structure Affine where
  base : Dword
  stride : Word
  deriving DecidableEq, Repr

/-- R118: the kinds of reconvergence-stack entry. -/
inductive EntryKind where
  | join | pending
  deriving DecidableEq, Repr

/-- R118: one reconvergence-stack entry. -/
structure StackEntry where
  kind : EntryKind
  pc : Dword
  mask : Mask
  deriving DecidableEq, Repr

/-- R307: the causes of traps and faults. -/
inductive Cause where
  | illegalOpcode | illegalEncoding | illegalMode | blockRange | misaligned | windowStraddle
  | scrBounds | translation | protection | poisonedData | privilege | trapInstruction | breakpoint
  | divergeDepth | mcastTarget | tensorId | asyncFailure | exitOverrun | exitUntrusted | growVictim
  | replayDivergence | routeCheck | quota | watchpoint
  deriving DecidableEq, Repr

/-- R307: the code of a cause. -/
def Cause.code : Cause → Nat
  | .illegalOpcode => 0x01 | .illegalEncoding => 0x02 | .illegalMode => 0x03 | .blockRange => 0x04
  | .misaligned => 0x05 | .windowStraddle => 0x06 | .scrBounds => 0x07 | .translation => 0x08
  | .protection => 0x09 | .poisonedData => 0x0A | .privilege => 0x0B | .trapInstruction => 0x0C
  | .breakpoint => 0x0D | .divergeDepth => 0x0E | .mcastTarget => 0x0F | .tensorId => 0x10
  | .asyncFailure => 0x11 | .exitOverrun => 0x12 | .exitUntrusted => 0x13 | .growVictim => 0x14
  | .replayDivergence => 0x15 | .routeCheck => 0x16 | .quota => 0x17 | .watchpoint => 0x18

/-- A byte's place in the machine: a physical address, an offset in a workgroup's scratch (R200), or an
offset in a core's FIFO banks (R241). -/
inductive Place where
  | glob (pa : Nat)
  | scratch (wg off : Nat)
  | fifo (core off : Nat)
  /-- An offset in a decant buffer, whose backing is chosen when the access is performed (R260). -/
  | decant (terrace handle off : Nat)
  deriving DecidableEq, Repr

/-- R226, R233: the watched 8-byte word and its hit bit. -/
structure Watch where
  word : Option Place
  hit : Bool
  deriving DecidableEq, Repr

/-- R189: the place of a barrier: the scope code, the object it belongs to (workgroup, set or parcel),
and its number 0 to 15. -/
structure BarrierId where
  scope : Nat
  owner : Nat
  num : Nat
  deriving DecidableEq, Repr

/-- R189: a cane's pending arrival. -/
structure Arrival where
  bar : BarrierId
  gen : Nat
  deriving DecidableEq, Repr

/-! ## Parts of an access -/

/-- A part of an access. -/
inductive Seg where
  | glob (pa n : Nat)
  /-- Lost on a down link (R402). -/
  | lost (n : Nat)
  | mmio (pa n : Nat)
  | scr (wg off n : Nat)
  | reg (off n : Nat)
  deriving DecidableEq, Repr

/-- R235: what a ring header says. -/
structure RingHead where
  order : Nat
  width : Nat
  wide : Bool
  scope : Nat
  fifo : Bool
  closed : Bool
  base : Nat
  head : Nat
  tail : Nat
  deriving DecidableEq, Repr

/-- Where a ring's slot lies. -/
inductive SlotAt where
  | mem (va : Nat) (segs : List Seg)
  | fifo (off : Nat)
  deriving DecidableEq, Repr

/-- R237 to R240: a ring operation past its checks: the header as it was read, where that lies, the count of its slot,
and the slot. -/
structure RingClaim where
  head : RingHead
  hdr : Seg
  n : Nat
  slot : SlotAt
  deriving DecidableEq, Repr

/-- Why a cane does not issue (R28, R151, R189, R212, R233, R249, R253, R309, R325). A cane parked in a
wait stands at the instruction that waits, which issues again when the wait ends. -/
inductive Wait where
  /-- It may issue. -/
  | none
  /-- After a switch marker: until its outstanding results have returned (R28). -/
  | results
  /-- A release at a scope code (R212); loads and stores must be performed first. -/
  | release (scope : Nat)
  /-- A counter of R212 is full. -/
  | storeRoom
  /-- Its cluster's outbound FIFO is full (R377). -/
  | fifo
  /-- The home of a line has not yet applied what the die's clock shows (R217, R219). -/
  | press (line : Nat)
  /-- Code it waits for (R25). -/
  | fetch
  /-- A page walk (R324). -/
  | walk (page vdev : Nat)
  /-- A translation entry of a fault queue (R325), by its id. -/
  | service (entry : Nat)
  /-- A barrier's generation (R189). -/
  | barrier (b : BarrierId) (gen : Nat)
  /-- Arrived at BAR.PHASE (R192). -/
  | phase
  /-- Arrived at GRAFT (R194). -/
  | graft (g : Nat)
  /-- Stands unissued at BAR.PHASE, GRAFT or GROW under an exit-grade request (R174). -/
  | withheld
  /-- Parked in GROW (R166). -/
  | grow (k : Nat)
  /-- Parked in WAIT.ADDR on a word; the cluster cycle of its timeout, if any (R233). -/
  | waitAddr (word : Place) (deadline : Option Nat)
  /-- A ring slot or header (R237, R238): until a signalled write to the 64-byte block. -/
  | ring (slot header : Place)
  /-- TAG.WANY (any) or TAG.WALL over a tag mask (R249). -/
  | tags (any : Bool) (mask : Nat)
  /-- TAG.CLR until its tags' counts are 0 (R251). -/
  | tagClear (mask : Nat)
  /-- CP.WAITB until at most n batches are open (R253). -/
  | batch (n : Nat)
  /-- CP.SEAL with 15 batches open, or an engine queue that is full (R245, R252). -/
  | engineRoom
  /-- PARCEL.WAIT on a parcel record, by its physical address (R196). -/
  | parcel (pa : Nat)
  /-- SPAWN of a root until its routes are checked (R399). -/
  | route
  /-- DECANT until its flip is applied (R261). -/
  | decant (op : Nat)
  /-- TT.WAIT on a slot of a queue (R295). -/
  | task (slot : Place)
  /-- TT.CANCEL on a task that stops at its boundary (R296). -/
  | cancel (id : Nat)
  /-- SUP until its function completes (R134). -/
  | sup
  /-- TLB.INV until it retires (R135). -/
  | tlbInv
  /-- Fault-parked (R309). -/
  | fault
  /-- Debug-parked (R359). -/
  | debug
  /-- Its exit routine or its entry routine has ended, and the workgroup's has not (R318, R321). -/
  | routineDone
  /-- A gate of record and replay, by its kind and unit (R368, R369). -/
  | gate (kind : Nat) (place : Place)
  /-- A management core that runs the boot ROM until an image has passed (R413). -/
  | rom
  deriving DecidableEq, Repr

/-- R315, R321: whether a cane runs a routine. -/
inductive Routine where
  | none | exit | entry
  deriving DecidableEq, Repr

/-- R252: one sealed batch of a cane, with the operations it still waits for. -/
structure Batch where
  /-- How many batches the cane had sealed before it: the batch's number modulo 256. -/
  serial : Nat
  pending : Nat
  /-- One of its operations has failed. -/
  err : Bool
  deriving DecidableEq, Repr

/-- The state of a cane (R6), with its place and what the device keeps for it. -/
structure Cane where
  /-- The device's name of this placement. -/
  id : Nat
  /-- Resident: it has been placed and has not retired. -/
  live : Bool
  /-- SYS.CANE. -/
  idx : Nat
  /-- The workgroup it belongs to. -/
  wg : Nat
  /-- The core it is placed on: 4·(32·die + cluster) + core, die 0 to 3 of the package; 512 to 515 are
  the management cores. -/
  core : Nat
  /-- Its slot on the core (R150). -/
  slot : Nat
  /-- V registers: 128 rows of 32 lanes (R7). -/
  v : List (List Word)
  /-- Register rows whose data is poisoned, each as 4·register + pass (R207, R209). -/
  rowPoison : List Nat
  /-- Affine registers a0 to a15 (R8). -/
  a : List Affine
  /-- Predicates p0 to p7 (R9); entry 0 is never read. -/
  p : List Mask
  mode : Word
  flags : Word
  link : Dword
  pc : Dword
  /-- Reconvergence stack, top first (R118). -/
  stack : List StackEntry
  /-- The current reconvergence mask (R118). -/
  recon : Mask
  qmask : Mask
  lfsr : Word
  epc : Dword
  estat : Word
  emask : Mask
  earg : Word
  tvec : Dword
  /-- SYS.PRIV: 0 U, 1 S, 2 M (R34). -/
  priv : Nat
  gfm : Mask
  watch : Watch
  arrivals : List Arrival
  /-- Nonempty batches that the cane has sealed: the open batch's number modulo 256 (R252). -/
  sealCount : Nat
  /-- Operations in the open batch that have not completed (R252). -/
  openPending : Nat
  /-- The open batch has held an operation; one of them has failed. -/
  openUsed : Bool
  openErr : Bool
  /-- Sealed batches not finished; their count is the batch counter (R252). -/
  batches : List Batch
  /-- W of the CP.WAITB it waits in, and whether a batch of W has finished with an error (R253). -/
  waitSet : List Nat
  waitErr : Bool
  /-- What its plain stores to scratch since its last fence with the async bit have replaced, latest first: each 4-byte
  element, by offset, and the bytes it held before the store (R247). -/
  unfenced : List (Nat × List Byte)
  /-- R213: the causal past of what its loads have returned. -/
  seen : List Nat
  /-- The scope of a FENCE release whose condition later stores, atomics and releases wait for (R228). -/
  fenceScope : Option Nat
  /-- SYS.NREG: registers in the window (R166). -/
  nreg : Nat
  /-- Register stripe of the core, and the two extents in units of 8 registers: first unit, units
  (R147). -/
  stripe : Nat
  ext0 : Nat × Nat
  ext1 : Nat × Nat
  /-- Stores not yet acknowledged at wg, die and package scope (R212). -/
  wcnt : Nat
  dcnt : Nat
  hcnt : Nat
  /-- Outstanding results (R28), and how many of them are no memory results (PWR.REQ, R133, R352). -/
  outstanding : Nat
  outPower : Nat
  /-- Instructions issued since the last switch (R28). -/
  sinceSwitch : Nat
  /-- The pipe it owns, if any (R151). -/
  pipe : Option Nat
  /-- Cluster cycle of the later of its last issue and its last becoming ready (R150). -/
  readyAt : Nat
  /-- It was parked when the last step began; the next step that finds it ready dates its readiness. -/
  parked : Bool
  /-- It has reached effective priority 16 (R152). -/
  aged : Bool
  wait : Wait
  /-- The access whose translation it waits for: 0 read, 1 write, 2 execute (R310). -/
  need : Nat
  /-- The wait's result, when an event has ended it: WAIT.ADDR's r (R233), TT.WAIT's and TT.CANCEL's
  result. -/
  answer : Option Nat
  /-- Steps already taken of an instruction that works in several (BAR.WAIT's arrival, DECANT, ring
  claims, SUP): the instruction continues from here when it issues again. -/
  stage : Nat
  /-- A second datum of such an instruction: a claimed ring position, an operation. -/
  stageArg : Nat
  /-- The ring operation that it has begun (R237 to R240). -/
  claim : Option RingClaim
  /-- The argument block of the SUP function that it has started (R349). -/
  supArg : List Byte
  /-- The leaf in which the parks of the instruction it stands at count, whatever they wait for (R352, R353). -/
  parkLeaf : Option Nat
  /-- SACC.CFG as the TT.ENQ that it stands at found it when it issued (R299). -/
  saccSeen : Option Word
  /-- Request beats of the instruction it stands at that have entered the outbound FIFO (R377). -/
  entered : Nat
  /-- Pages whose translation was denied for the instruction it stands at (R325). -/
  denied : List Nat
  routine : Routine
  /-- It has executed EXIT #1 or EXIT #2 of its current routine. -/
  routineDone : Bool
  /-- It was vectored under the current exit request. -/
  vectored : Bool
  /-- The stop point at which it was vectored, and recon then (R330). -/
  vecPc : Dword
  vecRecon : Mask
  /-- STEP of the debugger: it parks again at the next stop point (R361). -/
  stepping : Bool
  /-- The instruction it stands at has passed its breakpoints, its own BKPT park, and its watchpoints: it has parked
  there, and goes on without doing so again (R357, R358, R361). -/
  passBreak : Bool
  passBkpt : Bool
  passWatch : Bool
  /-- HALT of a diverged replay: it debug-parks at its next instruction (R370). -/
  halting : Bool
  /-- The trace unit has taken note of the instruction it stands at (R364). -/
  noted : Bool
  /-- The store hash H of record and replay (R366). -/
  hash : Dword
  /-- Its last retired instruction, and whether that has T = 1 (R374). -/
  lastPc : Dword
  lastStop : Bool
  deriving DecidableEq, Repr

/-- A cane of no core, all zero. -/
def Cane.zero : Cane :=
  { id := 0, live := false, idx := 0, wg := 0, core := 0, slot := 0, v := [], rowPoison := [], a := [], p := [],
    mode := 0, flags := 0, link := 0, pc := 0, stack := [], recon := 0xFFFFFFFF#32, qmask := 0,
    lfsr := 0x9E370000#32, epc := 0, estat := 0, emask := 0, earg := 0, tvec := 0, priv := 0,
    gfm := 0, watch := ⟨none, false⟩, arrivals := [], sealCount := 0, openPending := 0,
    openUsed := false, openErr := false, batches := [], waitSet := [], waitErr := false, unfenced := [], seen := [], fenceScope := none, nreg := 8, stripe := 0, ext0 := (0, 1), ext1 := (0, 0), wcnt := 0, dcnt := 0,
    hcnt := 0, outstanding := 0, outPower := 0, sinceSwitch := 0, pipe := none, readyAt := 0, parked := false, aged := false,
    wait := .none, need := 0, answer := none, stage := 0, stageArg := 0, claim := none, supArg := [], parkLeaf := none, saccSeen := none, entered := 0, denied := [], routine := .none,
    routineDone := false, vectored := false, vecPc := 0,
    vecRecon := 0, stepping := false, passBreak := false, passBkpt := false, passWatch := false, halting := false, noted := false, hash := 0,
    lastPc := 0, lastStop := false }

/-! ## One core -/

/-- R22: a dictionary slot: the terrace and dictionary ordinal it holds, and its entries. -/
structure DictSlot where
  name : Option (Nat × Nat)
  entries : List Word
  deriving DecidableEq, Repr

/-- R197, R204: an L1 line: the bank that holds it, the line's physical address and its 128 bytes, its key id (R210),
and its poisoned granules, 0 to 3 (R207). -/
structure L1Line where
  bank : Nat
  line : Nat
  bytes : List Byte
  key : Nat
  poison : List Nat
  deriving DecidableEq, Repr

/-- R26: one 32-byte block of the instruction cache, by physical address, and whether it came poisoned (R207). -/
structure CodeBlock where
  addr : Nat
  bytes : List Byte
  bad : Bool
  deriving DecidableEq, Repr

/-- R324: a cached translation of one page, with the smaller of the two stages' pages and the effective
permissions (R323). -/
structure TlbEntry where
  terrace : Nat
  vdev : Nat
  va : Nat
  size : Nat
  pa : Nat
  r : Bool
  w : Bool
  x : Bool
  deriving DecidableEq, Repr

/-- R248: one tag of a core. -/
structure TagState where
  count : Nat
  used : Bool
  err : Bool
  deriving DecidableEq, Repr

/-- R287: an agreement entry. -/
structure Agreement where
  /-- The task that the entry belongs to. -/
  owner : Nat
  index : Nat
  count : Nat
  gated : Nat
  zero : Nat
  sat : Nat
  alpha : Nat
  valid : Bool
  deriving DecidableEq, Repr

/-- R299: an entry after reset. -/
def Agreement.clear : Agreement := ⟨0, 0, 0, 0, 0, 0, 0, false⟩

/-- A core: its store, caches and per-core engine state. -/
structure Core where
  /-- Roles of the 48 banks: 0 REG, 1 SCR, 2 L1, 3 FIFO (R197). -/
  roles : List Nat
  /-- The register stripes, each eight banks, fixed when the roles were set on an empty core (R147,
  R198). -/
  stripes : List (List Nat)
  dict0 : DictSlot
  dict1 : DictSlot
  icache : List CodeBlock
  l1 : List L1Line
  utlb : List TlbEntry
  /-- The 64 tags (R248). -/
  tags : List TagState
  /-- SACC.CFG (R299). -/
  sacc : Word
  /-- The 16 agreement entries (R287). -/
  agreement : List Agreement
  /-- Bytes of FIFO slots (R241). -/
  fifo : List Host.Cell
  /-- Poisoned 32-byte granules of the FIFO banks (R207). -/
  fifoPoison : List Nat
  /-- FIFO slots that are claimed or FULL: offset and length (R198). -/
  slots : List (Nat × Nat)
  /-- S of R149, fixed when the roles were set on an empty core (R198). -/
  scr : Nat
  /-- BANK.ROLE has changed a role since then: the core takes no workgroup until it is empty (R198). -/
  changed : Bool
  /-- The launch whose workgroup was placed last: another launch starts with an empty instruction cache
  (R26). -/
  launch : Option Nat
  /-- The core's counters by PERF selector: SLOTS 0x000, leaves 0x010 to 0x01D, events 0x020 to 0x024
  (R354). -/
  perf : List Nat
  deriving DecidableEq, Repr

/-- A core after reset. -/
def Core.zero : Core :=
  { roles := [], stripes := [], dict0 := ⟨none, []⟩, dict1 := ⟨none, []⟩, icache := [], l1 := [],
    utlb := [], tags := [], sacc := 0, agreement := [], fifo := [], fifoPoison := [], slots := [], scr := 0, changed := false, launch := none,
    perf := [] }

/-! ## Memory between dies (R216 to R220) -/

/-- A line in a die's L2 (R204): its bytes, and per byte the home's number of the write it holds, none
for the die's own unacknowledged store (R218). -/
structure L2Line where
  line : Nat
  bytes : List Byte
  seqs : List (Option Nat)
  /-- R217: what the home's writes to the line had as their clocks when the die took its copy. -/
  past : List Nat
  /-- Its key id (R210), and its poisoned granules, 0 to 3 (R207). -/
  key : Nat
  poison : List Nat
  deriving DecidableEq, Repr

/-- R204, R205: a line in its home's cellar slice: whether it is dirty, and its key id (R210). The home's bytes are
`State.mem`. -/
structure CellarLine where
  line : Nat
  dirty : Bool
  key : Nat
  deriving DecidableEq, Repr

/-- R208, R402: what the deferred records of a store say: the core, the cane, its workgroup's linear id and its slot,
the instruction's parcel address and whether it has T = 1, the record's flags, and the lane's entry: lane, access size and
kind, address, and stack word; and the granules that have their record of R208. -/
structure StoreOrigin where
  core : Nat
  cane : Nat
  linear : Nat
  slot : Nat
  pc : Nat
  stop : Bool
  flags : Nat
  lane : Nat
  size : Nat
  kind : Nat
  addr : Nat
  stack : Nat
  noted : List Nat
  deriving DecidableEq, Repr

/-- A write on its way (R217, R218). -/
structure Flight where
  id : Nat
  /-- The issuing die, 0 to 3, and the terrace it is made for. -/
  die : Nat
  terrace : Nat
  /-- The cane whose counters hold it, and the parcel it counts for. -/
  cane : Option Nat
  parcel : Option Nat
  addr : Nat
  bytes : List Byte
  signalled : Bool
  /-- The issuing die's clock, after the increment (R217). -/
  stamp : List Nat
  /-- Counted in WCNT (its line was absent from the core's L1, R212). -/
  inWcnt : Bool
  /-- The L2 has acknowledged it (R211). -/
  l2Acked : Bool
  /-- The home's number, once the home has applied it. -/
  seq : Option Nat
  /-- The owning slice's acknowledgement has arrived. -/
  acked : Bool
  /-- The granules whose data it carries poisoned (R207). -/
  bad : List Nat
  /-- The first write of the press update of which it is a part (R284): its own name but for an update that leaves out
  poisoned granules. -/
  whole : Nat
  /-- It has left its die, whose clock counts it (R217). -/
  leaves : Bool
  /-- Dies that have yet to apply it or its stamp beat. -/
  todo : List Nat
  /-- The store of a cane that made it (R402). -/
  origin : Option StoreOrigin
  deriving DecidableEq, Repr

/-- R220: a monitor entry: an 8-byte word and the canes that wait on it. -/
structure MonEntry where
  word : Place
  canes : List Nat
  deriving DecidableEq, Repr

/-- R324: a page walk in progress. -/
structure Walk where
  id : Nat
  die : Nat
  core : Nat
  terrace : Nat
  vdev : Nat
  page : Nat
  /-- 0 read, 1 write, 2 execute (R310). -/
  access : Nat
  deriving DecidableEq, Repr

/-! ## Linked images (R104 to R109) -/

/-- R107: a code region. -/
structure Region where
  id : Nat
  /-- The kernel's symbol index. -/
  kernel : Nat
  first : Nat
  last : Nat
  exitOff : Option Nat
  entryOff : Option Nat
  quarantine : Bool
  restart : Bool
  routine : Bool
  ranges : List (Nat × Nat)
  carry : BitVec 256
  deriving DecidableEq, Repr

/-- R107: a stop point. -/
structure Stop where
  ordinal : Nat
  region : Nat
  off : Nat
  /-- LIVE_GIVEN, and the live map (R101, R102), to which no rule of the device gives a use. -/
  given : Bool
  live : BitVec 256
  deriving DecidableEq, Repr

/-- R108: a task type. -/
structure TaskType where
  dict : Option Nat
  regs : Nat
  canes : Nat
  scratch : Nat
  priv : Nat
  graftable : Bool
  next : Option Nat
  roles : List Nat
  deriving DecidableEq, Repr

/-- R109: a graft record; the target is the kernel's entry in parcels. -/
structure Graft where
  entry : Nat
  taskType : Nat
  ranges : List (Nat × Nat)
  carry : BitVec 256
  tids : BitVec 256
  deriving DecidableEq, Repr

/-- A linked image as the device uses it: where `.text` stands, and the tables of R106 to R109. -/
structure LinkedImage where
  text : Nat
  regions : List Region
  stops : List Stop
  taskTypes : List TaskType
  grafts : List Graft
  dicts : List (List Word)
  deriving DecidableEq, Repr

/-- No image. -/
def LinkedImage.empty : LinkedImage := ⟨0, [], [], [], [], []⟩

/-! ## Workgroups and parcels -/

/-- R155: a parcel as the device holds it after SPAWN. -/
structure Parcel where
  /-- The device's name of this spawn. -/
  id : Nat
  /-- SYS.PARCEL: the address of its record, and that record's physical address. -/
  addr : Nat
  pa : Nat
  /-- 0 to 15, or 16 for the management complex (R431). -/
  terrace : Nat
  vdev : Nat
  /-- The die whose distributor holds it. -/
  die : Nat
  /-- The address of the root's record of its launch, and the device's name of that spawn (R158, R26). -/
  root : Nat
  launch : Nat
  /-- The name of its parent. -/
  parent : Option Nat
  kind : Nat
  priority : Nat
  propagate : Bool
  restartable : Bool
  setLog : Nat
  taskType : Nat
  entry : Nat
  counter : Nat
  area : Nat
  areaSize : Nat
  maxCores : Nat
  maxBanks : Nat
  maxScratch : Nat
  energy : Nat
  count : Nat
  nextWg : Nat
  phaseArea : Nat
  stride : Nat
  status : Nat
  queue : Nat
  /-- A child has been spawned beneath it (R157, R171). -/
  spawned : Bool
  /-- It or a record it received makes it complete with status 4 (R171, R308). -/
  faulted : Bool
  /-- The clock of the spawning cane's die at SPAWN, which every cane it places starts after (R195). -/
  stamp : List Nat
  /-- A drain-grade request holds its items (R160, R313). -/
  drained : Bool
  /-- A ROUTE.TAG of its launch's dies has changed since its SPAWN began the route check (R399). -/
  retagged : Bool
  deriving DecidableEq, Repr

/-- R330: what the record of an overrun says of a cane that has been vectored: its number and slot, and its stop point and
recon then. -/
structure Vectored where
  idx : Nat
  slot : Nat
  pc : Dword
  recon : Mask
  deriving DecidableEq, Repr

/-- R314, R319: an exit-grade or drain-grade request on a workgroup, and when its bound expires in µs
of the reference timer. -/
structure ExitReq where
  exitGrade : Bool
  deadline : Nat
  /-- The request makes a GROW victim (R167). -/
  victim : Bool
  /-- The victim is queued again (R167). -/
  requeue : Bool
  /-- The first cane that it has vectored (R315, R330). -/
  first : Option Vectored
  deriving DecidableEq, Repr

/-- R318: the exit record of a workgroup being filled: where it lies, its region, and the bytes of its
sections' carried words that the routines have written. -/
structure ExitRec where
  addr : Nat
  region : Nat
  canes : Nat
  carry : BitVec 256
  ranges : List (Nat × Nat)
  /-- Offsets of the whole aligned words written (R318). -/
  words : List Nat
  /-- A byte outside the carried words, or part of a word, was written, or an engine wrote (R318). -/
  spoiled : Bool
  deriving DecidableEq, Repr

/-- R433: what the device holds of one section for EXIT #2. -/
structure HeldSection where
  cane : Nat
  pc : Dword
  mode : Word
  preds : List Mask
  qmask : Mask
  recon : Mask
  stack : List StackEntry
  deriving DecidableEq, Repr

/-- A resident workgroup (R153). -/
structure Workgroup where
  id : Nat
  terrace : Nat
  vdev : Nat
  parcel : Option Nat
  /-- SYS.WGID. -/
  linear : Nat
  taskType : Nat
  core : Nat
  priority : Nat
  /-- Member slot in its cooperative set (R154), and the set's name. -/
  member : Option Nat
  setId : Nat
  setLog : Nat
  /-- SYS.NCANE. -/
  ncanes : Nat
  /-- Scratch: offset of the allocation in the core's SCR banks, bytes, and contents (unlisted bytes are
  0, R203). -/
  scrBase : Nat
  scrSize : Nat
  scratch : List Host.Cell
  /-- Poisoned 32-byte granules of scratch, by offset divided by 32 (R207). -/
  scrPoison : List Nat
  /-- Its kernel's entry, for a restart (R319). -/
  entry : Nat
  request : Option ExitReq
  exitRec : Option ExitRec
  held : List HeldSection
  /-- It is placed by a resume item and runs its entry routines (R321). -/
  resuming : Bool
  /-- Its phase end or its graft's fallback has passed the check of its record's pages: each page, and where it lies
  (R432). -/
  recordMap : Option (List (Nat × Nat))
  /-- A cane of it is debug-parked: the reference timer and its cluster's cycle when its bound and its timeouts paused
  (R359). -/
  pause : Option (Nat × Nat)
  deriving DecidableEq, Repr

/-- R160: what a distributor may place. -/
inductive ItemKind where
  /-- A workgroup or set of a leaf: the next linear ids are taken when it is placed. -/
  | leaf
  /-- A next phase or a graft's fallback successor, from its phase record (R162, R169). -/
  | phase (linear : Nat)
  /-- A restart from the kernel's entry (R319). -/
  | restart (linear : Nat)
  /-- A resume item (R321). -/
  | resume (linear : Nat)
  /-- A terrace's steward (R342). -/
  | steward (terrace : Nat)
  deriving DecidableEq, Repr

/-- The linear id that an item places again. -/
def ItemKind.linear : ItemKind → Option Nat
  | .phase n | .restart n | .resume n => some n
  | .leaf | .steward _ => none

/-- An item in a queue. -/
structure Item where
  parcel : Nat
  priority : Nat
  kind : ItemKind
  /-- The privilege level of what created it, above which its task type is refused (R34). -/
  level : Nat
  /-- The clock that the stores before it are covered by: its canes start with an acquire after it (R165,
  R321). -/
  stamp : List Nat
  deriving DecidableEq, Repr

/-- R189: a barrier that has begun: its current generation and the canes that have arrived. -/
structure Barrier where
  bar : BarrierId
  gen : Nat
  arrived : List Nat
  /-- R422: the causal past of the current generation's arrivals, and of those of completed ones. -/
  past : List Nat
  done : List Nat
  deriving DecidableEq, Repr

/-- R189, R190: an arrival whose release is not yet performed. -/
structure PendingArrival where
  id : Nat
  cane : Nat
  bar : BarrierId
  gen : Nat
  /-- The scope of its release condition: the barrier's, or that of an earlier FENCE release (R228). -/
  scope : Nat
  /-- The cane's results that were outstanding at it and have not returned (R212). -/
  loads : Nat
  /-- The cane's writes before it. -/
  stores : List Nat
  deriving DecidableEq, Repr

/-- R310, R325: a translation entry that waits for its answer: where it lies, whose queue it is in
(0 to 15, or 16 for management), and the access. -/
structure TransEntry where
  id : Nat
  queue : Nat
  index : Nat
  terrace : Nat
  vdev : Nat
  page : Nat
  access : Nat
  deriving DecidableEq, Repr

/-- R310: a fault queue as set by FQ.SET or MFQ.SET. -/
structure FaultQueue where
  base : Nat
  order : Nat
  vdev : Nat
  deriving DecidableEq, Repr

/-! ## Engine operations (R244 to R265) -/

/-- The kinds of engine operation. -/
inductive OpKind where
  | copy | mcast | pull | gather
  deriving DecidableEq, Repr

/-- An accepted lane operation of the copy or the gather engine. -/
structure AsyncOp where
  id : Nat
  /-- The first operation of its instruction: those of one instruction rise by lane. -/
  group : Nat
  kind : OpKind
  /-- The issuing cane's placement, none once a graft has replaced it (R170); SYS.CANE, its workgroup and its linear
  id. -/
  cane : Option Nat
  idx : Nat
  wg : Nat
  linear : Nat
  core : Nat
  terrace : Nat
  vdev : Nat
  parcel : Option Nat
  lane : Nat
  tag : Nat
  /-- The batch of its cane that it belongs to, by its serial (R252). -/
  batch : Nat
  /-- Source elements of 4 bytes, or the index words of a gather. -/
  src : List Place
  /-- Destination elements: 4 bytes each, or E bytes for a gather. -/
  dst : List Place
  /-- Elements of its source that its cane's unfenced stores have written, with what each store replaced (R247). -/
  stale : List (Nat × List Byte)
  /-- Where the pages of a gather's rows lie, as its issue translated them (R257). -/
  pages : List (Nat × Place)
  srcVa : Nat
  dstVa : Nat
  /-- Access size of its failure record: 4, 8, 16, or E. -/
  size : Nat
  strict : Bool
  /-- The data of a gather: tensor base, outer stride and row count (R257). -/
  base : Nat
  stride : Nat
  rows : Nat
  /-- Workgroups a multicast has yet to be delivered to (R254). -/
  targets : List Nat
  /-- What a multicast has read, and whether it was poisoned. -/
  data : List Byte
  bad : Bool
  /-- Elements performed, in ascending order. -/
  done : Nat
  /-- Access kind and address of its failure, if it has failed (R263, R264). -/
  failed : Option (Nat × Nat)
  /-- The instruction's place (R303). -/
  code : Nat × Nat × Nat × Bool
  deriving DecidableEq, Repr

/-- R259: a decant table entry. -/
structure DecantEntry where
  base : Nat
  size : Nat
  back0 : Nat
  back1 : Nat
  valid : Bool
  /-- The live backing at the home. -/
  live : Bool
  flips : Nat
  /-- The live backing as each compute die has last applied it (R262). -/
  seen : List Bool
  /-- The die of the entry's home, fixed while the entry is valid. -/
  home : Nat
  deriving DecidableEq, Repr

/-- An entry that holds no buffer. -/
def DecantEntry.zero : DecantEntry := ⟨0, 0, 0, 0, false, false, 0, [], 0⟩

/-- R261: a flip that a DECANT has asked for. -/
structure DecantOp where
  id : Nat
  terrace : Nat
  handle : Nat
  die : Nat
  cane : Nat
  /-- Engine operations and lines on their way to the press that were accepted before it, which it waits
  for. -/
  ops : List Nat
  lines : List Nat
  /-- The release before it is done. -/
  asked : Bool
  flipped : Bool
  /-- The count of flips that it makes. -/
  seq : Nat
  /-- The live backing it makes, its clock (R217), and the dies that have yet to apply it. -/
  live : Bool
  stamp : List Nat
  todo : List Nat
  deriving DecidableEq, Repr

/-! ## The matrix and collective engines (R266 to R300) -/

/-- R270, R272: an entry of a die's tensor-id table. -/
structure TensorEntry where
  terrace : Nat
  tid : Nat
  image : List Byte
  owner : Nat
  /-- The TID.SET that wrote it. -/
  serial : Nat
  deriving DecidableEq, Repr

/-- R75: an accumulator element: FP32 bits of P and N with their counts; without the split accumulator
`p` holds the element and the rest is 0. -/
structure Accum where
  p : Nat
  n : Nat
  cp : Nat
  cn : Nat
  deriving DecidableEq, Repr

/-- R268: one 64-element block of one column in the macros: the weights, the exponent EB of a BF16
block, q, the FP32 bits of G, and whether the block holds an infinity or a NaN. -/
structure WBlock where
  w : List Int
  eb : Int
  q : Nat
  g : Word
  bad : Bool
  deriving DecidableEq, Repr

/-- R278: the B a matrix engine's macros hold: what identifies it, and per column its blocks. -/
structure Loaded where
  key : List Nat
  cols : List (List WBlock)
  deriving DecidableEq, Repr

/-- R71: one aligned block of A. -/
structure ABlock where
  m : List Int
  e : Int
  bad : Bool
  deriving DecidableEq, Repr

/-- The exact sums of one block for one column: of the positive and of the negative products (as a
magnitude), and how many of each are not zero. -/
structure BlockSum where
  pos : Int
  neg : Int
  cp : Nat
  cn : Nat
  bad : Bool
  deriving DecidableEq, Repr

/-- R274: the states of a tile task. -/
inductive TaskStatus where
  | queued | running | done | error | cancelled
  deriving DecidableEq, Repr

/-- R279: the step a running task stands before. -/
inductive TaskStep where
  | loadB (unit : Nat)
  | fetch | align | serial | reduce | scale | drain
  /-- A collective that has been issued waits for its key (R288). -/
  | key
  /-- The lines of its drain are on their way to the press. -/
  | press
  /-- Its work is done, or it has failed or stopped: it retires or returns to its queue. -/
  | ended
  /-- Its status is written; done and the completion counter follow (R289). -/
  | finish | count
  deriving DecidableEq, Repr

/-- A tile task. -/
structure Task where
  id : Nat
  terrace : Nat
  vdev : Nat
  /-- The die whose scheduler serves it. -/
  die : Nat
  /-- Queue header and slot, as physical addresses; the queue's scope. -/
  queue : Nat
  slot : Nat
  scope : Nat
  /-- The owning parcel, and the address of its record. -/
  parcel : Option Nat
  owner : Nat
  index : Nat
  /-- The core whose cane enqueued it (R287), and that cane's workgroup. -/
  core : Nat
  /-- The 128 bytes of its record as written at enqueue (R294). -/
  record : List Byte
  status : TaskStatus
  progress : Nat
  /-- The captured entries of A, B, C and E (R278). -/
  entries : List (List Byte)
  cluster : Nat
  step : TaskStep
  /-- What identifies the B that it was issued with (R278). -/
  bKey : List Nat
  aRow : List Nat
  /-- The next row of A, fetched while the present row is still under way, and where the read failed (R279). -/
  ahead : Option (List Nat × Option Nat)
  aBlocks : List ABlock
  sums : List (List BlockSum)
  partials : List Accum
  /-- A failure belongs to every row, or to the present row (R291). -/
  loadFailed : Bool
  rowFailed : Bool
  /-- Any failure has been recorded. -/
  failed : Bool
  /-- It stops at its next boundary; and it has been cancelled (R280, R292). -/
  stopping : Bool
  cancelled : Bool
  /-- It ends with an error whatever its rows: a tensor check or a dependence counter failed, or its
  collective key did (R277, R281, R288). -/
  doomed : Bool
  /-- R385: the cycles of pauses of its SERIAL and LOAD_B steps by heat, its CONTROL.THROTTLE. -/
  throttled : Nat
  /-- Its collective has started (R288). -/
  started : Bool
  /-- Pages of its dependence counters whose translation was denied (R277). -/
  denied : List Nat
  /-- Agreement so far: elements emitted, gated, zero, saturated, and the least alpha in FP16, rounded
  down (R287). -/
  agreement : Agreement
  deriving DecidableEq, Repr

/-- R282, R283: what one line of a task's drain carries to the press: the partial of some elements of a row
from a column on, or the bytes of a collective. -/
structure Partial where
  id : Nat
  task : Nat
  /-- The tenant virtual address of the first byte. -/
  va : Nat
  row : Nat
  col : Nat
  /-- Partials to add; or (none of them) bytes to write: of an emission or a collective. -/
  elems : List Accum
  raw : List Byte
  /-- Further bytes of the same line, each run with its address: parts of other rows of a collective (R288). -/
  more : List (Nat × List Byte)
  deriving DecidableEq, Repr

/-- R276, R283: an ORDERED group whose members have not all retired: its queue, what identifies it, the
split indices issued and retired, and the (line, split index) pairs applied. -/
structure OrderedGroup where
  queue : Nat
  name : List Nat
  issued : List Nat
  left : List Nat
  applied : List (Nat × Nat)
  deriving DecidableEq, Repr

/-- R288: a collective key in use: how many of its members have retired, and whether it has failed. -/
structure CollKey where
  terrace : Nat
  key : Nat
  /-- A member has failed; a member has been cancelled. -/
  failed : Bool
  cancelled : Bool
  retired : Nat
  deriving DecidableEq, Repr

/-- R135: a TLB.INV that waits for the walks that began before it. -/
structure TlbInv where
  cane : Nat
  walks : List Nat
  deriving DecidableEq, Repr

/-! ## Clusters, dies and terraces -/

/-- R335: a memory region: PA base, size, and the interleave register (FIRST [4:0], COUNT [7:5], STRIDE
[11:8]). -/
structure MemRegion where
  base : Nat
  size : Nat
  interleave : Word
  deriving DecidableEq, Repr

/-- R340: the states of a terrace. -/
inductive TerraceState where
  | off | running | quiescing | quiesced
  deriving DecidableEq, Repr

/-- R333: a partition entry; the key id is the terrace number. -/
structure PartEntry where
  state : TerraceState
  vdevs : Nat
  lend : Bool
  exitBound : Nat
  weight : Nat
  quantum : Nat
  period : Nat
  guaranteed : BitVec 128
  headland : BitVec 128
  lendMask : BitVec 16
  logOrder : Nat
  logArea : Nat
  quotaCore : Nat
  quotaBytes : Nat
  quotaEnergy : Nat
  s2root : Nat
  nbdie : BitVec 64
  nbport : BitVec 16
  regions : List MemRegion
  deriving DecidableEq, Repr

/-- R333: every entry after reset. -/
def PartEntry.zero : PartEntry :=
  { state := .off, vdevs := 0, lend := false, exitBound := 20, weight := 0, quantum := 0, period := 0,
    guaranteed := 0, headland := 0, lendMask := 0, logOrder := 0, logArea := 0, quotaCore := 0,
    quotaBytes := 0, quotaEnergy := 0, s2root := 0, nbdie := 0, nbport := 0, regions := [] }

/-- R342: what STEWARD.SET fixes. -/
structure StewardValues where
  entry : Nat
  taskType : Nat
  rootBase : Nat
  rootL : Nat
  deriving DecidableEq, Repr

/-- R323: a stage-1 root: its table's base IPA and L. -/
structure Root where
  base : Nat
  l : Nat
  deriving DecidableEq, Repr

/-- R343, R345: a terrace's usage counters and log state. -/
structure Usage where
  sequence : Nat
  start : Nat
  /-- The length of the present period, µs: that of the entry when the period began (R350). -/
  period : Nat
  coreUs : Nat
  bytes : Nat
  energy : Nat
  launches : Nat
  preemptions : Nat
  faults : Nat
  /-- A quota has been reached in this period, and nothing more is placed in it for that (R343, R351). -/
  quotaHit : Bool
  quotaHold : Bool
  /-- SM3 digest of the previous record. -/
  previous : Nat
  deriving DecidableEq, Repr

/-- Usage at the start of a log. -/
def Usage.zero : Usage := ⟨0, 0, 0, 0, 0, 0, 0, 0, 0, false, false, 0⟩

/-- R355: a breakpoint entry. -/
structure Breakpoint where
  region : Nat
  ordinal : Nat
  filter : Nat
  deriving DecidableEq, Repr

/-- R358: a watchpoint entry. -/
structure Watchpoint where
  start : Nat
  len : Nat
  kind : Nat
  vmask : Nat
  deriving DecidableEq, Repr

/-- R362: a trace trigger: start and stop condition words, region id, ordinal. -/
structure Trigger where
  start : Word
  stop : Word
  region : Nat
  ordinal : Nat
  deriving DecidableEq, Repr

/-- R368, R369: the run a unit is in (RECORD), or its gate's place (REPLAY). -/
structure ReplayRun where
  kind : Nat
  /-- The physical line or word, the ring header, or the linear id. -/
  place : Place
  /-- The unit id the chunk records. -/
  unitId : Nat
  winner : Nat
  cane : Nat
  /-- Grants so far; of a gate, those of its present chunk. -/
  length : Nat
  hash : Nat
  /-- RECORD: its place in the log, once it has ended. REPLAY: the chunk the gate stands at. -/
  index : Option Nat
  /-- The instruction that received its last grant has retired (R372). -/
  settled : Bool
  /-- The winner cane, and the token of that instruction in its backlog. -/
  who : Nat
  token : Nat
  deriving DecidableEq, Repr

/-- R303: region id, ordinal, parcel offset, and whether the offset needs the LONG flag. -/
structure CodeName where
  region : Nat
  ordinal : Nat
  offset : Nat
  long : Bool
  deriving DecidableEq, Repr

/-- R366, R368: what a cane's store hash waits with, in program order, while a RED of it is held at its gate: a store, the
RED itself, and an instruction that has retired. -/
inductive HashItem where
  | put (addr value : Nat)
  | red (id addr : Nat)
  | check (token : Nat) (name : CodeName)
  deriving DecidableEq, Repr

/-- R366, R368: the store hash of a cane that has a RED held at its gate, up to that; what follows it; and the token of
the instruction that the cane stands at. -/
structure Backlog where
  cane : Nat
  terrace : Nat
  idx : Nat
  linear : Nat
  /-- The id of its parcel. -/
  parcel : Nat
  hash : Dword
  items : List HashItem
  token : Nat
  deriving DecidableEq, Repr

/-- R232, R368: one operation of a RED that the gate of its press unit holds: it is not performed, and it stays counted
in its cane's DCNT and HCNT. -/
structure HeldRed where
  id : Nat
  cane : Nat
  die : Nat
  core : Nat
  terrace : Nat
  root : Nat
  parcel : Option Nat
  linear : Nat
  idx : Nat
  /-- Its press unit; and where it stores. -/
  unit : Place
  place : Place
  addr : Nat
  width : Nat
  etype : ElemType
  value : Nat
  signal : Bool
  token : Nat
  /-- What a deferred record of it says (R208). -/
  origin : StoreOrigin
  deriving DecidableEq, Repr

/-- R355, R356, R362, R367: the debug block of a terrace. -/
structure DebugBlock where
  attach : Bool
  /-- Waiting events, oldest first: at most 64 in the queue. -/
  events : List (List Byte)
  /-- Events of parked canes that wait for room (R360). -/
  overflow : List (List Byte)
  bpen : Word
  wpen : Word
  cmdst : Nat
  cmd : List Byte
  breakpoints : List Breakpoint
  watchpoints : List Watchpoint
  trcEn : Bool
  trcBase : Dword
  trcOrder : Word
  trcCyc : Dword
  triggers : List Trigger
  replayMode : Nat
  replayFull : Bool
  replayBroken : Bool
  replayDiverged : Bool
  replayRoot : Dword
  replayLog : Dword
  replaySize : Dword
  replayPos : Dword
  /-- MODE as it took effect when the launch's root was spawned (R367). -/
  replayActive : Nat
  /-- The log has filled: recording has stopped (R368). -/
  replayStopped : Bool
  runs : List ReplayRun
  deriving DecidableEq, Repr

/-- A debug block after reset. -/
def DebugBlock.zero : DebugBlock :=
  { attach := false, events := [], overflow := [], bpen := 0, wpen := 0, cmdst := 0, cmd := [],
    breakpoints := [], watchpoints := [], trcEn := false, trcBase := 0, trcOrder := 0, trcCyc := 0,
    triggers := [], replayMode := 0, replayFull := false, replayBroken := false,
    replayDiverged := false, replayRoot := 0, replayLog := 0, replaySize := 0, replayPos := 0,
    replayActive := 0, replayStopped := false, runs := [] }

/-- R365: a die's core sample: warm resets, events written, corrected errors, and the slots that hold
something, by number. -/
structure Sample where
  warm : Nat
  events : Nat
  ecc : Nat
  slots : List (Nat × List Byte)
  deriving DecidableEq, Repr

/-- R362, R363: a die's trace unit. -/
structure TraceUnit where
  /-- The terrace that holds it (log entry 43). -/
  owner : Option Nat
  active : Bool
  /-- Records written (TRC.POS). -/
  pos : Nat
  /-- Start and stop conditions met in the present cycle. -/
  start : Bool
  stop : Bool
  /-- R364: the events of the present cycle: core within the die, cane slot, record. They are written when the cycle
  ends, if it is recorded. -/
  events : List (Nat × Nat × List Byte)
  /-- TRC.CYC has been reached since it was last written or the unit claimed (type 5). -/
  cycleSeen : Bool
  /-- One more than the SYS.CYCLE >> 16 of the last TIME record; 0 for none. -/
  timeMark : Nat
  /-- SYS.CYCLE of the die's clusters when the present cycle began. -/
  began : Nat
  deriving DecidableEq, Repr

/-- R376: the stage of an operating-point transition. -/
inductive PointStage where
  | idle
  /-- An up-step's voltage ramp (the switch follows). -/
  | rampUp
  /-- A frequency switch of an up-step. -/
  | switchUp
  /-- A frequency switch of a down-step (the ramp follows). -/
  | switchDown
  /-- A down-step's voltage ramp. -/
  | rampDown
  deriving DecidableEq, Repr

/-- A cluster (R204, R324, R375 to R385). -/
structure Cluster where
  /-- Enabled in this part (R2). -/
  enabled : Bool
  /-- The terrace it belongs to now, and its logical number there (R334). -/
  owner : Option Nat
  logical : Nat
  /-- The terrace that lent it (R339). -/
  lender : Option Nat
  /-- Its revocation has begun (R339), and for which head of its lender, by that distributor's die. -/
  revoking : Bool
  revokeFor : Option (Nat × Item)
  /-- When work of its own terrace was last on it, µs of the reference timer (R339). -/
  busyAt : Nat
  /-- SYS.CYCLE: cycles of the cluster clock since reset (R18). -/
  cycle : Nat
  tlb : List TlbEntry
  point : Nat
  target : Nat
  stage : PointStage
  floor : Nat
  hotlim : Nat
  budget : Nat
  energy : Nat
  hot : Nat
  ratio : Nat
  sampleSeq : Nat
  /-- R382: the window in progress, in tens of µs of the reference timer, and what its cores' counters of slots, and of
  BACKEND.MEM and BACKEND.ASYNC slots, stood at when it began. -/
  window : Nat
  windowBase : Int × Int
  switches : Nat
  /-- SERIAL steps pause (R385). -/
  serialPaused : Bool
  /-- Issue pauses (R385). -/
  issuePaused : Bool
  /-- A critical hotspot moves it to point 0 (R385). -/
  critical : Bool
  /-- Its LOAD_B and SERIAL steps pause until it has come back to point 2 or above (R385). -/
  chilled : Bool
  /-- The cycle at which the present pause of its SERIAL steps began (R385). -/
  pauseFrom : Nat
  /-- It moves to point 7 when the present transition completes (R386). -/
  toSeven : Bool
  /-- What the macros of its matrix engine hold (R266, R278). -/
  macros : Option Loaded
  /-- Beats on their way through the clock-crossing FIFO, toward the fabric and from it: at most 32 of each stand in
  the FIFO, and the others wait before it (R377). -/
  outbound : Nat
  inbound : Nat
  /-- R384: the core time that parcels' workgroups have held on it in the last 1 ms: when, the parcel, and core-µs. -/
  held : List (Nat × Nat × Nat)
  deriving DecidableEq, Repr

/-- A cluster after reset (R375, R381). -/
def Cluster.zero : Cluster :=
  { enabled := true, owner := none, logical := 0, lender := none, revoking := false, revokeFor := none, busyAt := 0, cycle := 0, tlb := [], point := 7, target := 7, stage := .idle, floor := 0, hotlim := 0x690,
    budget := 8000, energy := 0, hot := 0, ratio := 0, sampleSeq := 0, window := 0, windowBase := (0, 0), switches := 0,
    serialPaused := false, issuePaused := false, critical := false, chilled := false, pauseFrom := 0,
    toSeven := false, macros := none, outbound := 0, inbound := 0, held := [] }

/-- R304, R310: an update of a header that the device makes at the press once what it has written before is performed: whose
addresses it uses and at which die, the writes that it waits for, and the bytes. -/
structure Post where
  terrace : Nat
  vdev : Nat
  die : Nat
  parcel : Option Nat
  waits : List Nat
  va : Nat
  bytes : List Byte
  signalled : Bool
  deriving DecidableEq, Repr

/-- A compute die (R204, R217, R220, R324, R160). -/
structure Die where
  /-- The vector clock by die number of the domain, 0 to 63 (R217). -/
  clock : List Nat
  /-- R217: the clocks of the writes that it has taken with what it read at homes, before their data or beats came. -/
  filled : List Nat
  l2 : List L2Line
  monitor : List MonEntry
  walks : List Walk
  queue : List Item
  sample : Sample
  trace : TraceUnit
  /-- The router block: 128 bytes for each terrace number (R398), unlisted bytes 0. -/
  router : List Host.Cell
  /-- The tensor-id entries that hold something (R270). -/
  tensors : List TensorEntry
  deriving DecidableEq, Repr

/-- A die after reset. -/
def Die.zero : Die :=
  { clock := [], filled := [], l2 := [], monitor := [], walks := [], queue := [], sample := ⟨0, 0, 0, []⟩,
    trace := ⟨none, false, 0, false, false, [], false, 0, 0⟩, router := [], tensors := [] }

/-- R415: where an attestation report stands. -/
inductive AttestState where
  | idle | busy | done
  deriving DecidableEq, Repr

/-- R404, R412: a virtual function's registers, with the nonce of the report in progress. -/
structure VfRegs where
  sigdrop : Nat
  mwdrop : Nat
  mwsize : Nat
  atstat : AttestState
  nonce : List Byte
  nonceTaken : List Byte
  report : List Byte
  deriving DecidableEq, Repr

/-- The registers of a virtual function after reset. -/
def VfRegs.zero : VfRegs := ⟨0, 0, 30, .idle, [], [], []⟩

/-- R393: a link's replay count and whether it is down. -/
structure LinkState where
  failures : Nat
  down : Bool
  /-- R393: management has been told that it is down. -/
  told : Bool
  deriving DecidableEq, Repr

/-- A link in order. -/
def LinkState.up : LinkState := ⟨0, false, false⟩

/-- R104, R114, R413: why the boot ROM has no firmware. -/
inductive BootFailure where
  /-- SVO_HEADER. -/
  | header
  /-- SVO_SIG. -/
  | signature
  /-- An image that R413 refuses and for which no cause has a name: not linked, not signed, or out of order. -/
  | image
  /-- No image could be fetched. -/
  | fetch
  deriving DecidableEq, Repr

/-- R413: where the boot of the package stands. -/
structure BootState where
  /-- No image has passed: the package is in recovery. -/
  recovery : Bool
  /-- The TFTP fetch has failed and the ROM fetches over Trellis. -/
  overTrellis : Bool
  /-- What PF0 reports in its mailbox. -/
  reported : Option BootFailure
  /-- SM3 digest of the running firmware's signed content (R415). -/
  digest : Nat
  deriving DecidableEq, Repr

/-- What the device holds for a terrace (R333, R310, R342 to R346, R355). -/
structure Terrace where
  part : PartEntry
  /-- The entry that TERRACE.SET has written since, which COMMIT takes up (R350, R419). -/
  pending : Option PartEntry
  faultQueue : Option FaultQueue
  steward : Option StewardValues
  /-- Stage-1 roots of the four virtual devices (R323, R344). -/
  roots : List (Option Root)
  /-- The current virtual device of VD.SELECT (R344). -/
  vdev : Nat
  /-- The virtual device whose turn it is, under a nonzero quantum (R344). -/
  turn : Nat
  /-- When the present turn's quantum began, µs of the reference timer (R344). -/
  turnStart : Nat
  /-- A turn's drain is in progress (R344). -/
  turnEnding : Bool
  usage : Usage
  /-- The data key and tweak key of the key id (R346). -/
  dataKey : BitVec 128
  tweakKey : BitVec 128
  dbg : DebugBlock
  vf : VfRegs
  /-- The 256 decant entries (R259). -/
  decants : List DecantEntry
  /-- The host aperture that management sets in PF0: base and size in host addresses (R409). -/
  aperture : Nat × Nat
  deriving DecidableEq, Repr

/-- A terrace after reset. -/
def Terrace.zero : Terrace :=
  { part := .zero, pending := none, faultQueue := none, steward := none, roots := [], vdev := 0, turn := 0, turnStart := 0,
    turnEnding := false, usage := .zero, dataKey := 0, tweakKey := 0, dbg := .zero,
    vf := .zero, decants := [], aperture := (0, 0) }

/-- R210, R346: what is known of memory whose ciphertext was not written under the key that its address now has. -/
inductive VeilKind where
  /-- `State.mem` holds what was encrypted under a data key and a tweak key. -/
  | keys (data tweak : BitVec 128)
  /-- Nothing: a reset has left it. The number names the loss. -/
  | lost (n : Nat)
  deriving DecidableEq, Repr

/-- R210, R346: a range of physical addresses whose ciphertext was not written under the present key. -/
structure Veil where
  base : Nat
  size : Nat
  kind : VeilKind
  deriving DecidableEq, Repr

/-- R338: a request that waits at a channel controller: whose it is (16 is management, with stage-2 walks), its bytes,
and its start tag, none for management and for weight 0. -/
structure Request where
  terrace : Nat
  bytes : Nat
  start : Option Nat
  deriving DecidableEq, Repr

/-- R338: a channel controller: its virtual time, the terraces' last finish tags, the requests that wait in order of
arrival, and the service slots until management's next. -/
structure Channel where
  v : Nat
  lastFinish : List Nat
  waiting : List Request
  slot : Nat
  deriving DecidableEq, Repr

/-- A controller after reset. -/
def Channel.zero : Channel := ⟨0, [], [], 0⟩

/-- R349: a SUP function that a terrace has before it: the terrace and the cane that calls it. -/
structure SupCall where
  terrace : Nat
  cane : Nat
  deriving DecidableEq, Repr

/-- The instruction being issued (R20 to R24): the address of its first parcel, from which a branch
displacement counts too, its length in parcels, and the payload of its immx word. -/
structure Issue where
  addr : Dword
  parcels : Nat
  ext : Option (BitVec 24)
  /-- T: it is a stop point (R29). -/
  stop : Bool
  deriving DecidableEq, Repr

/-- The whole package. -/
structure State where
  /-- The cane whose instruction is issued next. -/
  cur : Cane
  others : List Cane
  iss : Issue
  /-- What the outside world or the part's own timing has decided, in order: a device event, or (none) the
  issue of the present cane's next instruction. Empty, the default order of Step stands. -/
  agenda : List (Option Instr)
  /-- The next unused name of a placement, a write, an operation. -/
  nextId : Nat
  /-- How many free values have been drawn. -/
  freeCount : Nat
  /-- The home contents of memory by physical address (R205); an unlisted byte reads as
  `Memory.blank`. -/
  mem : List Host.Cell
  /-- The home's count of writes per line (R218). -/
  lineSeq : List (Nat × Nat)
  /-- The join of the clocks of the writes that the home has applied to a line (R217). -/
  linePast : List (Nat × List Nat)
  /-- The poisoned 32-byte granules (R207). -/
  poison : List Nat
  flights : List Flight
  /-- Header updates of the device that wait (R304, R310), oldest first. -/
  posts : List Post
  cores : List Core
  clusters : List Cluster
  dies : List Die
  /-- Terraces 0 to 15; entry 16 holds what management has in their place (R311, R362). -/
  terraces : List Terrace
  veils : List Veil
  /-- The lines that the cellar slices hold (R204). -/
  cellar : List CellarLine
  channels : List Channel
  workgroups : List Workgroup
  parcels : List Parcel
  barriers : List Barrier
  pendingArrivals : List PendingArrival
  transEntries : List TransEntry
  /-- The linked image of each terrace; entry 16 is the firmware's. -/
  images : List LinkedImage
  /-- The 16 Trellis ports, then the 4 UCIe links between dies 0–1, 0–2, 1–3 and 2–3 (R392, R393). -/
  links : List LinkState
  asyncOps : List AsyncOp
  decantOps : List DecantOp
  tasks : List Task
  partials : List Partial
  groups : List OrderedGroup
  keys : List CollKey
  tlbInvs : List TlbInv
  /-- The REDs that the gates of a replay hold, oldest first, and the store hashes that wait for them (R366, R368). -/
  heldReds : List HeldRed
  backlogs : List Backlog
  /-- The SUP functions that have reached the partition table and have not completed, in order (R349). -/
  sups : List SupCall
  /-- The endpoint's last read completion: its bytes, or none for Unsupported Request (R405, R406). -/
  completion : Option (List Byte)
  boot : BootState
  /-- SYS.RTIME: µs since cold reset (R129). -/
  rtime : Nat
  deriving DecidableEq, Repr

/-! ## Reset (R413) -/

/-- The management cane at reset: management core 0 runs the boot ROM at level M (log entry 1). -/
def Cane.boot : Cane :=
  { Cane.zero with live := true, core := 512, nreg := 128, ext0 := (0, 16), priv := 2, wait := .rom }

/-- The package right after reset: the boot ROM is about to fetch a firmware image, and every table stands at its
reset entry (R413).  The last two clusters of each die are the disabled ones (R2, a choice of the model). -/
def State.reset : State :=
  { cur := Cane.boot, others := [], iss := ⟨0, 0, none, false⟩, agenda := [], nextId := 1,
    freeCount := 0, mem := [], lineSeq := [], linePast := [], poison := [], flights := [], posts := [], cores := [],
    clusters := (List.range 128).map fun i => { Cluster.zero with enabled := decide (i % 32 < 30) },
    dies := [], terraces := [], veils := [], cellar := [], channels := [], workgroups := [], parcels := [],
    barriers := [], pendingArrivals := [], transEntries := [], images := [], links := [],
    asyncOps := [], decantOps := [], tasks := [], partials := [], groups := [], keys := [], heldReds := [], backlogs := [], tlbInvs := [], sups := [], completion := none,
    boot := ⟨true, false, none, 0⟩, rtime := 0 }

/-- Why the machine stops. -/
inductive Fault where
  /-- An event of the agenda names a die, cluster, link, terrace or function that the package does not
  have (R2, R404): no such event can occur. Raised by the events that name a unit; safe. -/
  | noSuchUnit
  deriving DecidableEq, Repr

/-- Why an instruction has no meaning here. -/
inductive Refusal where
  /-- The dispatch refuses an instruction that has no meaning yet; a refusal is safe. -/
  | notModelled (mnemonic : String)
  deriving DecidableEq, Repr

end Sys2Proof.Machine
end

