-- ==== Sys2Proof/Machine/Memory.lean ====
section
/-! DEFINITION. Byte memory as a list of cells in one canonical form: addresses strictly rising, and no
cell equal to what an unlisted address reads as. -/

namespace Sys2Proof.Machine

/-- What an unlisted byte reads as: scratch is zeroed when granted (R203); for GDDR 7 the spec states no
power-on contents, and 0 is a DESIGN CHOICE (log entry 2). -/
def Memory.blank : Byte := 0#8

/-- The byte at an address. -/
def Memory.read : List Host.Cell → Nat → Byte
  | [], _ => Memory.blank
  | (b, v) :: rest, a => if a < b then Memory.blank else if a = b then v else Memory.read rest a

/-- A cell in front of a memory, dropped when it reads as an unlisted one. -/
def Memory.cons (a : Nat) (v : Byte) (m : List Host.Cell) : List Host.Cell :=
  if v = Memory.blank then m else (a, v) :: m

/-- The memory with one byte written. -/
def Memory.write : List Host.Cell → Nat → Byte → List Host.Cell
  | [], a, v => Memory.cons a v []
  | (b, w) :: rest, a, v =>
    if a < b then Memory.cons a v ((b, w) :: rest)
    else if a = b then Memory.cons a v rest
    else (b, w) :: Memory.write rest a v

/-- Every address of the memory is above n, addresses rise, and no cell is blank. -/
def Memory.wfAbove : Option Nat → List Host.Cell → Bool
  | _, [] => true
  | n, (a, v) :: rest =>
    (match n with | none => true | some k => decide (k < a)) && decide (v ≠ Memory.blank)
      && Memory.wfAbove (some a) rest

/-- The canonical form. -/
def Memory.wf (m : List Host.Cell) : Bool := Memory.wfAbove none m

/-- n bytes from an address. -/
def Memory.readBytes (m : List Host.Cell) (a n : Nat) : List Byte :=
  (List.range n).map fun i => Memory.read m (a + i)

/-- Bytes written from an address upward. -/
def Memory.writeBytes (m : List Host.Cell) (a : Nat) : List Byte → List Host.Cell
  | [] => m
  | b :: bs => Memory.writeBytes (Memory.write m a b) (a + 1) bs

/-- The memory without the cells of [lo, lo + n). -/
def Memory.clearRange (m : List Host.Cell) (lo n : Nat) : List Host.Cell :=
  m.filter fun c => decide (c.1 < lo) || decide (lo + n ≤ c.1)

/-- A number's n bytes, low byte first. -/
def leBytes : Nat → Nat → List Byte
  | 0, _ => []
  | n + 1, x => BitVec.ofNat 8 x :: leBytes n (x / 256)

/-- The number of bytes, low byte first. -/
def leNat : List Byte → Nat
  | [] => 0
  | b :: bs => b.toNat + 256 * leNat bs

/-- Field [lo + n − 1 : lo] of a byte image, as a number. -/
def leField (bs : List Byte) (lo n : Nat) : Nat := leNat ((bs.drop lo).take n)

end Sys2Proof.Machine
end

