-- ==== Sys2Proof/Machine/Cipher.lean ====
section
/-! DEFINITION. SM4 in XTS mode, which R210 and R346 name: the spec names the cipher and the mode and gives neither
(log entry 18). -/

namespace Sys2Proof.Machine

/-- The first half of the S-box of SM4. -/
def sm4BoxLow : List Nat :=
  [0xd6, 0x90, 0xe9, 0xfe, 0xcc, 0xe1, 0x3d, 0xb7, 0x16, 0xb6, 0x14, 0xc2, 0x28, 0xfb, 0x2c, 0x05,
   0x2b, 0x67, 0x9a, 0x76, 0x2a, 0xbe, 0x04, 0xc3, 0xaa, 0x44, 0x13, 0x26, 0x49, 0x86, 0x06, 0x99,
   0x9c, 0x42, 0x50, 0xf4, 0x91, 0xef, 0x98, 0x7a, 0x33, 0x54, 0x0b, 0x43, 0xed, 0xcf, 0xac, 0x62] ++
  [0xe4, 0xb3, 0x1c, 0xa9, 0xc9, 0x08, 0xe8, 0x95, 0x80, 0xdf, 0x94, 0xfa, 0x75, 0x8f, 0x3f, 0xa6,
   0x47, 0x07, 0xa7, 0xfc, 0xf3, 0x73, 0x17, 0xba, 0x83, 0x59, 0x3c, 0x19, 0xe6, 0x85, 0x4f, 0xa8,
   0x68, 0x6b, 0x81, 0xb2, 0x71, 0x64, 0xda, 0x8b, 0xf8, 0xeb, 0x0f, 0x4b, 0x70, 0x56, 0x9d, 0x35,
   0x1e, 0x24, 0x0e, 0x5e, 0x63, 0x58, 0xd1, 0xa2, 0x25, 0x22, 0x7c, 0x3b, 0x01, 0x21, 0x78, 0x87]

/-- The S-box of SM4. -/
def sm4Box : List Nat :=
  sm4BoxLow ++
  [0xd4, 0x00, 0x46, 0x57, 0x9f, 0xd3, 0x27, 0x52, 0x4c, 0x36, 0x02, 0xe7, 0xa0, 0xc4, 0xc8, 0x9e,
   0xea, 0xbf, 0x8a, 0xd2, 0x40, 0xc7, 0x38, 0xb5, 0xa3, 0xf7, 0xf2, 0xce, 0xf9, 0x61, 0x15, 0xa1,
   0xe0, 0xae, 0x5d, 0xa4, 0x9b, 0x34, 0x1a, 0x55, 0xad, 0x93, 0x32, 0x30, 0xf5, 0x8c, 0xb1, 0xe3,
   0x1d, 0xf6, 0xe2, 0x2e, 0x82, 0x66, 0xca, 0x60, 0xc0, 0x29, 0x23, 0xab, 0x0d, 0x53, 0x4e, 0x6f] ++
  [0xd5, 0xdb, 0x37, 0x45, 0xde, 0xfd, 0x8e, 0x2f, 0x03, 0xff, 0x6a, 0x72, 0x6d, 0x6c, 0x5b, 0x51,
   0x8d, 0x1b, 0xaf, 0x92, 0xbb, 0xdd, 0xbc, 0x7f, 0x11, 0xd9, 0x5c, 0x41, 0x1f, 0x10, 0x5a, 0xd8,
   0x0a, 0xc1, 0x31, 0x88, 0xa5, 0xcd, 0x7b, 0xbd, 0x2d, 0x74, 0xd0, 0x12, 0xb8, 0xe5, 0xb4, 0xb0,
   0x89, 0x69, 0x97, 0x4a, 0x0c, 0x96, 0x77, 0x7e, 0x65, 0xb9, 0xf1, 0x09, 0xc5, 0x6e, 0xc6, 0x84,
   0x18, 0xf0, 0x7d, 0xec, 0x3a, 0xdc, 0x4d, 0x20, 0x79, 0xee, 0x5f, 0x3e, 0xd7, 0xcb, 0x39, 0x48]

/-- The S-box on each byte of a word. -/
def sm4Tau (x : Word) : Word :=
  let s (k : Nat) : Nat := getI 0 sm4Box (x.toNat / 2 ^ (8 * k) % 256)
  BitVec.ofNat 32 (s 0 + s 1 * 2 ^ 8 + s 2 * 2 ^ 16 + s 3 * 2 ^ 24)
/-- The mixing of a round of encryption. -/
def sm4Mix (x : Word) : Word :=
  let b := sm4Tau x
  b ^^^ b.rotateLeft 2 ^^^ b.rotateLeft 10 ^^^ b.rotateLeft 18 ^^^ b.rotateLeft 24
/-- The mixing of a round of key expansion. -/
def sm4KeyMix (x : Word) : Word :=
  let b := sm4Tau x
  b ^^^ b.rotateLeft 13 ^^^ b.rotateLeft 23

/-- Four words of a block or a key. -/
abbrev Sm4 : Type := Word × Word × Word × Word

/-- The words of 16 bytes, the first byte highest. -/
def sm4Words (b : List Byte) : Sm4 :=
  let w (k : Nat) : Word := BitVec.ofNat 32 (leNat ((b.drop (4 * k)).take 4).reverse)
  (w 0, w 1, w 2, w 3)
/-- The 16 bytes of a block after the last round, whose words stand in reverse. -/
def sm4Bytes (x : Sm4) : List Byte :=
  let w (v : Word) : List Byte := (leBytes 4 v.toNat).reverse
  w x.2.2.2 ++ w x.2.2.1 ++ w x.2.1 ++ w x.1

/-- The constant of round i of key expansion. -/
def sm4Const (i : Nat) : Word :=
  let c (k : Nat) : Nat := (4 * i + k) * 7 % 256
  BitVec.ofNat 32 (c 0 * 2 ^ 24 + c 1 * 2 ^ 16 + c 2 * 2 ^ 8 + c 3)

/-- One round: the new word is the oldest one with the mixed rest. -/
def sm4Round (mix : Word → Word) (x : Sm4) (k : Word) : Sm4 :=
  (x.2.1, x.2.2.1, x.2.2.2, x.1 ^^^ mix (x.2.1 ^^^ x.2.2.1 ^^^ x.2.2.2 ^^^ k))

/-- The 32 round keys of a 16-byte key. -/
def sm4Keys (key : List Byte) : List Word :=
  let k := sm4Words key
  let start : Sm4 := (k.1 ^^^ 0xA3B1BAC6#32, k.2.1 ^^^ 0x56AA3350#32, k.2.2.1 ^^^ 0x677D9197#32, k.2.2.2 ^^^ 0xB27022DC#32)
  ((List.range 32).foldl (fun (x : Sm4 × List Word) i =>
    let y := sm4Round sm4KeyMix x.1 (sm4Const i)
    (y, x.2 ++ [y.2.2.2])) (start, [])).2

/-- SM4 of one block under its round keys; reversed round keys decrypt. -/
def sm4Block (keys : List Word) (b : List Byte) : List Byte := sm4Bytes (keys.foldl (sm4Round sm4Mix) (sm4Words b))

/-- Two byte strings added bit by bit. -/
def xorBytes (a b : List Byte) : List Byte := List.zipWith (· ^^^ ·) a b

/-- IEEE 1619: a tweak times alpha. -/
def xtsNext (t : List Byte) : List Byte :=
  let n := 2 * leNat t
  leBytes 16 (if n < 2 ^ 128 then n else Nat.xor (n - 2 ^ 128) 0x87)

/-- R346, IEEE 1619: the two blocks of a granule at a physical address, in or out of its ciphertext. -/
def xtsGranule (keys tweakKeys : List Word) (addr : Nat) (b : List Byte) : List Byte :=
  let t := sm4Block tweakKeys (leBytes 16 addr)
  let part (t b : List Byte) : List Byte := xorBytes t (sm4Block keys (xorBytes t b))
  part t (b.take 16) ++ part (xtsNext t) (b.drop 16)

/-- R346: a granule's ciphertext under a data key and a tweak key. -/
def xtsEncrypt (data tweak : BitVec 128) (addr : Nat) (b : List Byte) : List Byte :=
  xtsGranule (sm4Keys (leBytes 16 data.toNat)) (sm4Keys (leBytes 16 tweak.toNat)) addr b
/-- R346: what a ciphertext decrypts to. -/
def xtsDecrypt (data tweak : BitVec 128) (addr : Nat) (b : List Byte) : List Byte :=
  xtsGranule (sm4Keys (leBytes 16 data.toNat)).reverse (sm4Keys (leBytes 16 tweak.toNat)) addr b

end Sys2Proof.Machine
end

