-- ==== Sys2Proof/Machine/Ops.lean ====
section
/-! DEFINITION. The named operations over registers, memory, translation and the device's own records
that the meanings share, with trap entry and the return from it. -/

namespace Sys2Proof.Machine

/-- The outcome of one step. -/
abbrev Out := Host.Outcome State Fault Refusal

/-! ## Places of the package -/

/-- The index of management in the tables that terraces number (R311, R431). -/
abbrev mgmt : Nat := 16

/-- The compute die of a core; a management core counts as die 0 (R431). -/
def dieOfCore (core : Nat) : Nat := if core < 512 then core / 128 else 0
/-- The cluster of a core: 32·die + cluster; 128 is the management cores'. -/
def clusterOfCore (core : Nat) : Nat := if core < 512 then core / 4 else 128
/-- The domain number of compute die k of package 0 (R391). -/
def dieNumber (k : Nat) : Nat := k % 2 + 8 * (k / 2)

/-- A core of the package. -/
def State.core (s : State) (i : Nat) : Core := getI Core.zero s.cores i
/-- A core replaced. -/
def State.setCore (s : State) (i : Nat) (c : Core) : State :=
  { s with cores := setI Core.zero s.cores i c }
/-- A cluster of the package. -/
def State.cluster (s : State) (i : Nat) : Cluster := getI Cluster.zero s.clusters i
/-- A cluster replaced. -/
def State.setCluster (s : State) (i : Nat) (c : Cluster) : State :=
  { s with clusters := setI Cluster.zero s.clusters i c }
/-- A compute die of the package. -/
def State.die (s : State) (i : Nat) : Die := getI Die.zero s.dies i
/-- A die replaced. -/
def State.setDie (s : State) (i : Nat) (d : Die) : State := { s with dies := setI Die.zero s.dies i d }
/-- A terrace, or management's entry. -/
def State.terrace (s : State) (i : Nat) : Terrace := getI Terrace.zero s.terraces i
/-- A terrace replaced. -/
def State.setTerrace (s : State) (i : Nat) (t : Terrace) : State :=
  { s with terraces := setI Terrace.zero s.terraces i t }
/-- The linked image of a terrace. -/
def State.image (s : State) (i : Nat) : LinkedImage := getI LinkedImage.empty s.images i

/-- The workgroup of a name. -/
def State.findWg (s : State) (id : Nat) : Option Workgroup := s.workgroups.find? fun w => w.id == id
/-- A workgroup changed. -/
def State.updWg (s : State) (id : Nat) (f : Workgroup → Workgroup) : State :=
  { s with workgroups := s.workgroups.map fun w => if w.id == id then f w else w }
/-- A cane without a workgroup stands in this one: management's, with nothing of its own. -/
def Workgroup.zero : Workgroup :=
  { id := 0, terrace := mgmt, vdev := 0, parcel := none, linear := 0, taskType := 0, core := 512,
    priority := 15, member := none, setId := 0, setLog := 0, ncanes := 1, scrBase := 0, scrSize := 0,
    scratch := [], scrPoison := [], entry := 0, request := none, exitRec := none, held := [], resuming := false,
    recordMap := none, pause := none }
/-- The workgroup of a cane. -/
def State.wgOf (s : State) (c : Cane) : Workgroup := (s.findWg c.wg).getD Workgroup.zero
/-- The name under which a workgroup's tensor ids stand, the same through its phases and grafts (R170). -/
def Workgroup.owner (w : Workgroup) : Nat :=
  match w.parcel with
  | some p => 2 * (p * 2 ^ 64 + w.linear) + 1
  | none => 2 * w.id
/-- R342: a workgroup of no parcel on a terrace is its steward. -/
def Workgroup.isSteward (w : Workgroup) : Bool := w.parcel.isNone && decide (w.terrace < 16)
/-- The parcel of a name. -/
def State.findParcel (s : State) (id : Nat) : Option Parcel := s.parcels.find? fun p => p.id == id
/-- SYS.PARCEL of a parcel: the address of its record, 0 for none. -/
def State.parcelAddr (s : State) (p : Option Nat) : Nat := ((p.bind s.findParcel).map (·.addr)).getD 0
/-- A parcel changed. -/
def State.updParcel (s : State) (id : Nat) (f : Parcel → Parcel) : State :=
  { s with parcels := s.parcels.map fun p => if p.id == id then f p else p }
/-- The task type of a workgroup. -/
def TaskType.zero : TaskType := ⟨none, 8, 1, 0, 0, false, none, []⟩
/-- Task type n of a linked image. -/
def LinkedImage.taskType? (im : LinkedImage) (n : Nat) : Option TaskType := im.taskTypes[n]?
/-- R34: the level that a workgroup's task type gives its canes. -/
def State.levelOf (s : State) (w : Workgroup) : Nat :=
  (((s.image w.terrace).taskType? w.taskType).map (·.priv)).getD 0

/-! ## Canes -/

/-- The issuing cane changed. -/
def State.updCur (s : State) (f : Cane → Cane) : State := { s with cur := f s.cur }
/-- Every cane changed. -/
def State.mapCanes (s : State) (f : Cane → Cane) : State :=
  { s with cur := f s.cur, others := s.others.map f }
/-- One cane changed, by its name. -/
def State.updCane (s : State) (id : Nat) (f : Cane → Cane) : State :=
  s.mapCanes fun c => if c.id == id && c.live then f c else c
/-- The canes that have been placed and have not retired. -/
def State.canes (s : State) : List Cane := (s.cur :: s.others).filter fun c => c.live
/-- The live cane of a name. -/
def State.findCane (s : State) (id : Nat) : Option Cane := s.canes.find? fun c => c.id == id
/-- The live canes of a workgroup. -/
def State.canesOf (s : State) (wg : Nat) : List Cane := s.canes.filter fun c => c.wg == wg

/-! ## Registers (R7 to R9) -/

/-- Row i of the V registers. -/
def Cane.row (c : Cane) (i : Nat) : List Word := getI [] c.v i
/-- R36: lane l of v[i]. -/
def Cane.V (c : Cane) (i l : Nat) : Word := getI 0 (c.row i) l
/-- R36: lane l of the pair v[i], v[i+1], low word in v[i]. -/
def Cane.V64 (c : Cane) (i l : Nat) : Dword := c.V (i + 1) l ++ c.V i l
/-- R36: base + l·sext(stride) of a[i]. -/
def Affine.at (a : Affine) (l : Nat) : Dword := a.base + BitVec.ofNat 64 l * a.stride.signExtend 64
/-- Affine register i. -/
def Cane.aff (c : Cane) (i : Nat) : Affine := getI ⟨0, 0⟩ c.a i
/-- R9: predicate i; p0 reads all ones. -/
def Cane.pred (c : Cane) (i : Nat) : Mask := if i = 0 then 0xFFFFFFFF#32 else getI 0 c.p i

/-- A row with the lanes of m replaced. -/
def mergeRow (m : Mask) (old : List Word) (f : Nat → Word) : List Word :=
  lanes.map fun l => if m.getLsbD l then f l else getI 0 old l
/-- R207: the poisoned rows of register i that a write in the lanes of m does not fill whole. -/
def keepPoison (m : Mask) (i : Nat) (rows : List Nat) : List Nat :=
  rows.filter fun r => !(r / 4 == i && m.extractLsb' (8 * (r % 4)) 8 == 0xFF#8)
/-- v[i] written in the lanes of m. -/
def Cane.setV (c : Cane) (m : Mask) (i : Nat) (f : Nat → Word) : Cane :=
  { c with v := setI [] c.v i (mergeRow m (c.row i) f), rowPoison := keepPoison m i c.rowPoison }
/-- The pair v[i], v[i+1] written in the lanes of m. -/
def Cane.setV64 (c : Cane) (m : Mask) (i : Nat) (f : Nat → Dword) : Cane :=
  (c.setV m i fun l => (f l).extractLsb' 0 32).setV m (i + 1) fun l => (f l).extractLsb' 32 32
/-- a[i] written. -/
def Cane.setA (c : Cane) (i : Nat) (x : Affine) : Cane := { c with a := setI ⟨0, 0⟩ c.a i x }
/-- R9: p[i] written in the lanes of m; a write to p0 is discarded. -/
def Cane.setP (c : Cane) (m : Mask) (i : Nat) (x : Mask) : Cane :=
  if i = 0 then c else { c with p := setI 0 c.p i ((x &&& m) ||| (getI 0 c.p i &&& ~~~m)) }

/-! ## MODE fields (R10) -/

/-- Bits [hi:lo] of a word as a number. -/
def bitsAt (w : Word) (lo n : Nat) : Nat := (w.extractLsb' lo n).toNat
/-- MODE.GP. -/
def Cane.gp (c : Cane) : Nat := bitsAt c.mode 0 3
/-- MODE.GN. -/
def Cane.gn (c : Cane) : Bool := c.mode.getLsbD 3
/-- MODE.ET. -/
def Cane.et (c : Cane) : Nat := bitsAt c.mode 4 4
/-- MODE.RM. -/
def Cane.rm (c : Cane) : Nat := bitsAt c.mode 8 3
/-- MODE.SAT. -/
def Cane.sat (c : Cane) : Bool := c.mode.getLsbD 11
/-- MODE.FTZ. -/
def Cane.ftz (c : Cane) : Bool := c.mode.getLsbD 12
/-- MODE.BR. -/
def Cane.br (c : Cane) : Nat := bitsAt c.mode 13 3
/-- MODE.BC. -/
def Cane.bc (c : Cane) : Nat := bitsAt c.mode 16 3
/-- MODE.SCOPE. -/
def Cane.scope (c : Cane) : Nat := bitsAt c.mode 19 3
/-- MODE.ORD. -/
def Cane.ord (c : Cane) : Nat := bitsAt c.mode 22 2
/-- MODE.CT. -/
def Cane.ct (c : Cane) : Nat := bitsAt c.mode 24 4

/-! ## Active lanes (R30, R31, R36) -/

/-- R36: the guard. -/
def Cane.guardMask (c : Cane) : Mask := if c.gn then ~~~(c.pred c.gp) else c.pred c.gp
/-- recon less the quarantine mask, which an exit routine does not apply (R315). -/
def Cane.unguarded (c : Cane) : Mask :=
  if c.routine = .exit then c.recon else c.recon &&& ~~~c.qmask
/-- R36: active_mask(). -/
def Cane.active (c : Cane) : Mask := c.unguarded &&& c.guardMask
/-- The lowest lane of a mask (R36). R36 names no lane of an empty mask, which uread and gread meet where an instruction
runs with no lane (R117, R122): lane 0 is read (DESIGN CHOICE, log entry 67). -/
def firstLane (m : Mask) : Nat := (lanes.find? fun l => m.getLsbD l).getD 0
/-- The lanes of a mask, ascending. -/
def lanesOf (m : Mask) : List Nat := lanes.filter fun l => m.getLsbD l

/-! ## Regions and keys (R210, R335, R336, R346) -/

/-- R335: the used region of a terrace that holds an address. -/
def State.regionIn (s : State) (a t : Nat) : Option (Nat × MemRegion) :=
  ((s.terrace t).part.regions.find? fun r =>
    decide (r.size ≠ 0) && decide (r.base ≤ a) && decide (a < r.base + r.size)).map fun r => (t, r)
/-- R335, R350: the used region that holds an address. The regions of a terrace that is OFF count only where no other
terrace's hold it. -/
def State.regionOf (s : State) (a : Nat) : Option (Nat × MemRegion) :=
  let on (t : Nat) : Bool := (s.terrace t).part.state != .off
  (((List.range 16).filter on) ++ (List.range 16).filter fun t => !on t).findSome? (s.regionIn a)
/-- R210, R336: the key id of an address: the terrace whose region holds it, or management's. -/
def State.keyOf (s : State) (a : Nat) : Nat := ((s.regionOf a).map (·.1)).getD mgmt
/-- R210, R346: the data key and the tweak key of a key id. -/
def State.keysOf (s : State) (t : Nat) : BitVec 128 × BitVec 128 :=
  if t < 16 then ((s.terrace t).dataKey, (s.terrace t).tweakKey) else (Config.managementKey, Config.managementTweak)

/-! ## Home memory and the dies' copies (R204 to R207, R216 to R218) -/

/-- A veiled range covers an address. -/
def Veil.covers (v : Veil) (a : Nat) : Bool := decide (v.base ≤ a) && decide (a < v.base + v.size)
/-- A veil without a range of addresses. -/
def Veil.without (v : Veil) (lo n : Nat) : List Veil :=
  ([⟨v.base, min (v.base + v.size) lo - v.base, v.kind⟩,
    ⟨max v.base (lo + n), v.base + v.size - max v.base (lo + n), v.kind⟩] : List Veil).filter fun x => x.size ≠ 0
/-- R346: the byte at an address whose ciphertext was not written under its present key. -/
def State.veiledByte (s : State) (v : Veil) (a : Nat) : Byte :=
  let k := s.keysOf (s.keyOf a)
  match v.kind with
  | .lost n => Config.veiledByte n a k.1 k.2
  | .keys d t =>
    if k = (d, t) then Memory.read s.mem a
    else
      let g := a / 32 * 32
      getI 0 (xtsDecrypt k.1 k.2 g (xtsEncrypt d t g (Memory.readBytes s.mem g 32))) (a % 32)
/-- The byte the home holds. -/
def State.homeByte (s : State) (a : Nat) : Byte :=
  match s.veils.find? fun v => v.covers a with
  | some v => s.veiledByte v a
  | none => Memory.read s.mem a
/-- The home contents with the granule of an address as it reads, which a write of a part of it merges with. -/
def State.plainMem (s : State) (a : Nat) : List Host.Cell :=
  if s.veils.any fun v => decide (v.base < a / 32 * 32 + 32) && decide (a / 32 * 32 < v.base + v.size) then
    Memory.writeBytes s.mem (a / 32 * 32) ((List.range 32).map fun i => s.homeByte (a / 32 * 32 + i))
  else s.mem
/-- The home contents with one byte written. -/
def State.writeHome (s : State) (a : Nat) (b : Byte) : State :=
  { s with mem := Memory.write (s.plainMem a) a b, veils := s.veils.flatMap fun v => v.without (a / 32 * 32) 32 }
/-- Bytes written from an address upward. -/
def State.writeHomeBytes (s : State) (a : Nat) : List Byte → State
  | [] => s
  | b :: bs => (s.writeHome a b).writeHomeBytes (a + 1) bs

/-- The granules of a range, by number. -/
def granules (a n : Nat) : List Nat :=
  if n = 0 then [] else (List.range ((a + n - 1) / 32 + 1 - a / 32)).map fun i => a / 32 + i
/-- A write of [a, a + n) fills a granule whole. -/
def fills (a n g : Nat) : Bool := decide (a ≤ 32 * g) && decide (32 * g + 32 ≤ a + n)
/-- A range touches a granule. -/
def touches (a n g : Nat) : Bool := decide (32 * g < a + n) && decide (a < 32 * g + 32)
/-- R207: after a write a granule written whole is clean, and one that took poisoned data (bad) is marked. -/
def markPoison (gs : List Nat) (a n : Nat) (bad : List Nat) : List Nat :=
  let kept := gs.filter fun g => !fills a n g
  (bad.filter fun g => touches a n g && !kept.contains g) ++ kept

/-- The line of an address (R204). -/
def lineOf (a : Nat) : Nat := a / 128
/-- The line a die holds. -/
def findL2 (ls : List L2Line) (line : Nat) : Option L2Line := ls.find? fun x => x.line == line
/-- R210: the line a die holds under the key id that its address has; another is a miss. -/
def State.l2Copy (s : State) (d line : Nat) : Option L2Line :=
  (findL2 (s.die d).l2 line).filter fun l => l.key == s.keyOf (128 * line)
/-- The home's count of writes to a line. -/
def State.seqOf (s : State) (line : Nat) : Nat :=
  ((s.lineSeq.find? fun x => x.1 == line).map (·.2)).getD 0
/-- A write covers an address. -/
def Flight.covers (f : Flight) (a : Nat) : Bool := decide (f.addr ≤ a) && decide (a < f.addr + f.bytes.length)
/-- R218, R32: the byte of a die's own latest store to an address that the home has not applied. -/
def State.ownByte (s : State) (d a : Nat) : Option Byte :=
  (s.flights.reverse.find? fun f => f.die == d && f.seq.isNone && f.covers a).map fun f => getI 0 f.bytes (a - f.addr)
/-- The byte a die that holds no copy reads: its own store's on its way, or the home's. -/
def State.missByte (s : State) (d a : Nat) : Byte := (s.ownByte d a).getD (s.homeByte a)
/-- The byte a die's L2 gives: its copy's, or what a miss reads. -/
def State.dieByte (s : State) (d a : Nat) : Byte :=
  match s.l2Copy d (lineOf a) with
  | some l => getI 0 l.bytes (a % 128)
  | none => s.missByte d a
/-- R210: the byte a requester of a key id reads at a die: a copy under another key id is a miss. -/
def State.byteFor (s : State) (t d a : Nat) : Byte :=
  match s.l2Copy d (lineOf a) with
  | some l => if l.key = t then getI 0 l.bytes (a % 128) else s.missByte d a
  | none => s.missByte d a
/-- n bytes at a die. -/
def State.dieBytes (s : State) (d a n : Nat) : List Byte := (List.range n).map fun i => s.dieByte d (a + i)

/-- A granule of [a, a + n) is poisoned at the home (R207). -/
def State.poisoned (s : State) (a n : Nat) : Bool := s.poison.any (touches a n)
/-- R207: what a miss of a die reads of a granule is poisoned: the home's, or what its own stores on their way make of
it. -/
def State.missPoison (s : State) (d g : Nat) : Bool :=
  (s.flights.filter fun f => f.die == d && f.seq.isNone && touches f.addr f.bytes.length g).foldl
    (fun p f => f.bad.contains g || (!fills f.addr f.bytes.length g && p)) (s.poison.contains g)
/-- R207: a granule is poisoned as a die reads it. -/
def State.diePoison (s : State) (d g : Nat) : Bool :=
  match s.l2Copy d (g / 4) with
  | some l => l.poison.contains (g % 4)
  | none => s.missPoison d g
/-- A granule of [a, a + n) is poisoned as a die reads it (R207). -/
def State.poisonedAt (s : State) (d a n : Nat) : Bool := (granules a n).any (s.diePoison d)
/-- R207, R210: a granule is poisoned as a requester of a key id reads it at a die. -/
def State.granulePoison (s : State) (t d g : Nat) : Bool :=
  if s.keyOf (32 * g) = t then s.diePoison d g else s.missPoison d g
/-- R335: the GDDR 7 channel of an address; outside every region the low line bits choose it (log
entry 6). -/
def State.channelOf (s : State) (a : Nat) : Nat :=
  match s.regionOf a with
  | some (_, r) => bitsAt r.interleave 0 5
      + ((a - r.base) >>> (bitsAt r.interleave 8 4 + 8)) % 2 ^ bitsAt r.interleave 5 3
  | none => (a / 256) % 32
/-- R205: the owner die of a line: eight channels belong to each compute die's pair of base dies; host
memory is reached through die 0 (R401). -/
def State.homeDie (s : State) (a : Nat) : Nat :=
  if a < 2 ^ 42 then s.channelOf a / 8 % 4 else 0

/-- R204: the cellar slice of a line, 0 to 63: eight belong to each base die, which has four channels. -/
def State.cellarSliceOf (s : State) (line : Nat) : Nat :=
  8 * (s.channelOf (128 * line) / 4) + Config.cellarSlice line % 8

/-- R343: payload bytes of a terrace's key id counted. -/
def State.countBytes (s : State) (t n : Nat) : State :=
  if t ≥ 16 then s
  else
    let tt := s.terrace t
    s.setTerrace t { tt with usage := { tt.usage with bytes := tt.usage.bytes + n } }

/-- R343: how many cores hold a workgroup of a terrace. -/
def State.coresHeld (s : State) (t : Nat) : Nat :=
  ((s.workgroups.filter fun w => w.terrace == t).map (·.core)).dedup.length

/-- R343: the energy that a terrace's clusters draw while time passes, which is the part's own (log entry 20): those that it
has lent belong to their borrowers. -/
def State.energyOf (s : State) (t : Nat) : Nat :=
  (((List.range 128).filter fun k => (s.cluster k).owner == some t).map fun k => Config.energyDrawn k s.freeCount).sum

/-- R343: what a terrace's meters have counted when dt µs have passed: the time of each core that holds a workgroup of
it, and its clusters' energy. -/
def State.meter (s : State) (dt t : Nat) (tt : Terrace) : Terrace :=
  if t ≥ 16 ∨ tt.part.state = .off then tt
  else { tt with usage := { tt.usage with coreUs := tt.usage.coreUs + dt * s.coresHeld t,
                                          energy := tt.usage.energy + s.energyOf t } }

/-- R384: each core of a cluster that holds a workgroup of a parcel does so for dt µs more; 1 ms is kept. -/
def State.holdCluster (s : State) (dt k : Nat) (c : Cluster) : Cluster :=
  let now := s.rtime + dt
  let on := (s.workgroups.filterMap fun w => if clusterOfCore w.core = k then w.parcel.map fun p => (w.core, p) else none).dedup
  { c with held := (c.held.filter fun x => decide (now < x.1 + 1000)) ++ on.map fun x => (now, x.2, dt) }

/-- R130, R343, R384: the reference timer moves on by dt µs, which the terraces' meters and the shares of energy count. -/
def State.passTime (s : State) (dt : Nat) : State :=
  { s with rtime := s.rtime + dt, freeCount := s.freeCount + 1,
           terraces := s.terraces.zipIdx.map fun x => s.meter dt x.2 x.1,
           clusters := s.clusters.zipIdx.map fun x => s.holdCluster dt x.2 x.1 }

/-- R338: a request of a terrace with a weight reaches a controller: its tags, unless its weight is 0 or it is
management's. -/
def Channel.arrive (ch : Channel) (t weight bytes : Nat) : Channel :=
  if t ≥ 16 then { ch with waiting := ch.waiting ++ [⟨mgmt, bytes, none⟩] }
  else if weight = 0 then { ch with waiting := ch.waiting ++ [⟨t, bytes, none⟩] }
  else
    let start := max ch.v (getI 0 ch.lastFinish t)
    let fin := start + (bytes * 256 + weight - 1) / weight
    { ch with waiting := ch.waiting ++ [⟨t, bytes, some start⟩], lastFinish := setI 0 ch.lastFinish t (fin % 2 ^ 64) }

/-- R338: a waiting request is served before another: its start is less, or equal for a lower terrace. -/
def Request.before (r q : Request) : Bool :=
  match r.start, q.start with
  | some a, some b => decide (a < b) || (a == b && decide (r.terrace < q.terrace))
  | some _, none => true
  | none, _ => false

/-- R338: the request of least start, then of lowest terrace, then earliest; of weight 0 only the earliest. -/
def leastRequest : List Request → Option Request
  | [] => none
  | r :: rs => match leastRequest rs with
    | some q => if q.before r then some q else some r
    | none => some r

/-- R338: one service choice (log entry 71). Management is served in one slot of every 16, before any terrace. -/
def Channel.serve (ch : Channel) : Channel :=
  match ch.waiting.find? (fun r => r.terrace == mgmt), ch.slot with
  | some r, 0 => { ch with waiting := ch.waiting.erase r, slot := 15 }
  | _, n =>
    match leastRequest (ch.waiting.filter fun r => r.terrace != mgmt) with
    | some r => { ch with waiting := ch.waiting.erase r, v := r.start.getD ch.v, slot := n - 1 }
    | none => { ch with slot := n - 1 }

/-- R338, R343: a request of a requester for bytes at an address reaches the address's channel; the bytes count for the
address's key id. -/
def State.request (s : State) (t a bytes : Nat) : State :=
  let s := s.countBytes (s.keyOf a) bytes
  let k := s.channelOf a
  let ch := (getI .zero s.channels k).arrive t (s.terrace t).part.weight bytes
  { s with channels := setI .zero s.channels k ch }

/-- Start of host memory in physical addresses (R394). -/
abbrev hostBase : Nat := 0x0008000000000000
/-- Start of the package's management blocks (R394). -/
abbrev mmioBase : Nat := 0x0004000000000000
/-- R409: an address of host memory, which no cache holds (R410). -/
def isHost (a : Nat) : Bool := decide (hostBase ≤ a)

/-- The clocks of the writes that the home has applied to a line, joined. -/
def State.pastOf (s : State) (line : Nat) : List Nat :=
  ((s.linePast.find? fun x => x.1 == line).map (·.2)).getD []

/-- R217: a die's clock covers a clock. -/
def State.covers (s : State) (d : Nat) (past : List Nat) : Bool :=
  (List.range 64).all fun e => decide (getI 0 past e ≤ getI 0 (s.die d).clock e)

/-- Two clocks joined. -/
def joinClocks (a b : List Nat) : List Nat := (List.range 64).map fun e => max (getI 0 a e) (getI 0 b e)

/-- R217: the causal past of what a die does: what it has issued or applied, and what it has read at homes. -/
def State.causal (s : State) (d : Nat) : List Nat :=
  let dd := s.die d
  if dd.filled = [] then dd.clock else joinClocks dd.clock dd.filled

/-- R217: a die takes what a line's home holds: the writes that it has not applied yet join its past. -/
def State.noteFill (s : State) (d line : Nat) : State :=
  if s.covers d (s.pastOf line) then s
  else s.setDie d { s.die d with filled := joinClocks (s.die d).filled (s.pastOf line) }

/-- R204, R205: a line is read or (write) written in its home's cellar slice, which fetches it from its channel where
it does not hold it under its key id (R210). -/
def State.cellarTouch (s : State) (line t : Nat) (write : Bool) : State :=
  let key := s.keyOf (128 * line)
  if isHost (128 * line) then s
  else if s.cellar.any fun x => x.line == line && x.key == key then
    if write then
      { s with cellar := s.cellar.map fun x => if x.line = line then { x with dirty := true } else x }
    else s
  else
    ({ s with cellar := (s.cellar.filter fun x => x.line != line) ++ [⟨line, write, key⟩] } : State).request t
      (128 * line) 128

/-- R204: the lines of a store of slices when slice k has given up all above its capacity: those that an index, taken
modulo the slice's lines, chooses. The fuel is the number of lines. -/
def trimSlice {α : Type} [DecidableEq α] (slice : α → Nat) (victim : Nat → Nat) (k cap : Nat) : Nat → List α → List α
  | 0, xs => xs
  | n + 1, xs =>
    let mine := xs.filter fun x => slice x == k
    if mine.length ≤ cap then xs
    else match mine[victim mine.length % mine.length]? with
      | some x => trimSlice slice victim k cap n (xs.erase x)
      | none => xs

/-- R2, R204: the L2 of a die holds at most 2 MiB in each of its 32 slices. -/
def Die.trim (d : Die) (now : Nat) : Die :=
  if d.l2.length ≤ 16384 then d
  else { d with l2 := (List.range 32).foldl (fun ls k =>
    trimSlice (fun x => Config.l2Slice x.line % 32) (fun n => Config.l2Victim k n now) k 16384 ls.length ls) d.l2 }

/-- R2, R204: each of the 64 cellar slices holds at most 64 MiB, 512 MiB to a base die; a dirty line that it gives up is
written back. -/
def State.trimCellar (s : State) : State :=
  if s.cellar.length ≤ 2 ^ 19 then s
  else
    let kept := (List.range 64).foldl (fun ls k =>
      trimSlice (fun x => s.cellarSliceOf x.line) (fun n => Config.cellarVictim k n s.freeCount) k (2 ^ 19) ls.length ls)
      s.cellar
    (s.cellar.filter fun x => x.dirty && !kept.contains x).foldl (fun s x => s.request x.key (128 * x.line) 128)
      { s with cellar := kept }

/-- The bytes of a line as a die that misses on it takes them, with each one's number: none for the die's own stores on
their way. -/
def State.newL2 (s : State) (d line : Nat) : L2Line :=
  { line := line, bytes := (List.range 128).map fun i => s.missByte d (128 * line + i),
    seqs := (List.range 128).map fun i =>
      if (s.ownByte d (128 * line + i)).isSome then none else some (s.seqOf line),
    past := s.pastOf line, key := s.keyOf (128 * line),
    poison := ([0, 1, 2, 3] : List Nat).filter fun i => s.missPoison d (4 * line + i) }

/-- R204, R217: a die takes a copy of a line on a miss, numbered as the home stands, and with it the past of what the home
holds. Host memory is not held (R410); a line whose key id is not the requester's is not either, and each access of it goes
to its channel (R210). -/
def State.allocL2 (s : State) (d line t : Nat) : State :=
  if isHost (128 * line) then s.noteFill d line
  else if s.keyOf (128 * line) ≠ t then (s.noteFill d line).request t (128 * line) 128
  else if (s.l2Copy d line).isSome then s
  else
    let s := s.noteFill d line
    let dd := s.die d
    (s.setDie d { dd with l2 := (dd.l2.filter fun x => x.line != line) ++ [s.newL2 d line] }).cellarTouch line t false

/-- The lines that [a, a + n) touches. -/
def linesOf (a n : Nat) : List Nat :=
  if n = 0 then [] else (List.range (lineOf (a + n - 1) + 1 - lineOf a)).map fun i => lineOf a + i

/-- A byte put into a held line. -/
def L2Line.put (l : L2Line) (i : Nat) (b : Byte) (n : Option Nat) : L2Line :=
  { l with bytes := setI 0 l.bytes i b, seqs := setI none l.seqs i n }

/-- R207, R218: a held line takes the bytes of a write that f admits, each with the number that f gives it. A granule
that takes all its bytes anew loses its mark, and one that takes poisoned data (bad) has it. -/
def L2Line.take (l : L2Line) (a : Nat) (bytes : List Byte) (bad : List Nat)
    (f : Nat → Option Nat → Option (Option Nat)) : L2Line :=
  let hits := (bytes.zipIdx).filterMap fun x =>
    if lineOf (a + x.2) = l.line then
      (f (a + x.2) (getI none l.seqs ((a + x.2) % 128))).map fun n => ((a + x.2) % 128, x.1, n)
    else none
  let hit (g : Nat) : Nat := (hits.filter fun h => h.1 / 32 == g).length
  let l' := hits.foldl (fun l h => l.put h.1 h.2.1 h.2.2) l
  { l' with
    poison := ([0, 1, 2, 3] : List Nat).filter fun g =>
      if bad.contains (4 * l.line + g) then l.poison.contains g || decide (0 < hit g)
      else l.poison.contains g && decide (hit g < 32) }

/-- A die's lines changed at the bytes of a write. -/
def State.mapCopies (s : State) (d a : Nat) (bytes : List Byte) (bad : List Nat)
    (f : Nat → Option Nat → Option (Option Nat)) : State :=
  let dd := s.die d
  s.setDie d { dd with l2 := dd.l2.map fun l => l.take a bytes bad f }

/-- R218: a die applies its own plain store to its L2 copy at once, with no number. -/
def State.storeDie (s : State) (d a t : Nat) (bytes : List Byte) : State :=
  let s := (linesOf a bytes.length).foldl (fun s line => s.allocL2 d line t) s
  s.mapCopies d a bytes [] fun _ _ => some none

/-- R218: a received write with the home's number n. -/
def State.receive (s : State) (d a n : Nat) (bytes : List Byte) (bad : List Nat) : State :=
  s.mapCopies d a bytes bad fun _ k =>
    match k with
    | none => some (some n)
    | some m => if n < m then none else some (some n)

/-- R218: the acknowledgement of the die's own write reinstates its bytes with number n, where the die holds no number
or a lower one; a byte without a number stays where a later own store in flight covers it (R32; log entry 7). -/
def State.reinstate (s : State) (d a n id : Nat) (bytes : List Byte) (bad : List Nat) : State :=
  s.mapCopies d a bytes bad fun p k =>
    match k with
    | none => if s.flights.any fun g => g.die == d && decide (id < g.id) && !g.acked && g.covers p then none
        else some (some n)
    | some m => if m < n then some (some n) else none

/-! ## Vector clocks (R217, R401) -/

/-- A die's clock shows every entry of a write's clock, less the write itself, as applied. -/
def clockAdmits (clock stamp : List Nat) (issuer : Nat) : Bool :=
  (List.range 64).all fun e =>
    if e = issuer then decide (getI 0 stamp e ≤ getI 0 clock e + 1)
    else decide (getI 0 stamp e ≤ getI 0 clock e)

/-- The clock after applying a write of an issuer with a stamp. -/
def clockJoin (clock stamp : List Nat) (issuer : Nat) : List Nat :=
  setI 0 clock issuer (max (getI 0 clock issuer) (getI 0 stamp issuer))

/-- R217: what a die has issued, applied or read has been applied at a home's die, and so has every write of its own to
that home. -/
def State.clockCovered (s : State) (d o : Nat) : Bool :=
  (List.range 64).all (fun e => decide (getI 0 (s.causal d) e ≤ getI 0 (s.die o).clock e))
    && s.flights.all fun f => !(f.die == d && f.seq.isNone && s.homeDie f.addr == o)

/-! ## Signalled writes (R220, R226, R233) -/

/-- The root of the launch a cane belongs to. -/
def State.rootOf (s : State) (c : Cane) : Option Nat :=
  ((s.wgOf c).parcel.bind s.findParcel).map (·.root)

/-- R367: the launch of a parcel is recorded (mode 1) or replayed (mode 2) by its terrace. -/
def State.underReplay (s : State) (t : Nat) (root : Option Nat) (mode : Nat) : Bool :=
  let b := (s.terrace t).dbg
  decide (t < 16) && b.replayActive == mode && root == some b.replayRoot.toNat

/-- A terrace's debug block changed. -/
def State.updDebug (s : State) (t : Nat) (f : DebugBlock → DebugBlock) : State :=
  s.setTerrace t { s.terrace t with dbg := f (s.terrace t).dbg }

/-! ## Grants under RECORD (R368, R372) -/

/-- R368: the log has filled: recording stops. The runs that have a place in it are still written. -/
def DebugBlock.fillLog (b : DebugBlock) : DebugBlock :=
  { b with replayFull := true, replayStopped := true, runs := b.runs.filter fun x => x.index.isSome }

/-- R368, R372: a run ends: it takes the next place of the log, which fills with its last one. Its chunk is written
once it is settled (writeRuns). -/
def DebugBlock.endRun (b : DebugBlock) (r : ReplayRun) : DebugBlock :=
  let i := b.replayPos.toNat + (b.runs.filter fun x => x.index.isSome).length
  if b.replaySize.toNat ≤ i then b.fillLog
  else
    let b := { b with runs := b.runs.map fun x => if x = r then { r with index := some i } else x }
    if b.replaySize.toNat ≤ i + 1 then b.fillLog else b

/-- R368, R369: who has a grant: its workgroup's linear id and its number there (a tag and 0 for kind 4), the cane, the
token of its backlog's present instruction, and its H. -/
structure Winner where
  linear : Nat
  idx : Nat
  who : Nat
  token : Nat
  hash : Nat

/-- R366: the backlog of a cane's store hash. -/
def State.backlog? (s : State) (cane : Nat) : Option Backlog := s.backlogs.find? fun b => b.cane == cane

/-- R368: a cane as the winner of a grant. -/
def State.winner (s : State) (c : Cane) : Winner :=
  ⟨(s.wgOf c).linear, c.idx, c.id, ((s.backlog? c.id).map (·.token)).getD 0, c.hash.toNat⟩

/-- R368: a grant under RECORD. Its hash is taken when its instruction retires; kind 4 has none. -/
def DebugBlock.grant (b : DebugBlock) (kind : Nat) (place : Place) (unitId : Nat) (w : Winner) : DebugBlock :=
  let fresh : ReplayRun :=
    { kind := kind, place := place, unitId := unitId, winner := w.linear, cane := w.idx, who := w.who, token := w.token,
      length := 1, hash := w.hash, index := none, settled := kind == 4 }
  let add (b : DebugBlock) : DebugBlock := if b.replayStopped then b else { b with runs := b.runs ++ [fresh] }
  if b.replayStopped then b
  else match b.runs.find? fun r => r.kind == kind && r.place == place && r.index.isNone with
  | some r =>
    if r.winner = w.linear && r.cane = w.idx && decide (r.length < 65535) then
      { b with runs := b.runs.map fun x =>
          if x = r then { r with length := r.length + 1, hash := w.hash, who := w.who, token := w.token, settled := kind == 4 } else x }
    else add (b.endRun r)
  | none => add b

/-- R369: the place by which a unit is known: a scratch line or word is that of a workgroup's allocation, whatever
placement its phases have. -/
def State.unitPlace (s : State) : Place → Place
  | .scratch wg off =>
    match s.findWg wg with
    | some w => .scratch (2 ^ 32 * (w.parcel.getD 0 + 1) + w.linear) off
    | none => .scratch wg off
  | p => p

/-- Two ranges of one space overlap. -/
def Place.overlaps (p : Place) (n : Nat) (q : Place) (k : Nat) : Bool :=
  match p, q with
  | .glob a, .glob b => decide (a < b + k) && decide (b < a + n)
  | .scratch w a, .scratch v b => w == v && decide (a < b + k) && decide (b < a + n)
  | .fifo w a, .fifo v b => w == v && decide (a < b + k) && decide (b < a + n)
  | .decant t h a, .decant u g b => t == u && h == g && decide (a < b + k) && decide (b < a + n)
  | _, _ => false

/-- A signalled write of n bytes at p wakes the canes that wait on it and sets the watches' hit bits, for
a cane of the die that performs it. A wake that is replayed passes the gate of its word first, which is known by its
unit's place. -/
def Cane.signalled (c : Cane) (d : Nat) (p : Place) (n : Nat) (gated : Option Place) : Cane :=
  if !c.live || dieOfCore c.core != d then c
  else
    let c := match c.watch.word with
      | some w => if p.overlaps n w 8 then { c with watch := { c.watch with hit := true } } else c
      | none => c
    match c.wait with
    | .waitAddr w _ =>
      if p.overlaps n w 8 then { c with wait := (gated.map (Wait.gate 2)).getD .none, answer := some 1 }
      else c
    | .ring slot hdr =>
      if p.overlaps n slot 64 || p.overlaps n hdr 64 then { c with wait := .none } else c
    | .task slot => if p.overlaps n slot 128 then { c with wait := .none } else c
    | _ => c

/-- R226: the word that a cane of a die waits on, which a signalled write of n bytes at p reaches. -/
def Cane.awaits (c : Cane) (d : Nat) (p : Place) (n : Nat) : Option Place :=
  match c.wait with
  | .waitAddr w _ => if c.live && dieOfCore c.core == d && p.overlaps n w 8 then some w else none
  | _ => none

/-- A list in ascending order of a key; equal ones keep their order. -/
def insertOn {α : Type} (key : α → Nat) (x : α) : List α → List α
  | [] => [x]
  | y :: ys => if key x < key y then x :: y :: ys else y :: insertOn key x ys

/-- R368: the canes that a signalled write wakes, in wake order: ascending linear id, then cane. -/
def State.woken (s : State) (d : Nat) (p : Place) (n : Nat) : List Cane :=
  (s.canes.filter fun c => (c.awaits d p n).isSome).foldl
    (fun cs c => insertOn (fun (c : Cane) => 2 ^ 32 * (s.wgOf c).linear + c.idx) c cs) []

/-- R368: a wake under RECORD is a grant of its word's monitor unit. -/
def State.recordWake (d : Nat) (p : Place) (n : Nat) (s : State) (c : Cane) : State :=
  let t := (s.wgOf c).terrace
  match c.awaits d p n with
  | some w =>
    if s.underReplay t (s.rootOf c) 1 then
      s.updDebug t fun b => b.grant 2 (s.unitPlace w) (c.stageArg / 8 * 8) (s.winner c)
    else s
  | none => s

/-- A signalled write is looked up in a die's monitor table. -/
def State.monitorWake (s : State) (d : Nat) (p : Place) (n : Nat) : State :=
  let s := (s.woken d p n).foldl (State.recordWake d p n) s
  let dd := s.die d
  (s.setDie d { dd with monitor := dd.monitor.filter fun e => !p.overlaps n e.word 8 }).mapCanes
    fun c => c.signalled d p n (if s.underReplay (s.wgOf c).terrace (s.rootOf c) 2 then (c.awaits d p n).map s.unitPlace else none)

/-- A cane leaves the monitor tables: an entry without canes is free. -/
def State.unmonitor (s : State) (gone : Nat → Bool) : State :=
  { s with dies := s.dies.map fun d => { d with monitor := (d.monitor.map fun e =>
      { e with canes := e.canes.filter fun c => !gone c }).filter fun e => e.canes ≠ [] } }

/-! ## Writes on their way (R212, R217, R218) -/

/-- A run of bytes cut at line boundaries. -/
def splitLines (a : Nat) (bytes : List Byte) : List (Nat × List Byte) :=
  let n := 128 - a % 128
  if bytes.length ≤ n then [(a, bytes)]
  else (a, bytes.take n) :: ((List.range (bytes.length / 128 + 1)).map fun i =>
    (a + n + 128 * i, ((bytes.drop n).drop (128 * i)).take 128)).filter fun x => x.2 ≠ []

/-- R217, R337: the other dies of a launch's rectangle: those that its terrace's filter names. -/
def State.inRectangle (s : State) (t e : Nat) : Bool := t ≥ 16 || (s.terrace t).part.nbdie.getLsbD (dieNumber e)
/-- R217: a die's write leaves the die: its home, or another die that hears of it, is elsewhere. -/
def State.leaves (s : State) (d t a : Nat) : Bool :=
  s.homeDie a != d || ([0, 1, 2, 3] : List Nat).any fun e => e != d && s.inRectangle t e
/-- R217: a die's clock after a write of its own: it counts those that leave the die. -/
def State.nextClock (s : State) (d t a : Nat) : List Nat :=
  let clock := (s.die d).clock
  if s.leaves d t a then setI 0 clock (dieNumber d) (getI 0 clock (dieNumber d) + 1) else clock
/-- R217: the clock that such a write carries. -/
def State.nextStamp (s : State) (d t a : Nat) : List Nat :=
  let filled := (s.die d).filled
  if filled = [] then s.nextClock d t a else joinClocks (s.nextClock d t a) filled
/-- R212: a cane's counters take a store or an atomic. -/
def State.countWrite (s : State) (cane : Option Nat) (inWcnt : Bool) : State :=
  match cane with
  | some id => s.updCane id fun c =>
      { c with wcnt := c.wcnt + (if inWcnt then 1 else 0), dcnt := c.dcnt + 1, hcnt := c.hcnt + 1 }
  | none => s

/-- One write of one line leaves a die: its own copy changes at once (R218), its clock counts it (R217),
and a signalled write is looked up at the die (R220). -/
def State.launchWrite (s : State) (d t : Nat) (cane parcel : Option Nat) (signalled inWcnt : Bool)
    (a : Nat) (bytes : List Byte) : State :=
  let s := s.storeDie d a t bytes
  let clock := s.nextClock d t a
  let stamp := s.nextStamp d t a
  let s := s.setDie d { s.die d with clock := clock }
  let f : Flight :=
    { id := s.nextId, die := d, terrace := t, cane := cane, parcel := parcel, addr := a, bytes := bytes,
      signalled := signalled, stamp := stamp, inWcnt := inWcnt, l2Acked := cane.isNone, seq := none,
      acked := false, bad := [], whole := s.nextId, leaves := s.leaves d t a, todo := [], origin := none }
  let s := ({ s with nextId := s.nextId + 1, flights := s.flights ++ [f] } : State).countWrite cane inWcnt
  if signalled && !isHost a then s.monitorWake d (.glob a) bytes.length else s

/-- A write of any bytes, cut into its lines. -/
def State.issueWrite (s : State) (d t : Nat) (cane parcel : Option Nat) (signalled inWcnt : Bool)
    (a : Nat) (bytes : List Byte) : State :=
  (splitLines a bytes).foldl
    (fun s x => s.launchWrite d t cane parcel signalled inWcnt x.1 x.2) s

/-- The other dies of the package, which apply a write that leaves its die: those in the rectangle its data or its stamp
beat, and the others its count alone (R217, R337; log entry 65). -/
def otherDies (leaves : Bool) (xs : List Nat) : List Nat :=
  if leaves then [0, 1, 2, 3].filter fun d => !xs.contains d else []

/-- The home numbers a write to a line, which carries a clock (R218, R217). -/
def State.bumpSeq (s : State) (line : Nat) (stamp : List Nat) : State :=
  let n := s.seqOf line + 1
  { s with lineSeq := (line, n) :: s.lineSeq.filter fun x => x.1 != line,
           linePast := (line, joinClocks stamp (s.pastOf line))
             :: s.linePast.filter fun x => x.1 != line }

/-- R207: the home takes the bytes of a write, numbered, with their marks; the line is dirty in its cellar slice. -/
def State.homeTake (s : State) (t a : Nat) (bytes : List Byte) (bad : List Nat) (stamp : List Nat) : State :=
  let s := ((s.bumpSeq (lineOf a) stamp).writeHomeBytes a bytes).cellarTouch (lineOf a) t true
  { s with poison := markPoison s.poison a bytes.length bad }

/-- R219, R36: bytes replaced at the press of the owning slice: the home holds them at once, numbered;
the issuing die and the owner die apply them with that number, and the other dies receive them. An atomic of a cane
counts until it is acknowledged (R212, R232). The cellar slice always owns the line: an L2 slice that held it exclusive
(R205 lets it) would press it with the same result (DESIGN CHOICE, log entry 27). -/
def State.pressWrite (s : State) (d t : Nat) (cane parcel : Option Nat) (signalled inWcnt : Bool) (a : Nat)
    (bytes : List Byte) (bad : List Nat) : State :=
  let me := dieNumber d
  let clock := s.nextClock d t a
  let stamp := s.nextStamp d t a
  let s := s.homeTake t a bytes bad stamp
  let n := s.seqOf (lineOf a)
  let o := s.homeDie a
  let s := (s.receive d a n bytes bad).receive o a n bytes bad
  let s := s.setDie d { s.die d with clock := clock }
  let od := s.die o
  let s := s.setDie o { od with clock := clockJoin od.clock clock me }
  let leaves := s.leaves d t a
  let f : Flight :=
    { id := s.nextId, die := d, terrace := t, cane := cane, parcel := parcel, addr := a, bytes := bytes,
      signalled := signalled, stamp := stamp, inWcnt := inWcnt, l2Acked := cane.isNone, seq := some n,
      acked := cane.isNone, bad := bad, whole := s.nextId, leaves := leaves,
      todo := otherDies leaves [d, o], origin := none }
  let s := ({ s with nextId := s.nextId + 1,
                     flights := if f.acked && f.todo = [] then s.flights else s.flights ++ [f] } : State).countWrite cane
    inWcnt
  if signalled && !isHost a then
    (s.monitorWake d (.glob a) bytes.length).monitorWake o (.glob a) bytes.length
  else s

/-- R394: an address in the memory of another package, of which the model has none (log entry 23). -/
def absentPackage (a : Nat) : Bool := decide (2 ^ 38 ≤ a) && decide (a < 2 ^ 42)

/-! ## Paths between dies (R337, R392, R398, R402) -/

/-- R398: the output of a die's router toward a die of the domain for a terrace. -/
def State.routeRow (s : State) (d t dest : Nat) : Nat :=
  (Memory.read (s.die d).router (128 * t + dest)).toNat

/-- R392: the die of the package behind an output, and the UCIe link to it. -/
def neighbour (d out : Nat) : Option (Nat × Nat) :=
  match d, out with
  | 0, 1 => some (1, 16) | 1, 3 => some (0, 16)
  | 0, 2 => some (2, 17) | 2, 4 => some (0, 17)
  | 1, 2 => some (3, 18) | 3, 4 => some (1, 18)
  | 2, 1 => some (3, 19) | 3, 3 => some (2, 19)
  | _, _ => none

/-- How a request travels. -/
inductive PathState where
  | arrives
  /-- Refused by the filter (R337). -/
  | refused
  /-- It meets a down link, or rows that do not lead to its die. -/
  | lost
  deriving DecidableEq, Repr

/-- R391, R392: the die of another package behind an output of a die, and the first of the two ports that face it. -/
def beyondPort (d out : Nat) : Option (Nat × Nat) :=
  let x := dieNumber d % 8
  let y := dieNumber d / 8
  match out with
  | 1 => if d % 2 = 1 then some (8 * y + x + 1, 4 * d) else none
  | 3 => if d % 2 = 0 && decide (0 < x) then some (8 * y + x - 1, 4 * d) else none
  | 2 => if 2 ≤ d then some (8 * (y + 1) + x, 4 * d + 2) else none
  | 4 => if d < 2 && decide (0 < y) then some (8 * (y - 1) + x, 4 * d + 2) else none
  | _ => none

/-- R337, R392, R402: a terrace's request for a line leaves the package: refused where NBDIE does not name the die
behind the port or NBPORT the port, else lost, since no other package is enabled (log entry 23). -/
def State.leavePackage (s : State) (t line d out : Nat) : PathState :=
  match beyondPort d out with
  | none => .lost
  | some (e, port) =>
    let p := (s.terrace t).part
    if p.nbdie.getLsbD e && p.nbport.getLsbD (port + if Config.secondPort line then 1 else 0) then .lost else .refused

/-- R337, R398, R402: the way of a terrace's request for a line to a die of the domain, by its number, along the rows,
at most 14 hops. -/
def State.routeLine (s : State) (t line dest : Nat) : Nat → Nat → PathState
  | 0, _ => .lost
  | n + 1, d =>
    if !(s.terrace t).part.nbdie.getLsbD (dieNumber d) then .refused
    else if dieNumber d = dest then .arrives
    else match neighbour d (s.routeRow d t dest) with
      | none => s.leavePackage t line d (s.routeRow d t dest)
      | some (e, link) =>
        if (getI .up s.links link).down then .lost else s.routeLine t line dest n e

/-- The way to a die of the package. -/
def State.route (s : State) (t dest n d : Nat) : PathState := s.routeLine t 0 (dieNumber dest) n d

/-- R391: the number of the home's die: of the package whose memory holds the address. -/
def State.homeNumber (s : State) (pa : Nat) : Nat :=
  let p := if absentPackage pa then pa / 2 ^ 38 else 0
  let k := s.homeDie pa
  8 * (2 * (p / 4) + k / 2) + 2 * (p % 4) + k % 2

/-- The way of a request from a die to the home of a physical address. Management traffic and what stays
on the die pass no filter. -/
def State.pathTo (s : State) (t d pa : Nat) : PathState :=
  if t ≥ 16 || s.homeNumber pa = dieNumber d then .arrives else s.routeLine t (lineOf pa) (s.homeNumber pa) 15 d

/-- The die holds the whole line in its L2. -/
def State.heldAt (s : State) (d pa n : Nat) : Bool :=
  (linesOf pa n).all fun l => (s.l2Copy d l).isSome

/-- R392, R402: what a die sends to another for a terrace arrives. -/
def State.reaches (s : State) (t d e : Nat) : Bool :=
  d == e || decide (16 ≤ t) || s.route t e 15 d == .arrives

/-! ## The clock-crossing FIFO (R377) -/

/-- R377: n request beats enter the outbound FIFO of a core's cluster (log entry 71). -/
def State.beats (s : State) (core n : Nat) : State :=
  if core < 512 then
    let k := clusterOfCore core
    s.setCluster k { s.cluster k with outbound := (s.cluster k).outbound + n }
  else s

/-- R377: room in the outbound FIFO of a core's cluster; the management cores have none. -/
def State.outboundRoom (s : State) (core n : Nat) : Bool :=
  decide (512 ≤ core) || decide ((s.cluster (clusterOfCore core)).outbound + n ≤ 32)

/-- R377: room in the inbound FIFO of a core's cluster. -/
def State.inboundRoom (s : State) (core n : Nat) : Bool :=
  decide (512 ≤ core) || decide ((s.cluster (clusterOfCore core)).inbound + n ≤ 32)

/-- R377: n response beats enter the inbound FIFO of a core's cluster. -/
def State.inboundBeats (s : State) (core n : Nat) : State :=
  if core < 512 then
    let k := clusterOfCore core
    s.setCluster k { s.cluster k with inbound := (s.cluster k).inbound + n }
  else s

/-- R377: the issuing cane's instruction has n request beats by now. Those that have not entered the outbound FIFO do so;
where it does not take them all, those that it takes enter, and the instruction waits. -/
def State.enter (s : State) (n : Nat) (effect : State → State) : State :=
  let core := s.cur.core
  let k := n - s.cur.entered
  if s.outboundRoom core k then effect ((s.beats core k).updCur fun c => { c with entered := max c.entered n })
  else
    let r := 32 - (s.cluster (clusterOfCore core)).outbound
    (s.beats core r).updCur fun c => { c with entered := c.entered + r, wait := .fifo, pipe := none }

/-! ## Translation (R323 to R325, R336, R394, R409) -/

/-- The permissions an access needs (R323). -/
structure Need where
  r : Bool
  w : Bool
  x : Bool
  deriving DecidableEq, Repr

/-- Loads and engine reads. -/
abbrev needR : Need := ⟨true, false, false⟩
/-- Stores and engine writes. -/
abbrev needW : Need := ⟨false, true, false⟩
/-- Atomics, RED, rings and parcel records. -/
abbrev needRW : Need := ⟨true, true, false⟩
/-- Fetch. -/
abbrev needX : Need := ⟨false, false, true⟩

/-- R310: the access code of a translation entry. -/
def Need.code (n : Need) : Nat := if n.x then 2 else if n.w then 1 else 0

/-- One stage's mapping of a page. -/
structure PageMap where
  va : Nat
  size : Nat
  pa : Nat
  r : Bool
  w : Bool
  x : Bool
  deriving DecidableEq, Repr

/-- R323: what a walk of one stage finds: a leaf, no valid entry, or a table that the next stage does not
map. -/
inductive Walked where
  | leaf (m : PageMap)
  | invalid
  | blocked
  deriving DecidableEq, Repr

/-- R323: the levels of a walk from a table: per level the index bits' place, the page's log size and the
log size of the next table. -/
def walkLevels (rd : Nat → Option Dword) (va : Nat) : Nat → List (Nat × Nat × Nat) → Walked
  | _, [] => .invalid
  | table, (width, page, next) :: rest =>
    match rd (table + 8 * (va / 2 ^ page % 2 ^ width)) with
    | none => .blocked
    | some e =>
      let addr := (e.extractLsb' 8 44).toNat * 256
      if !e.getLsbD 0 || e.extractLsb' 5 3 != 0 || e.extractLsb' 52 12 != 0 then .invalid
      else if e.getLsbD 1 then
        if rest = [] || addr % 2 ^ next != 0 then .invalid else walkLevels rd va addr rest
      else if addr % 2 ^ page != 0 then .invalid
      else .leaf ⟨va / 2 ^ page * 2 ^ page, 2 ^ page, addr, e.getLsbD 2, e.getLsbD 3, e.getLsbD 4⟩

/-- R323: one stage's walk from its root. -/
def walkStage (rd : Nat → Option Dword) (base l va : Nat) : Walked :=
  if 2 ^ (30 + l) ≤ va then .invalid
  else walkLevels rd va base [(l, 30, 12), (9, 21, 8), (5, 16, 0)]

/-- R336, R409: a stage-2 leaf lies wholly in a used region of its terrace, or in its host aperture. -/
def State.leafAllowed (s : State) (t : Nat) (m : PageMap) : Bool :=
  let tt := s.terrace t
  (tt.part.regions.any fun r =>
      decide (r.size ≠ 0) && decide (r.base ≤ m.pa) && decide (m.pa + m.size ≤ r.base + r.size))
    || (decide (hostBase + tt.aperture.1 ≤ m.pa)
      && decide (m.pa + m.size ≤ hostBase + tt.aperture.1 + tt.aperture.2))

/-- R207: a table entry as a walk reads it at a die; one in a poisoned granule is no valid entry (DESIGN CHOICE, log entry
76: its data is not used as a value, and R323 has no case for it). -/
def State.tableEntry (s : State) (d pa : Nat) : Dword :=
  if s.poisonedAt d pa 8 then 0 else BitVec.ofNat 64 (leNat (s.dieBytes d pa 8))

/-- Stage 2: an intermediate physical address of a terrace, walked at a die. -/
def State.stage2 (s : State) (d t ipa : Nat) : Option PageMap :=
  match walkStage (fun a => some (s.tableEntry d a)) (s.terrace t).part.s2root 22 ipa with
  | .leaf m => if s.leafAllowed t m then some m else none
  | _ => none

/-- R323, R337: an entry of a terrace's own table as a walk reads it at a die; where the read's path does not arrive there is
no valid entry (DESIGN CHOICE, log entry 76). -/
def State.ownEntry (s : State) (d t pa : Nat) : Dword :=
  if s.pathTo t d pa == .arrives || s.heldAt d pa 8 then s.tableEntry d pa else 0

/-- What a whole walk finds (R324, R325). -/
inductive WalkResult where
  | ok (e : TlbEntry)
  | miss1
  | miss2
  /-- The virtual device has no stage-1 root. -/
  | noRoot
  deriving DecidableEq, Repr

/-- R259: the valid decant buffer of a terrace that holds an address, with its handle. -/
def State.decantAt (s : State) (t va : Nat) : Option (Nat × DecantEntry) :=
  ((((s.terrace t).decants).zipIdx).find? fun x =>
    x.1.valid && decide (x.1.base ≤ va) && decide (va < x.1.base + x.1.size)).map fun x => (x.2, x.1)

/-- R259: the intermediate physical address of an offset in a backing. -/
def DecantEntry.ipa (e : DecantEntry) (live : Bool) (off : Nat) : Nat := (if live then e.back1 else e.back0) + off

/-- R259, R260, R262: an address of a decant buffer at a die: its live copy there, through stage 2. -/
def State.decantWalk (s : State) (d t va : Nat) (e : DecantEntry) : WalkResult :=
  let ipa := e.ipa (getI e.live e.seen d) (va / 65536 * 65536 - e.base)
  match s.stage2 d t ipa with
  | none => .miss2
  | some m => .ok { terrace := t, vdev := 0, va := va / 65536 * 65536, size := 65536, pa := m.pa + (ipa - m.va),
                    r := m.r, w := m.w, x := m.x }

/-- Both stages for an address of a terrace's virtual device (R323). -/
def State.walk (s : State) (d t v va : Nat) : WalkResult :=
  match s.decantAt t va with
  | some x => s.decantWalk d t va x.2
  | none =>
  match getI none (s.terrace t).roots v with
  | none => .noRoot
  | some root =>
    let rd (ipa : Nat) : Option Dword :=
      (s.stage2 d t ipa).map fun m => s.ownEntry d t (m.pa + (ipa - m.va))
    match walkStage rd root.base root.l va with
    | .invalid => .miss1
    | .blocked => .miss2
    | .leaf m =>
      let ipa := m.pa + (va - m.va)
      match s.stage2 d t ipa with
      | none => .miss2
      | some m2 =>
        let size := min m.size m2.size
        let base := va / size * size
        .ok { terrace := t, vdev := v, va := base, size := size,
              pa := m2.pa + (m.pa + (base - m.va) - m2.va),
              r := m.r && m2.r, w := m.w && m2.w, x := m.x && m2.x }

/-- A cached translation that covers an address. -/
def TlbEntry.covers (e : TlbEntry) (t v va : Nat) : Bool :=
  e.terrace == t && e.vdev == v && decide (e.va ≤ va) && decide (va < e.va + e.size)

/-- The permissions of a cached translation suffice. -/
def TlbEntry.admits (e : TlbEntry) (n : Need) : Bool :=
  (!n.r || e.r) && (!n.w || e.w) && (!n.x || e.x)

/-- R394: the physical addresses that exist in the model's package: its device memory, its management
blocks, host memory. -/
def physExists (a : Nat) : Bool :=
  decide (a < 2 ^ 38) || (decide (mmioBase ≤ a) && decide (a < mmioBase + 2 ^ 32))
    || (decide (hostBase ≤ a) && decide (a < 2 ^ 52))

/-- R394: an address in the management blocks. -/
def isMmio (a : Nat) : Bool := decide (mmioBase ≤ a) && decide (a < mmioBase + 2 ^ 32)

/-- R345: a page of a terrace's usage log, which only the device writes. -/
def State.inUsageLog (s : State) (a : Nat) : Bool :=
  (List.range 16).any fun t =>
    let p := (s.terrace t).part
    decide (p.state ≠ .off) && decide (p.logArea ≤ a / 4096 * 4096 + 4095)
      && decide (a / 4096 * 4096 < p.logArea + 192 * 2 ^ p.logOrder)

/-- What a translation of one address gives an instruction. -/
inductive Trans where
  | ok (pa : Nat)
  /-- Refused: PROTECTION. -/
  | deny
  /-- Not cached: a walk is needed. -/
  | miss
  deriving DecidableEq, Repr

/-- R201 step 5: the translation of one address for a cane under a virtual device. Canes of the
management complex use physical addresses (R34, R431). -/
def State.translate (s : State) (c : Cane) (t v : Nat) (va : Nat) (n : Need) : Trans :=
  if t ≥ 16 then
    if physExists va && !(n.w && s.inUsageLog va) then .ok va else .deny
  else if c.denied.contains (va / 65536) then .deny
  else match s.decantAt t va with
  | some x => (match s.decantWalk (dieOfCore c.core) t va x.2 with
    | .ok e => if e.admits n && !(n.w && s.inUsageLog (e.pa + (va - e.va))) then .ok (e.pa + (va - e.va)) else .deny
    | _ => .miss)
  | none =>
  match getI none (s.terrace t).roots v with
    | none => .deny
    | some _ =>
      let hit := ((s.core c.core).utlb ++ (s.cluster (clusterOfCore c.core)).tlb).find?
        fun e => e.covers t v va
      match hit with
      | none => .miss
      | some e =>
        let pa := e.pa + (va - e.va)
        if e.admits n && !(n.w && s.inUsageLog pa) then .ok pa else .deny

/-- R324: the µTLB takes a translation the cluster TLB holds; a miss of the µTLB is counted (R354). -/
def State.touchTlb (s : State) (core t v va : Nat) : State :=
  if t ≥ 16 then s
  else
    let c := s.core core
    if c.utlb.any fun e => e.covers t v va then s
    else
      let c := { c with perf := setI 0 c.perf 0x022 (getI 0 c.perf 0x022 + 1) }
      match (s.cluster (clusterOfCore core)).tlb.find? fun e => e.covers t v va with
      | some e => s.setCore core { c with utlb := (e :: c.utlb).take 64 }
      | none => s.setCore core c

/-- R324: a walk of a page begins on a core's die, when one of its 128 walks is free and none is under way for the
page. A walk started for the core is counted (R354). -/
def State.beginWalk (s : State) (core t v page access : Nat) : State :=
  let d := dieOfCore core
  let dd := s.die d
  if (dd.walks.any fun w => w.terrace == t && w.vdev == v && w.page == page) || decide (128 ≤ dd.walks.length) then s
  else
    let cc := s.core core
    let s := s.setCore core { cc with perf := setI 0 cc.perf 0x023 (getI 0 cc.perf 0x023 + 1) }
    { s.setDie d { dd with walks := dd.walks ++
        [{ id := s.nextId, die := d, core := core, terrace := t, vdev := v, page := page, access := access }] } with
      nextId := s.nextId + 1 }

/-- R324, R325: the issuing cane waits for the translation of a page: on the entry that is pending for
it, on a walk already begun, or on a new walk of its die, which begins once one of the die's walks is free. A cane in
an exit routine waits for no answer (R330): its walk decides. The request for a walk is a beat of the outbound FIFO
(R377). -/
def State.awaitTranslation (s : State) (t v va : Nat) (n : Need) : State :=
  let c := s.cur
  let page := va / 65536
  match s.transEntries.find? fun e =>
      c.routine != .exit && e.terrace == t && e.vdev == v && e.page == page && e.access == n.code with
  | some e => s.updCur fun c => { c with wait := .service e.id, need := n.code }
  | none =>
    if s.outboundRoom c.core 1 then
      ((s.beats c.core 1).beginWalk c.core t v page n.code).updCur fun c => { c with wait := .walk page v, need := n.code }
    else s.updCur fun c => { c with wait := .fifo }

/-! ## The device's own accesses -/

/-- Whose addresses the device uses when it acts for a workgroup or a parcel, and at which die. -/
structure Ctx where
  terrace : Nat
  vdev : Nat
  die : Nat
  parcel : Option Nat
  deriving DecidableEq, Repr

/-- The context of a workgroup (R432, R433). -/
def Workgroup.ctx (w : Workgroup) : Ctx := ⟨w.terrace, w.vdev, dieOfCore w.core, w.parcel⟩
/-- The context of a parcel. -/
def Parcel.ctx (p : Parcel) : Ctx := ⟨p.terrace, p.vdev, p.die, some p.id⟩

/-- The physical address of a context's address, when it translates with the permissions; a page of a usage log is
not written (R345), and another package's memory is not reached (R394). What its terrace's filters refuse is not reached
either (R337), and over a down link nothing is read (R402; writes wait for a path, log entry 57). -/
def State.ctxTranslate (s : State) (x : Ctx) (va : Nat) (n : Need) : Option Nat :=
  let fit (pa : Nat) : Option Nat := if n.w && s.inUsageLog pa then none else some pa
  if x.terrace ≥ 16 then if physExists va then fit va else none
  else match s.walk x.die x.terrace x.vdev va with
    | .ok e =>
      let pa := e.pa + (va - e.va)
      if e.admits n && !absentPackage pa then
        match s.pathTo x.terrace x.die pa with
        | .arrives => fit pa
        | .refused => none
        | .lost => if n.w then fit pa else none
      else none
    | _ => none

/-- Every 64 KiB page of a range translates (R432, R433). -/
def State.ctxPagesOk (s : State) (x : Ctx) (va n : Nat) (need : Need) : Bool :=
  (List.range (((va + n - 1) / 65536 + 1) - va / 65536)).all fun i =>
    (s.ctxTranslate x (max va ((va / 65536 + i) * 65536)) need).isSome

/-- R207: a granule of a range of a context is poisoned as its die reads it. -/
def State.ctxPoisoned (s : State) (x : Ctx) (va n : Nat) : Bool :=
  (granules va n).any fun g =>
    (s.ctxTranslate x (max va (32 * g)) needR).any fun pa => s.granulePoison x.terrace x.die (pa / 32)

/-- n bytes read through a context, when every page translates and no granule is poisoned (R207). -/
def State.ctxRead (s : State) (x : Ctx) (va n : Nat) : Option (List Byte) :=
  if n = 0 then some []
  else if s.ctxPagesOk x va n needR && !s.ctxPoisoned x va n then
    some ((List.range n).map fun i =>
      match s.ctxTranslate x (va + i) needR with
      | some pa => s.byteFor x.terrace x.die pa
      | none => 0#8)
  else none

/-- Bytes written through a context; a page that does not translate is not written. -/
def State.ctxWrite (s : State) (x : Ctx) (va : Nat) (bytes : List Byte) (signalled : Bool) : State :=
  (splitLines va bytes).foldl (fun s c =>
    match s.ctxTranslate x c.1 needW with
    | some pa => s.issueWrite x.die x.terrace none x.parcel signalled false pa c.2
    | none => s) s

/-- R171, R289: an N64 counter incremented at the press as a signalled release. The press refuses a poisoned one
(R209). -/
def State.ctxIncrement (s : State) (x : Ctx) (va : Nat) (signalled : Bool) : State :=
  match s.ctxTranslate x va needRW with
  | some pa =>
    let v := leNat ((List.range 8).map fun i => s.homeByte (pa + i))
    if s.poisoned pa 8 then s
    else s.pressWrite x.die x.terrace none x.parcel signalled false pa (leBytes 8 ((v + 1) % 2 ^ 64)) []
  | none => s

/-- n bytes of a context at their homes, when every page translates and none of them is poisoned (R209). -/
def State.ctxHomeRead (s : State) (x : Ctx) (va n : Nat) : Option (List Byte) :=
  (List.range n).mapM fun i => (s.ctxTranslate x (va + i) needR).bind fun pa =>
    if s.poisoned pa 1 then none else some (s.homeByte pa)

/-- R217, R219: bytes of a context written at the press, once their home has applied what the die shows. -/
def State.ctxPress (s : State) (x : Ctx) (va : Nat) (bytes : List Byte) (signalled : Bool) : State :=
  (splitLines va bytes).foldl (fun s c =>
    match s.ctxTranslate x c.1 needW with
    | some pa => s.pressWrite x.die x.terrace none x.parcel signalled false pa c.2 []
    | none => s) s

/-- The context of a waiting update. -/
def Post.ctx (q : Post) : Ctx := ⟨q.terrace, q.vdev, q.die, q.parcel⟩

/-- R304, R310: an update of a context's header that waits for some writes, and for the updates of the same bytes before
it. -/
def State.post (s : State) (x : Ctx) (waits : List Nat) (va : Nat) (bytes : List Byte) (signalled : Bool) : State :=
  { s with posts := s.posts ++ [⟨x.terrace, x.vdev, x.die, x.parcel, waits, va, bytes, signalled⟩] }

/-- R304, R310: bytes of a context are written, and once they are performed at dom scope its header is updated by a signalled
write. -/
def State.postAfter (s : State) (x : Ctx) (dataVa : Nat) (data : List Byte) (va : Nat) (bytes : List Byte) : State :=
  let t := s.ctxWrite x dataVa data false
  t.post x ((t.flights.drop s.flights.length).map (·.id)) va bytes true

/-- A byte of a context as it will be once the updates that wait are made. -/
def State.postedByte (s : State) (x : Ctx) (va : Nat) (b : Byte) : Byte :=
  s.posts.foldl (fun b q =>
    if q.terrace == x.terrace && q.vdev == x.vdev && decide (q.va ≤ va) && decide (va < q.va + q.bytes.length) then
      getI 0 q.bytes (va - q.va)
    else b) b

/-- n bytes of a context at their homes, with the updates that wait made. -/
def State.ctxPosted (s : State) (x : Ctx) (va n : Nat) : Option (List Byte) :=
  (s.ctxHomeRead x va n).map fun bs => bs.zipIdx.map fun b => s.postedByte x (va + b.2) b.1

/-- Two updates write a byte of one context. -/
def Post.meets (p q : Post) : Bool :=
  p.terrace == q.terrace && p.vdev == q.vdev && decide (p.va < q.va + q.bytes.length) && decide (q.va < p.va + p.bytes.length)

/-- R217, R304, R310: an update may be made: the writes before it are performed at dom scope, no earlier update of its bytes
waits, and its home has applied what its die shows. -/
def State.postDue (s : State) (q : Post) : Bool :=
  q.waits.all (fun n => !(s.flights.any fun f => f.id == n && !f.acked))
    && (s.posts.find? fun p => p.meets q) == some q
    && (match s.ctxTranslate q.ctx q.va needW with
      | some pa => s.reaches q.terrace q.die (s.homeDie pa) && s.clockCovered q.die (s.homeDie pa)
      | none => true)

/-- The updates that may be made are. -/
def State.settlePosts (s : State) : State :=
  s.posts.foldl (fun s q =>
    if s.postDue q then ({ s with posts := s.posts.erase q } : State).ctxPress q.ctx q.va q.bytes q.signalled else s) s

/-! ## Naming code (R303) -/

/-- The region of an instruction address. -/
def LinkedImage.regionAt (im : LinkedImage) (pc : Nat) : Option Region :=
  im.regions.find? fun r => decide (im.text + r.first ≤ pc) && decide (pc < im.text + r.last)

/-- The stop-point ordinal of an instruction with T = 1, else 0xFFFF_FFFF (R303). -/
def LinkedImage.ordinalAt (im : LinkedImage) (pc : Nat) (stop : Bool) : Nat :=
  if stop then
    ((im.stops.find? fun x => decide (im.text + x.off = pc)).map (·.ordinal)).getD 0xFFFFFFFF
  else 0xFFFFFFFF

/-- The name of an instruction; code in no region names region 0 and its offset from `.text` (log
entry 8). -/
def LinkedImage.codeName (im : LinkedImage) (pc : Nat) (stop : Bool) : CodeName :=
  let r := im.regionAt pc
  let off := pc - (im.text + ((r.map (·.first)).getD 0))
  ⟨(r.map (·.id)).getD 0, im.ordinalAt pc stop, off % 65536, decide (65536 ≤ off)⟩

/-- The linked image a cane runs. -/
def State.imageOf (s : State) (c : Cane) : LinkedImage := s.image (s.wgOf c).terrace

/-! ## Fault records (R304 to R308) -/

/-- R306: a lane entry. -/
structure LaneFault where
  lane : Nat
  cause : Cause
  size : Nat
  kind : Nat
  addr : Nat
  deriving DecidableEq, Repr

/-- R306: bytes [7:4] of a lane entry: the stack as it stands. -/
def Cane.stackWord (c : Cane) (regionFirst : Nat) : Nat :=
  match c.stack with
  | [] => 0
  | e :: _ => c.stack.length + (if e.kind = .pending then 32 else 0)
      + (e.pc.toNat + 2 ^ 64 - regionFirst) % 65536 * 65536

/-- R306: the 16 bytes of a lane entry. -/
def laneEntry (stackWord : Nat) (f : LaneFault) : List Byte :=
  leBytes 1 f.lane ++ leBytes 1 f.cause.code ++ leBytes 1 (if 255 < f.size then 0 else f.size)
    ++ leBytes 1 f.kind ++ leBytes 4 stackWord ++ leBytes 8 f.addr

/-- R305: a record's header. -/
structure RecordHead where
  cause : Cause
  flags : Nat
  lanes : Nat
  mask : Mask
  name : CodeName
  cane : Nat
  linear : Nat
  /-- The slot of the cane that it is written for, which the trace unit names (R364); 0xFF for none. -/
  slot : Nat
  deriving DecidableEq, Repr

/-- R305: the bytes of a record for the parcel that receives it. -/
def RecordHead.bytes (h : RecordHead) (parcel : Nat) : List Byte :=
  leBytes 1 h.cause.code ++ leBytes 1 (h.flags + if h.name.long then 8 else 0) ++ leBytes 1 h.lanes
    ++ leBytes 1 0 ++ leBytes 4 h.mask.toNat ++ leBytes 4 h.name.region ++ leBytes 4 h.name.ordinal
    ++ leBytes 2 h.name.offset ++ leBytes 2 h.cane ++ leBytes 4 h.linear ++ leBytes 8 parcel

/-- R365: an event enters a die's core sample. -/
def State.sampleEvent (s : State) (d : Nat) (kind terrace core : Nat) (body : List Byte) : State :=
  let dd := s.die d
  let sm := dd.sample
  let slot := leBytes 1 kind ++ leBytes 1 terrace ++ leBytes 1 core ++ leBytes 5 0
    ++ leBytes 8 s.rtime ++ (body ++ List.replicate (112 - body.length) 0#8).take 112
  let i := sm.events % 4096
  s.setDie d { dd with sample :=
    { sm with events := sm.events + 1, slots := (i, slot) :: sm.slots.filter fun x => x.1 != i } }

/-- R363: a start or stop condition is met on a die in the present cycle, for the triggers of its
owner. -/
def State.traceCond (s : State) (d : Nat) (met : Trigger → Word → Bool) : State :=
  let dd := s.die d
  match dd.trace.owner with
  | none => s
  | some t =>
    let ts := (s.terrace t).dbg.triggers
    s.setDie d { dd with trace := { dd.trace with
      start := dd.trace.start || ts.any fun g => met g g.start
      stop := dd.trace.stop || ts.any fun g => met g g.stop } }

/-- R363: a condition word of a type, with an argument. -/
def condIs (w : Word) (ty arg : Nat) : Bool := bitsAt w 0 4 == ty && bitsAt w 8 8 == arg

/-- Bytes [1:2] of a sample slot's place: the core as R364 numbers it. -/
def sampleCore (core : Nat) : Nat := if core < 512 then core % 128 else core % 4

/-! ## The trace unit (R362 to R364) -/

/-- R362: the compute dies whose trace units an owner holds, ascending. -/
def State.tracedDies (s : State) (t : Nat) : List Nat :=
  [0, 1, 2, 3].filter fun d => (s.die d).trace.owner == some t

/-- R362: where record n of a die's buffer lies: through stage 2 alone for a terrace. -/
def State.traceAddress (s : State) (d t n : Nat) : Option Nat :=
  let b := (s.terrace t).dbg
  let rank := ((s.tracedDies t).filter fun k => decide (k < d)).length
  let ipa := b.trcBase.toNat + 16 * (rank * 2 ^ b.trcOrder.toNat + n % 2 ^ b.trcOrder.toNat)
  if t ≥ 16 then (if physExists ipa then some ipa else none)
  else match s.stage2 d t ipa with
    | some m => if m.w && !absentPackage m.pa then some (m.pa + (ipa - m.va)) else none
    | none => none

/-- A record enters the die's buffer. -/
def State.traceAppend (s : State) (d t : Nat) (rec : List Byte) : State :=
  let dd := s.die d
  let n := dd.trace.pos
  let s := s.setDie d { dd with trace := { dd.trace with pos := n + 1 } }
  match s.traceAddress d t n with
  | some pa => s.issueWrite d t none none false false pa rec
  | none => s

/-- R364: SYS.CYCLE of a core's cluster. -/
def State.cycleOf (s : State) (core : Nat) : Nat := (s.cluster (clusterOfCore core)).cycle

/-- R364: the 16 bytes of a trace record. -/
def traceBytes (kind core slot arg region ordinal off cycle : Nat) : List Byte :=
  leBytes 1 kind ++ leBytes 1 core ++ leBytes 1 slot ++ leBytes 1 arg ++ leBytes 4 region
    ++ leBytes 4 ordinal ++ leBytes 2 off ++ leBytes 2 (cycle % 65536)

/-- R364: a TIME record. -/
def timeBytes (core cycle : Nat) : List Byte :=
  leBytes 1 0 ++ leBytes 1 core ++ leBytes 2 0xFF ++ leBytes 8 (cycle / 65536) ++ leBytes 2 0
    ++ leBytes 2 (cycle % 65536)

/-- R363: a condition of type 1 (always) stands among the triggers of a unit's owner. -/
def State.always (s : State) (u : TraceUnit) (sel : Trigger → Word) : Bool :=
  match u.owner with
  | some t => (s.terrace t).dbg.triggers.any fun g => bitsAt (sel g) 0 4 == 1
  | none => false

/-- R363: the present cycle is recorded by a unit. -/
def State.traceOn (s : State) (u : TraceUnit) : Bool := u.active || u.start || s.always u (·.start)

/-- R363, R364: an event occurs in the present cycle, and takes its place there: ascending core, then cane slot. Only the
claiming terrace's events are kept (R362). -/
def State.traceEvent (s : State) (t d core slot kind arg : Nat) (name : CodeName) (off : Nat) : State :=
  let dd := s.die d
  if dd.trace.owner == some t then
    let k := sampleCore core
    let e := (k, slot, traceBytes kind k slot arg name.region name.ordinal off (s.cycleOf core))
    s.setDie d { dd with trace := { dd.trace with events := insertOn (fun (x : Nat × Nat × List Byte) => 256 * x.1 + x.2.1) e dd.trace.events } }
  else s

/-- The lowest enabled cluster of a die. -/
def State.traceCluster (s : State) (d : Nat) : Nat :=
  ((List.range 32).find? fun i => (s.cluster (32 * d + i)).enabled).getD 0 + 32 * d

/-- R364: the TIME record of a cycle is written. -/
def State.writeTime (s : State) (d t cycle : Nat) : State :=
  let s := s.traceAppend d t (timeBytes (sampleCore (4 * s.traceCluster d)) cycle)
  let dd := s.die d
  s.setDie d { dd with trace := { dd.trace with timeMark := cycle / 65536 + 1 } }

/-- R364: the TIME records that are due by the present cycle: that of the first recorded cycle after an inactive one, and
while the unit is active those of the cycles whose number ends in sixteen zeros. -/
def State.dueTimes (s : State) (d t : Nat) : State :=
  let u := (s.die d).trace
  if u.active then
    (List.range (u.began / 65536 + 1 - u.timeMark)).foldl (fun s i => s.writeTime d t (65536 * (u.timeMark + i))) s
  else s.writeTime d t u.began

/-- R363, R364: a cycle ends at a die's trace unit. If it is recorded its TIME record, if it has one, and its events are
written. -/
def State.closeTrace (s : State) (d : Nat) : State :=
  let u := (s.die d).trace
  match u.owner with
  | none => s
  | some t =>
    let on := s.traceOn u
    let s := if on then u.events.foldl (fun s e => s.traceAppend d t e.2.2) (s.dueTimes d t) else s
    let dd := s.die d
    s.setDie d { dd with trace := { dd.trace with
      active := on && !u.stop && !s.always u (·.stop), start := false, stop := false, events := [],
      began := (s.cluster (s.traceCluster d)).cycle } }

/-- R363: the end of a cycle at every trace unit. -/
def State.settleTrace (s : State) : State := ([0, 1, 2, 3] : List Nat).foldl State.closeTrace s

/-! ## Fault queues (R310, R311) -/

/-- R310: room in a fault queue, the index of the next entry, and where the queue lies, as the header's home has it with the
entries that are being written. -/
def State.queueRoom (s : State) (q : Nat) (d : Nat) : Option (Ctx × FaultQueue × Nat) :=
  match (s.terrace q).faultQueue with
  | none => none
  | some f =>
    let x : Ctx := ⟨q, f.vdev, d, none⟩
    match s.ctxPosted x f.base 32 with
    | none => none
    | some h =>
      let produced := leField h 16 8
      if produced - leField h 24 8 < 2 ^ f.order then some (x, f, produced) else none

/-- R310: an entry is written whole, and then produced advances at the press as a signalled release. -/
def State.queueAppend (s : State) (x : Ctx) (f : FaultQueue) (produced : Nat) (entry : List Byte) :
    State :=
  s.postAfter x (f.base + 64 + 32 * (produced % 2 ^ f.order)) entry (f.base + 16) (leBytes 8 (produced + 1))

/-- R308, R310: a notice of a record; with no room OVERFLOW is set, and an unset queue takes none
(R311). -/
def State.postNotice (s : State) (q d addr parcel linear : Nat) : State :=
  match (s.terrace q).faultQueue with
  | none => s
  | some f =>
    match s.queueRoom q d with
    | some (x, f, produced) =>
      s.queueAppend x f produced (leBytes 8 2 ++ leBytes 8 addr ++ leBytes 8 parcel
        ++ leBytes 4 linear ++ leBytes 4 0)
    | none => s.post ⟨q, f.vdev, d, none⟩ [] (f.base + 5) [1#8] false

/-- R304: a record is appended to a parcel's area, or counted as dropped; answers where it stands. The header is read at
its home, with the records that are being written, and advanced there. -/
def State.appendRecord (s : State) (p : Parcel) (rec : List Byte) : State × Nat :=
  let s := s.updParcel p.id fun p => { p with faulted := true }
  if p.area = 0 || p.areaSize < 32 then (s, 0)
  else match s.ctxPosted p.ctx p.area 16 with
    | none => (s, 0)
    | some h =>
      let written := leField h 0 8
      if p.areaSize < 32 + written + rec.length then
        (s.post p.ctx [] (p.area + 8) (leBytes 8 (leField h 8 8 + 1)) true, 0)
      else
        (s.postAfter p.ctx (p.area + 32 + written) rec p.area (leBytes 8 (written + rec.length)), p.area + 32 + written)

/-- R308: a record travels to its parcel, and onward while each receiver's policy is propagate, with a
notice for each; the fuel is the number of parcels. -/
def State.propagateRecord (s : State) (h : RecordHead) (entries : List Byte) (id : Nat) : Nat → State
  | 0 => s
  | fuel + 1 =>
    match s.findParcel id with
    | none => s
    | some p =>
      let (s, addr) := s.appendRecord p (h.bytes p.addr ++ entries)
      let s := s.postNotice p.terrace p.die addr p.addr h.linear
      if p.propagate then
        match p.parent with
        | some q => s.propagateRecord h entries q fuel
        | none => s
      else s

/-- R365, R308: a record is placed in the core sample, and, when its handling is the fault domain, sent
to the parcel; a cane of no parcel (a steward, R342) has only a notice with parcel id 0. -/
def State.recordFault (s : State) (terrace d core : Nat) (parcel : Option Nat) (h : RecordHead)
    (entries : List Byte) (domain : Bool) : State :=
  let s := s.sampleEvent d 1 terrace (sampleCore core)
    ((h.bytes (s.parcelAddr parcel) ++ entries).take 112)
  let s := (s.traceCond d fun _ w => h.cane != 0xFFFF && condIs w 4 h.cause.code).traceEvent terrace d core h.slot 4
    h.cause.code h.name h.name.offset
  if !domain then s
  else
    let tt := s.terrace terrace
    let s := s.setTerrace terrace { tt with usage := { tt.usage with faults := tt.usage.faults + 1 } }
    match parcel with
    | some p => s.propagateRecord h entries p (s.parcels.length + 1)
    | none => s.postNotice terrace d 0 0 h.linear

/-! ## Debug events (R360) -/

/-- R360: a debug event; one that finds 64 waiting is appended once there is room. -/
def State.debugEvent (s : State) (t : Nat) (e : List Byte) : State :=
  let tt := s.terrace t
  let d := tt.dbg
  s.setTerrace t { tt with dbg :=
    if d.events.length < 64 then { d with events := d.events ++ [e] }
    else { d with overflow := d.overflow ++ [e] } }

/-- R360: the 64 bytes of an event. -/
def eventBytes (kind cause : Nat) (name : CodeName) (cane linear parcel addr : Nat)
    (expected actual : Nat) : List Byte :=
  leBytes 1 kind ++ leBytes 1 cause ++ leBytes 2 0 ++ leBytes 4 name.region ++ leBytes 4 name.ordinal
    ++ leBytes 2 name.offset ++ leBytes 2 cane ++ leBytes 4 linear ++ leBytes 4 0 ++ leBytes 8 parcel
    ++ leBytes 8 addr ++ leBytes 8 expected ++ leBytes 8 actual ++ leBytes 8 0

/-- R150, R361: a debug-parked cane becomes ready at its instruction; under STEP it parks again. -/
def Cane.debugResume (c : Cane) (step : Bool) : Cane :=
  { c with wait := .none, parked := true, stepping := step, halting := false }

/-- R361: a debug-parked cane on a cluster whose revocation has begun goes on as RESUME gives, with a RELEASED event. -/
def State.releaseCane (s : State) (c : Cane) : State :=
  let w := s.wgOf c
  if c.wait == .debug && (s.cluster (clusterOfCore c.core)).revoking then
    (s.updCane c.id fun c => c.debugResume false).debugEvent w.terrace
      (eventBytes 4 0 ((s.image w.terrace).codeName c.pc.toNat true) c.idx w.linear (s.parcelAddr w.parcel) 0 0 0)
  else s

/-- R361: a headland revocation ends every debug park that it meets. -/
def State.releaseParked (s : State) : State := s.canes.foldl State.releaseCane s

/-! ## Record and replay (R366 to R374) -/

/-- R366: the store hash after one stored element. -/
def hashStep (h : Dword) (addr value : Nat) : Dword :=
  (h ^^^ BitVec.ofNat 64 addr).rotateLeft 7 + BitVec.ofNat 64 value

/-- R367: where chunk i of the log lies: through stage 2 alone. -/
def State.chunkAddress (s : State) (t i : Nat) (write : Bool) : Option Nat :=
  let ipa := (s.terrace t).dbg.replayLog.toNat + 32 * i
  match s.stage2 0 t ipa with
  | some m => if (if write then m.w else m.r) then some (m.pa + (ipa - m.va)) else none
  | none => none

/-- R368: the 32 bytes of a chunk. -/
def ReplayRun.chunk (r : ReplayRun) : List Byte :=
  leBytes 1 r.kind ++ leBytes 1 0 ++ leBytes 2 r.length ++ leBytes 4 r.winner
    ++ leBytes 1 (if r.kind = 4 then 0 else r.cane) ++ leBytes 7 0 ++ leBytes 8 r.unitId
    ++ leBytes 8 (if r.kind = 4 then 0 else r.hash)

/-- R367: the root parcel of a terrace's recorded or replayed launch. -/
def State.replayParcel (s : State) (t : Nat) : Option Parcel :=
  s.parcels.find? fun p => p.terrace == t && p.parent.isNone && p.addr == (s.terrace t).dbg.replayRoot.toNat

/-- R368, R372: a chunk of the log is written, as a store of the launch's root, whose completion waits for it. -/
def State.writeChunk (s : State) (t i : Nat) (bytes : List Byte) : State :=
  match s.chunkAddress t i true with
  | some pa =>
    let p := s.replayParcel t
    s.issueWrite ((p.map (·.die)).getD 0) t none (p.map (·.id)) false false pa bytes
  | none => s

/-- R372: the runs that have ended and whose winners' instructions have retired are written. -/
def State.writeRuns (s : State) (t : Nat) : State :=
  (s.terrace t).dbg.runs.foldl (fun s r =>
    match r.index with
    | some i =>
      if r.settled && (s.terrace t).dbg.replayActive != 2 then
        (s.writeChunk t i r.chunk).updDebug t fun b =>
          { b with runs := b.runs.filter fun x => x != r, replayPos := b.replayPos + 1 }
      else s
    | none => s) s

/-- R367: a chunk of the log under REPLAY; the log ends at a chunk of kind 0 or that cannot be read. -/
def State.readChunk (s : State) (t i : Nat) : Option (List Byte) :=
  if (s.terrace t).dbg.replaySize.toNat ≤ i then none
  else match s.chunkAddress t i false with
    | none => none
    | some pa =>
      let bs := (List.range 32).map fun j => s.homeByte (pa + j)
      if leField bs 0 1 = 0 then none else some bs

/-- R368: the unit of a chunk: its unit id as an address of its winner's workgroup. One that is not resident has no
scratch, and its global addresses are its launch's. -/
def State.chunkPlace (s : State) (t root : Nat) (bs : List Byte) : Option Place :=
  let global (x : Ctx) (id grain : Nat) : Option Place :=
    (s.ctxTranslate x id ⟨false, false, false⟩).map fun pa => .glob (pa / grain * grain)
  let kind := leField bs 0 1
  let linear := leField bs 4 4
  let id := leField bs 16 8
  let grain := if kind = 1 then 128 else if kind = 2 then 8 else 64
  if kind = 4 then some (.glob id)
  else match s.workgroups.find? fun w =>
      w.linear == linear && ((w.parcel.bind s.findParcel).map (·.root)) == some root with
    | none => if id / 2 ^ 32 = 0xFFFFFFFE then none else (s.replayParcel t).bind fun p => global p.ctx id grain
    | some w =>
      if id / 2 ^ 32 = 0xFFFFFFFE then some (s.unitPlace (.scratch w.id (id % 2 ^ 32 / grain * grain)))
      else global w.ctx id grain

/-- The next chunk of a unit from chunk i on. -/
def State.searchChunk (s : State) (t root kind : Nat) (place : Place) :
    Nat → Nat → Option (Nat × List Byte)
  | 0, _ => none
  | n + 1, i =>
    match s.readChunk t i with
    | none => none
    | some bs =>
      if leField bs 0 1 = kind && s.chunkPlace t root bs = some place then some (i, bs)
      else s.searchChunk t root kind place n (i + 1)

/-- R369: the chunk a unit's gate stands at, and the grants it has made of it. -/
def State.gateChunk (s : State) (t root kind : Nat) (place : Place) : Option (Nat × Nat × List Byte) :=
  let b := (s.terrace t).dbg
  let size := b.replaySize.toNat
  let from_ (i : Nat) := (s.searchChunk t root kind place (size - i) i).map fun x => (x.1, 0, x.2)
  match b.runs.find? fun r => r.kind == kind && r.place == place with
  | some r =>
    let i := r.index.getD 0
    match s.readChunk t i with
    | some bs => if r.length < leField bs 2 2 then some (i, r.length, bs) else from_ (i + 1)
    | none => none
  | none => from_ 0

/-- R369, R370: a unit's gate grants a request of a winner now. -/
def State.gateOpen (s : State) (t root kind : Nat) (place : Place) (winner cane : Nat) : Bool :=
  if (s.terrace t).dbg.replayDiverged then false
  else match s.gateChunk t root kind place with
    | none => true
    | some (_, _, bs) => leField bs 4 4 == winner && (kind == 4 || leField bs 8 1 == cane)

/-- R369: a gate's grant. A chunk whose grants have all been made is kept until its winner's instruction retires and
is checked; one of kind 4 is checked on order alone. -/
def State.gateGrant (s : State) (t root kind : Nat) (place : Place) (w : Winner) : State :=
  match s.gateChunk t root kind place with
  | none => s
  | some (i, n, bs) =>
    let passed := kind == 4 && decide (leField bs 2 2 ≤ n + 1)
    let r : ReplayRun :=
      { kind := kind, place := place, unitId := leField bs 16 8, winner := w.linear, cane := w.idx,
        who := w.who, token := w.token, length := n + 1, hash := w.hash, index := some i, settled := passed }
    let old (x : ReplayRun) : Bool := x.kind == kind && x.place == place && (x.settled || x.index == some i)
    s.updDebug t fun b =>
      { b with runs := r :: b.runs.filter (fun x => !old x),
               replayPos := if passed then b.replayPos + 1 else b.replayPos }

/-- R370, R374: replay diverges at a chunk: the gates stop and a REPLAY event is appended, which names a cane by its
parcel, its workgroup and its number (R360). -/
def State.diverge (s : State) (i expected : Nat) (name : CodeName) (b : Backlog) : State :=
  (s.updDebug b.terrace fun g => { g with replayDiverged := true, replayPos := BitVec.ofNat 64 i }).debugEvent b.terrace
    (eventBytes 3 0x15 name b.idx b.linear b.parcel i expected b.hash.toNat)

/-- R366: the backlog of a cane's store hash; one without is as with an empty one. -/
def State.backlogOf (s : State) (c : Cane) : Backlog :=
  let w := s.wgOf c
  (s.backlog? c.id).getD ⟨c.id, w.terrace, c.idx, w.linear, s.parcelAddr w.parcel, c.hash, [], 0⟩

/-- R369, R372: an instruction of a cane has retired, whose H is known: its runs take it, and a gate that has made the
logged grants compares it. Once a replay has diverged nothing more is checked (R370, R374). -/
def State.settleRun (b : Backlog) (name : CodeName) (s : State) (r : ReplayRun) : State :=
  let d := (s.terrace b.terrace).dbg
  if r.settled || r.kind == 4 || r.who != b.cane || (b.items != [] && r.token != b.token) || d.replayDiverged then s
  else if d.replayActive = 2 then
    let i := r.index.getD 0
    match s.readChunk b.terrace i with
    | none => s
    | some bs =>
      if r.length < leField bs 2 2 then s
      else if leField bs 24 8 != b.hash.toNat then s.diverge i (leField bs 24 8) name b
      else s.updDebug b.terrace fun b =>
        { b with replayPos := b.replayPos + 1,
                 runs := b.runs.map fun x => if x = r then { r with settled := true } else x }
  else
    let r' := { r with hash := b.hash.toNat, settled := true }
    (s.updDebug b.terrace fun b => { b with runs := b.runs.map fun x => if x = r then r' else x })

/-- R369, R372: the runs that an instruction of a cane settles. -/
def State.settleRuns (s : State) (b : Backlog) (name : CodeName) : State :=
  (s.terrace b.terrace).dbg.runs.foldl (State.settleRun b name) s

/-- R366: a cane's backlog, once its RED number id has stored a value or has been refused: stores join H up to the next
RED that is held, and the instructions that have retired before that settle their runs. -/
def State.drainBacklog (b : Backlog) : State → List HashItem → State
  | s, [] => (s.updCane b.cane fun c => { c with hash := b.hash })
  | s, .put a v :: r => State.drainBacklog { b with hash := hashStep b.hash a v } s r
  | s, .check k name :: r =>
    State.drainBacklog b (s.settleRuns { b with items := .check k name :: r, token := k } name) r
  | s, l => { s with backlogs := s.backlogs ++ [{ b with items := l }] }

/-- R366: a held RED has its new value, or none where it was refused. -/
def State.resolveRed (s : State) (cane id : Nat) (value : Option Nat) : State :=
  match s.backlog? cane with
  | none => s
  | some b =>
    let items := b.items.flatMap fun x => match x with
      | .red k a => if k = id then (value.map (HashItem.put a)).toList else [x]
      | x => [x]
    State.drainBacklog b { s with backlogs := s.backlogs.filter fun x => x.cane != cane } items

/-- R366: a store of the issuing cane joins H, behind the REDs that are held. -/
def State.hashItem (s : State) (x : HashItem) : State :=
  let b := s.backlogOf s.cur
  { s with backlogs := s.backlogs.filter (fun y => y.cane != s.cur.id) ++ [{ b with items := b.items ++ [x] }] }

/-- R366: a store of the issuing cane joins H. -/
def State.hashStore (s : State) (addr value : Nat) : State :=
  match s.backlog? s.cur.id with
  | none => s.updCur fun c => { c with hash := hashStep c.hash addr value }
  | some _ => s.hashItem (.put addr value)

/-- R369, R372: an instruction of the issuing cane has retired under record or replay. -/
def State.replaySettle (s : State) : State :=
  let c := s.cur
  let w := s.wgOf c
  let name := (s.image w.terrace).codeName s.iss.addr.toNat s.iss.stop
  match s.backlog? c.id with
  | none => if (s.terrace w.terrace).dbg.runs = [] then s else s.settleRuns (s.backlogOf c) name
  | some b =>
    let s := s.hashItem (.check b.token name)
    { s with backlogs := s.backlogs.map fun x => if x.cane = c.id then { x with token := x.token + 1 } else x }

/-- R370: the first chunk from i on that names a winner cane and whose grants its unit has not all
made, the requests that it holds apart: there is one place in the list for each of those. -/
def State.unmade (s : State) (t root linear cane : Nat) : Nat → Nat → List Place → Option (Nat × List Byte)
  | 0, _, _ => none
  | n + 1, i, held =>
    match s.readChunk t i with
    | none => none
    | some bs =>
      let place := s.chunkPlace t root bs
      let run := (s.terrace t).dbg.runs.find? fun r => r.kind == leField bs 0 1 && some r.place == place
      let left := match run with
        | none => leField bs 2 2
        | some r => if i < r.index.getD 0 then 0
          else if r.index == some i then leField bs 2 2 - r.length else leField bs 2 2
      if leField bs 0 1 != 4 && leField bs 4 4 == linear && leField bs 8 1 == cane && left != 0 then
        match place with
        | some p =>
          if held.count p < left then some (i, bs)
          else s.unmade t root linear cane n (i + 1) ((List.range left).foldl (fun l _ => l.erase p) held)
        | none => some (i, bs)
      else s.unmade t root linear cane n (i + 1) held

/-- R370, R374: a cane that retires or departs without making a logged request diverges the replay; the event names
its last retired instruction. -/
def State.replayRetired (s : State) (c : Cane) : State :=
  let w := s.wgOf c
  match s.rootOf c with
  | none => s
  | some root =>
    if s.underReplay w.terrace (some root) 2 && !(s.terrace w.terrace).dbg.replayDiverged then
      match s.unmade w.terrace root w.linear c.idx (s.terrace w.terrace).dbg.replaySize.toNat 0
          ((s.heldReds.filter fun h => h.cane == c.id).map (·.unit)) with
      | some (i, bs) =>
        s.diverge i (leField bs 24 8) ((s.image w.terrace).codeName c.lastPc.toNat c.lastStop) (s.backlogOf c)
      | none => s
    else s

/-- R370: the gates of a launch, or of all of them, hold nothing any more. -/
def State.releaseGates (s : State) (t : Nat) : State :=
  s.mapCanes fun c =>
    match c.wait with
    | .gate _ _ => if (s.wgOf c).terrace = t then { c with wait := .none } else c
    | _ => c

/-- R368, R372: recording ends: the remaining runs end, those whose instruction has retired are written, and a chunk of
zeros closes a log with room. -/
def State.endRecord (s : State) (t : Nat) : State :=
  let s := s.updDebug t fun b =>
    if b.replayStopped then b else (b.runs.filter fun r => r.index.isNone).foldl DebugBlock.endRun b
  let b := (s.terrace t).dbg
  let last := b.replayPos.toNat + (b.runs.filter fun x => x.index.isSome).length
  let s := s.writeRuns t
  if decide (last < b.replaySize.toNat) then s.writeChunk t last (List.replicate 32 0#8) else s

/-- R367, R368: the recording or replay of a terrace's launch ends, and its gates hold nothing more. Runs whose winner's
instruction has not retired are still to be written. -/
def State.closeReplay (s : State) (t : Nat) : State :=
  let recording := (s.terrace t).dbg.replayActive == 1
  let s := if recording then s.endRecord t else s
  (s.updDebug t fun b => { b with replayActive := 0, runs := if recording then b.runs else [] }).releaseGates t

/-- R372: a cane leaves within an instruction that has had a grant: the chunk takes H as it is then (log entry 45). -/
def State.settleLeft (s : State) (c : Cane) : State :=
  let t := (s.wgOf c).terrace
  let mine (r : ReplayRun) : Bool := r.who == c.id && r.kind != 4 && !r.settled
  if (s.terrace t).dbg.replayActive != 2 && (s.terrace t).dbg.runs.any mine then
    s.updDebug t fun b => { b with runs := b.runs.map fun r => if mine r then { r with hash := c.hash.toNat, settled := true } else r }
  else s

/-- R368: an exit-grade pre-emption or a restart of a workgroup of the launch ends recording or replay
with BROKEN. -/
def State.breakReplay (s : State) (t : Nat) (root : Option Nat) : State :=
  if s.underReplay t root 1 || s.underReplay t root 2 then
    (s.closeReplay t).updDebug t fun b => { b with replayBroken := true }
  else s

/-! ## Barriers, retirement and departure (R123, R162, R189, R319) -/

/-- An item places again a workgroup of a barrier's parcel or set. -/
def Item.rejoins (i : Item) (p : Parcel) (b : BarrierId) : Bool :=
  i.parcel == p.id && i.kind.linear.any fun n => b.scope != 2 || n / 2 ^ p.setLog == b.owner % 2 ^ 64

/-- The parcel that a barrier wider than a workgroup belongs to. -/
def BarrierId.parcel (b : BarrierId) : Nat := if b.scope = 2 then b.owner / 2 ^ 64 else b.owner

/-- R189: a barrier's participants have all arrived: its live canes have, and no workgroup of its parcel
or set waits to be placed. -/
def State.barrierFull (s : State) (b : Barrier) : Bool :=
  let inScope (c : Cane) : Bool :=
    let w := s.wgOf c
    if b.bar.scope = 1 then c.wg == b.bar.owner
    else if b.bar.scope = 2 then w.setId == b.bar.owner && w.member.isSome
    else w.parcel == some b.bar.owner
  let unplaced : Bool :=
    decide (2 ≤ b.bar.scope) &&
      (match s.findParcel b.bar.parcel with
       | some p => decide (3 ≤ b.bar.scope) && p.kind == 1 && decide (p.nextWg < p.count)
         || s.dies.any fun d => d.queue.any fun i => i.rejoins p b.bar
       | none => false)
  !unplaced && (s.canes.all fun c => !inScope c || b.arrived.contains c.id)

/-- R189: a full barrier's generation completes: the current generation advances by one, and the canes
that wait for it may issue. -/
def State.completeBarrier (s : State) (b : Barrier) : State :=
  let s := { s with barriers := s.barriers.map fun (x : Barrier) =>
    if x.bar = b.bar then
      { x with gen := x.gen + 1, arrived := [], past := [], done := joinClocks x.done x.past }
    else x }
  s.mapCanes fun c =>
    match c.wait with
    | .barrier k g => if k = b.bar ∧ g = b.gen then { c with wait := .none } else c
    | _ => c

/-- Every barrier that someone has arrived at and that is full completes. -/
def State.checkBarriers (s : State) : State :=
  s.barriers.foldl (fun s b => if b.arrived ≠ [] && s.barrierFull b then s.completeBarrier b else s) s

/-- A workgroup's canes leave their core (R153): each is no longer live. -/
def State.dropCanes (s : State) (wg : Nat) : State :=
  { s with cur := if s.cur.wg == wg then { s.cur with live := false } else s.cur,
           others := s.others.filter fun c => c.wg != wg }

/-- A place in a workgroup's scratch. -/
def Place.inScratch (wg : Nat) : Place → Bool
  | .scratch w _ => w == wg
  | _ => false

/-- R265: an engine operation on a workgroup's scratch that its departure waits for. One that only reads it and writes
elsewhere holds the departure as the rule's first bullet has it; the rule's last sentence, taken alone, would not (DEDUCED,
log entry 75). -/
def State.scratchBusy (s : State) (wg : Nat) : Bool :=
  s.asyncOps.any fun o => o.kind != .mcast && (o.src ++ o.dst).any (Place.inScratch wg)

/-- R265: workgroups without a cane leave once no engine operation holds their scratch; a DECANT of a cane that is gone
asks for no flip. -/
def State.sweep (s : State) : State :=
  { s with workgroups := s.workgroups.filter fun w => !(s.canesOf w.id).isEmpty || s.scratchBusy w.id,
           decantOps := s.decantOps.filter fun o => o.asked || (s.findCane o.cane).isSome }

/-- R162, R265, R319: a workgroup's registers, scratch and pipe ownership are freed and scrubbed. -/
def State.freeWorkgroup (s : State) (wg : Nat) : State :=
  let ids := (s.canesOf wg).map (·.id)
  let s := (s.canesOf wg).foldl State.settleLeft s
  let s := ((s.dropCanes wg).unmonitor fun c => ids.contains c).updWg wg fun w =>
    { w with request := none, exitRec := none }
  ({ s with barriers := s.barriers.filter fun b => !(b.bar.scope = 1 && b.bar.owner == wg) } : State).sweep

/-- R123: a cane retires: its registers are freed, barriers that then have all their arrivals complete
(R189), and its workgroup retires with its last cane. -/
def State.retireCane (s : State) (id : Nat) : State :=
  let s := match s.findCane id with
    | some c => s.replayRetired c
    | none => s
  let wg := ((s.findCane id).map (·.wg)).getD 0
  let s := { s with cur := if s.cur.id == id then { s.cur with live := false } else s.cur,
                    others := s.others.filter fun c => c.id != id }
  (if (s.canesOf wg).isEmpty then s.freeWorkgroup wg else s).checkBarriers

/-- R123: resume(): the next stack entry with a lane that is not quarantined, or retirement. -/
def popEntries (qmask : Mask) : List StackEntry → Option (StackEntry × List StackEntry)
  | [] => none
  | e :: rest => if e.mask &&& ~~~qmask ≠ 0 then some (e, rest) else popEntries qmask rest

/-- R123: the issuing cane continues with the next stack entry, or retires. -/
def State.resume (s : State) : State :=
  match popEntries s.cur.qmask s.cur.stack with
  | some (e, rest) => s.updCur fun c => { c with recon := e.mask, pc := e.pc, stack := rest }
  | none => s.retireCane s.cur.id

/-- R123: the lanes of recon retire: they leave the masks of every stack entry. -/
def Cane.retireLanes (c : Cane) : Cane :=
  { c with stack := c.stack.map fun e => { e with mask := e.mask &&& ~~~c.recon } }

/-! ## Exit records (R164, R316, R318) -/

/-- How many of bits [lo, lo + n) are set. -/
def countBits (b : BitVec 256) (lo n : Nat) : Nat :=
  ((List.range n).filter fun i => b.getLsbD (lo + i)).length

/-- R164: the bytes of a section's carried words. -/
def carriedBytes (carry : BitVec 256) : Nat :=
  128 * countBits carry 0 128 + 16 * countBits carry 128 16 + (if carry.getLsbD 152 then 8 else 0)

/-- R164: the bytes of a cane section. -/
def sectionBytes (carry : BitVec 256) : Nat := 48 + carriedBytes carry

/-- The bytes of some scratch ranges. -/
def rangeBytes (rs : List (Nat × Nat)) : Nat := (rs.map (·.2)).sum

/-- R316: the bytes of an exit record. -/
def exitBytes (canes : Nat) (carry : BitVec 256) (ranges : List (Nat × Nat)) : Nat :=
  64 + canes * sectionBytes carry + rangeBytes ranges + 272 * canes

/-- R315: the offset of the first carried word of a cane's section. -/
def firstCarried (carry : BitVec 256) (idx : Nat) : Nat := 64 + idx * sectionBytes carry + 48

/-- R316: where a workgroup's exit record lies. -/
def Parcel.exitRecord (p : Parcel) (linear : Nat) : Nat := p.phaseArea + (p.count + linear) * p.stride
/-- R155: where a workgroup's phase record lies. -/
def Parcel.phaseRecord (p : Parcel) (linear : Nat) : Nat := p.phaseArea + linear * p.stride

/-- R163: the status of a record that begins with the phase-record magic; any other counts as EMPTY
(R316). -/
def State.recordStatus (s : State) (x : Ctx) (addr : Nat) : Nat :=
  match s.ctxRead x addr 8 with
  | some h => if leField h 0 4 = 0x50534850 then leField h 4 1 else 0
  | none => 0

/-- An item enters the queue of its die, behind those already there (R160). -/
def State.enqueue (s : State) (d : Nat) (i : Item) : State :=
  let dd := s.die d
  s.setDie d { dd with queue := dd.queue ++ [i] }

/-- R319: the record of an overrun enters the core sample, and the workgroup restarts as the table of R319
gives: from a COMPLETE phase record, at most at the given level, from its kernel's entry, or not at all, and then the
record goes to the fault domain. A sole GROW victim is not queued again (R167). -/
def State.restart (s : State) (p : Parcel) (x : Ctx) (core linear level : Nat) (again : Bool) (head : RecordHead) :
    State :=
  let complete := again && s.recordStatus x (p.phaseRecord linear) == 2
  let entry := again && p.restartable
  let s := (s.recordFault p.terrace x.die core (some p.id) head [] (!(complete || entry))).breakReplay p.terrace
    (some p.root)
  let item (k : ItemKind) (level : Nat) : Item := ⟨p.id, p.priority, k, level, s.causal x.die⟩
  if complete then s.enqueue p.die (item (.phase linear) level)
  else if entry then s.enqueue p.die (item (.restart linear) 2)
  else s

/-- R167: a workgroup that leaves is queued again: it is not the sole victim of a GROW. -/
def Workgroup.returns (w : Workgroup) : Bool := !(w.request.any fun r => r.victim && !r.requeue)

/-- R319, R320, R330, R331: an overrun (or an untrusted exit): every cane of the workgroup stops, the
exit record's status byte is written, one record enters the core sample, the workgroup is freed, and it
restarts as the table of R319 gives. The named cane is the one whose routine faulted, the first one
vectored, whether or not it still lives, or the lowest-numbered live cane. -/
def State.overrun (s : State) (wg : Nat) (cause : Cause) (routineCane : Option Nat) : State :=
  match s.findWg wg with
  | none => s
  | some w =>
    match w.parcel.bind s.findParcel with
    | none => s
    | some p =>
      let im := s.image w.terrace
      let s := s.ctxWrite w.ctx (p.exitRecord w.linear + 4)
        [if cause = .exitUntrusted then 4#8 else 3#8] false
      let live := s.canesOf wg
      let head : RecordHead :=
        match routineCane.bind s.findCane, w.request.bind (·.first) with
        | some c, _ =>
          ⟨cause, 4, 0, c.vecRecon,
            { im.codeName c.pc.toNat false with ordinal := (im.codeName c.vecPc.toNat true).ordinal }, c.idx, w.linear, c.slot⟩
        | none, some v =>
          let at_ := im.codeName v.pc.toNat true
          ⟨cause, 0, 0, v.recon, { at_ with region := (w.exitRec.map (·.region)).getD at_.region }, v.idx, w.linear, v.slot⟩
        | none, none =>
          match (List.range 32).findSome? fun i => live.find? fun c => c.idx == i with
          | some c => ⟨cause, 0, 0, c.recon, im.codeName c.pc.toNat true, c.idx, w.linear, c.slot⟩
          | none => ⟨cause, 0, 0, 0, ⟨0, 0xFFFFFFFF, 0, false⟩, 0xFFFF, w.linear, 0xFF⟩
      let tt := s.terrace w.terrace
      let s := s.setTerrace w.terrace
        { tt with usage := { tt.usage with preemptions := tt.usage.preemptions + 1 } }
      ((s.freeWorkgroup wg).restart p w.ctx w.core w.linear (s.levelOf w) w.returns head).checkBarriers

/-! ## Debug parking (R357 to R360) -/

/-- R359: the issuing cane is debug-parked at its unissued instruction, whose breakpoints it has passed; a watchpoint
(kind 2) is passed too. -/
def State.debugPark (s : State) (kind : Nat) (cause : Cause) (addr : Nat) : State :=
  let c := s.cur
  let w := s.wgOf c
  let name := (s.image w.terrace).codeName s.iss.addr.toNat s.iss.stop
  (s.debugEvent w.terrace (eventBytes kind cause.code name c.idx w.linear (s.parcelAddr w.parcel) addr 0
    0)).updCur fun c =>
      { c with wait := .debug, pipe := none, passBreak := true, passWatch := c.passWatch || kind == 2 }

/-! ## Taking a trap (R124, R308, R309, R317) -/

/-- R125: SYS.ESTAT after trap entry. -/
def estatAtTrap (old : Word) (cause : Cause) (priv parcels depth : Nat) : Word :=
  let len : Nat := if parcels = 1 then 0 else if parcels = 2 then 1 else 2
  BitVec.ofNat 32 (cause.code + priv * 2 ^ 8 + bitsAt old 10 2 * 2 ^ 10 + 2 ^ 12 + len * 2 ^ 13
    + depth * 2 ^ 16)

/-- SYS.ESTAT.INH. -/
def Cane.inh (c : Cane) : Bool := c.estat.getLsbD 12

/-- R124: the cane holds a handler that may be entered now. -/
def Cane.vectors (c : Cane) : Bool := c.tvec != 0 && !c.inh && c.routine != .exit

/-- R124: trap entry: SYS.EPC, SYS.ESTAT, SYS.EARG and SYS.EMASK take the instruction's address, the
cause and the level, its argument, and recon; the level becomes HLVL and PC becomes SYS.TVEC. The cane has issued,
so its age begins again (R150). -/
def State.enterHandler (s : State) (cause : Cause) (arg : Word) : State :=
  s.updCur fun c =>
    { c with stage := 0, stageArg := 0, claim := none, supArg := [], answer := none, epc := s.iss.addr, estat := estatAtTrap c.estat cause c.priv s.iss.parcels c.stack.length,
             earg := arg, emask := c.recon, priv := bitsAt c.estat 10 2, pc := c.tvec, pipe := none,
             parkLeaf := none, saccSeen := none, entered := 0, denied := [], noted := false, passBreak := false, passBkpt := false, passWatch := false,
             readyAt := s.cycleOf c.core, aged := false }

/-- R309: the record of a trap that is not vectored goes to the fault domain, and the cane is
fault-parked; under a pending exit-grade request the exit is an overrun at once (R315). A terrace's steward
retires (R342). -/
def State.faultPark (s : State) (cause : Cause) (mask : Mask) (faults : List LaneFault) : State :=
  let c := s.cur
  let w := s.wgOf c
  let im := s.image w.terrace
  let name := im.codeName s.iss.addr.toNat s.iss.stop
  let first := im.text + (((im.regionAt s.iss.addr.toNat).map (·.first)).getD 0)
  let head : RecordHead :=
    ⟨cause, (if c.inh then 2 else 0) + (if c.routine ≠ .none then 4 else 0), faults.length, mask, name,
      c.idx, w.linear, c.slot⟩
  let s := s.recordFault w.terrace (dieOfCore c.core) c.core w.parcel head
    (faults.flatMap (laneEntry (c.stackWord first))) true
  let s := s.updCur fun c => { c with wait := .fault, pipe := none, stage := 0, stageArg := 0, claim := none,
                                      supArg := [], parkLeaf := none, saccSeen := none, entered := 0 }
  if w.isSteward then s.retireCane c.id
  else match w.request with
  | some r => if r.exitGrade then s.overrun w.id .exitOverrun none else s
  | none => s

/-- R124: an instruction of the issuing cane traps with a cause. In an exit routine the workgroup
overruns (R317). The lane entries are those of R209's refused lanes. -/
def State.trapWith (s : State) (cause : Cause) (arg : Word) (mask : Mask) (faults : List LaneFault) :
    State :=
  if s.cur.routine = .exit then s.overrun s.cur.wg .exitOverrun (some s.cur.id)
  else if s.cur.vectors then s.enterHandler cause arg
  else s.faultPark cause mask faults

/-- R33, R124: an instruction traps with no effect and no lane entries. -/
def State.trap (s : State) (cause : Cause) : State := s.trapWith cause 0 s.cur.active []

/-- R126: the checks of ERET, in order: whether each fails, and its cause. -/
def Cane.eretChecks (c : Cane) : List (Bool × Cause) :=
  [(!c.inh, .illegalEncoding),
   (decide (c.priv < bitsAt c.estat 8 2) || bitsAt c.estat 8 2 == 3, .privilege),
   (decide (c.stack.length < bitsAt c.estat 16 5), .divergeDepth)]

/-- R126: the return from a handler: the stack is cut to its depth at entry, and recon, the level and PC
are restored. -/
def Cane.eret (c : Cane) : Cane :=
  { c with stack := c.stack.drop (c.stack.length - bitsAt c.estat 16 5), recon := c.emask,
           priv := bitsAt c.estat 8 2, estat := c.estat &&& ~~~(0x1000#32), pc := c.epc }

end Sys2Proof.Machine
end

