-- ==== Sys2Proof/Machine/Operands.lean ====
section
/-! DEFINITION. What the instructions share when they issue: the decode checks after the encoding
(R53), immediates and offsets (R40 to R44), uniform operands (R27), register blocks (R136, R146), the
slots an instruction takes (R145 to R149, R352, R353), and its completion (R28). -/

namespace Sys2Proof.Machine

/-! ## Issue slots (R145, R352 to R354) -/

/-- R265: every live cane of a workgroup has arrived, and its departure waits for operations on its scratch. -/
def State.departing (s : State) (wg : Nat) : Bool :=
  s.scratchBusy wg && (s.canesOf wg).all fun d => match d.wait with | .phase | .graft _ => true | _ => false

/-- The leaf of R352 that a resident cane without an issuing pass is counted in, by the first cause of R353's order: a wait
for memory within an instruction of SYNC or of BACKEND.ASYNC counts as that instruction's. None passes it over. -/
def State.leafOf (s : State) (c : Cane) : Option Nat :=
  match c.wait with
  | .none => some 2
  | .results => some (if c.outstanding ≤ c.outPower then 2 else 4)
  | .walk _ _ | .service _ => some (if c.need = 2 then 9 else c.parkLeaf.getD 4)
  | .release _ | .storeRoom | .fifo | .press _ | .route | .gate 1 _ => some (c.parkLeaf.getD 4)
  | .sup | .tlbInv => some 4
  | .fetch | .rom => some 9
  | .barrier _ _ => some 6
  | .phase | .graft _ => some (if s.departing c.wg then 11 else 10)
  | .withheld => some (c.parkLeaf.getD 10)
  | .grow _ => some 8
  | .waitAddr _ _ | .ring _ _ | .task _ | .parcel _ | .gate _ _ => some 7
  | .tags _ _ | .tagClear _ | .batch _ | .engineRoom | .decant _ | .cancel _ => some 5
  | .routineDone => some 11
  | .fault | .debug => none

/-- The older of two canes: placed earlier, then the lower slot. -/
def Cane.older (a b : Cane) : Bool := a.id < b.id || (a.id == b.id && a.slot < b.slot)

/-- The oldest of some canes. -/
def oldest : List Cane → Option Cane
  | [] => none
  | c :: cs => match oldest cs with
    | some d => some (if c.older d then c else d)
    | none => some c

/-- R353: the leaf that a pipe of a core is counted in when no pass issues on it. A workgroup whose canes have all
retired and whose departure R265 delays stands for its canes. -/
def State.idleLeaf (s : State) (core pipe : Nat) : Nat :=
  if (s.cluster (clusterOfCore core)).issuePaused then 12
  else
    let here := s.canes.filter fun c => c.core == core
    let left := (s.workgroups.filter fun w => w.core == core && (s.canesOf w.id).isEmpty).map (·.id)
    match here.find? fun c => c.pipe == some pipe with
    | some c => (s.leafOf c).getD 13
    | none => match oldest (here.filter fun c => c.pipe.isNone && (s.leafOf c).isSome) with
      | some c => if left.any fun w => decide (w < c.id) then 11 else (s.leafOf c).getD 13
      | none => if left = [] then 13 else 11

/-- A core's counter advanced. -/
def Core.count (c : Core) (sel n : Nat) : Core :=
  { c with perf := setI 0 c.perf sel (getI 0 c.perf sel + n) }

/-- n cycles of one core, with the pipes that issue nothing counted by R353. -/
def State.coreCycles (s : State) (core n : Nat) (issuing : Option Nat) : Core :=
  ([0, 1, 2, 3].filter fun p => issuing != some p).foldl
    (fun c p => c.count (0x010 + s.idleLeaf core p) n) ((s.core core).count 0 (4 * n))

/-- The cores of a cluster. -/
def coresOf (cluster : Nat) : List Nat := (List.range 4).map fun i => 4 * cluster + i

/-- The clock of a cluster moves on while its cores issue nothing for n cycles. -/
def State.passCycles (s : State) (k n : Nat) : State :=
  let cores := (coresOf k).foldl (fun cs i => setI Core.zero cs i (s.coreCycles i n none)) s.cores
  let kk := s.cluster k
  { s with cores := cores, clusters := setI Cluster.zero s.clusters k { kk with cycle := kk.cycle + n } }

/-- R145: the issuing cane takes v vector passes, u single passes and b bank cycles on its pipe; its
cluster's clock moves by their sum. -/
def State.charge (s : State) (v u b : Nat) : State :=
  let core := s.cur.core
  let k := clusterOfCore core
  let pipe := s.cur.pipe.getD 0
  let n := v + u + b
  let cores := (coresOf k).foldl (fun cs i =>
    setI Core.zero cs i (s.coreCycles i n (if i = core then some pipe else none))) s.cores
  let mine := (((getI Core.zero cores core).count 0x010 v).count 0x011 u).count 0x013 b
  let kk := s.cluster k
  { s with cores := setI Core.zero cores core mine,
           clusters := setI Cluster.zero s.clusters k { kk with cycle := kk.cycle + n } }

/-- Bank cycles of one pass that reads these registers (R148). -/
def bankExtra (regs : List Nat) : Nat :=
  ((List.range 8).map fun b => (regs.dedup.filter fun r => r % 8 == b).length).foldl max 1 - 1

/-- R145: passes of a guarded instruction that is not uniform. -/
def passCount (m : Mask) : Nat :=
  max 1 (([0, 1, 2, 3] : List Nat).filter fun p => m.extractLsb' (8 * p) 8 ≠ 0).length

/-- The slots of an instruction on the lanes of mk whose elements read these registers. -/
def State.chargeVec (s : State) (u : Bool) (mk : Mask) (elems : List (List Nat)) : State :=
  let n := if u then 1 else passCount mk
  let extra := (elems.map fun regs => n * bankExtra regs).sum
  if u then s.charge 0 elems.length extra else s.charge (n * elems.length) 0 extra

/-! ## Completion (R16, R28, R151) -/

/-- The parcel address after the issuing instruction (R21, R24). -/
def State.fall (s : State) : Dword := s.iss.addr + BitVec.ofNat 64 s.iss.parcels

/-- The cane goes on at a PC: what the instruction kept for itself is dropped. -/
def Cane.advance (c : Cane) (pc : Dword) (cycle : Nat) : Cane :=
  { c with pc := pc, wait := .none, stage := 0, stageArg := 0, claim := none, supArg := [], answer := none, parkLeaf := none, saccSeen := none, entered := 0, denied := [],
           readyAt := cycle, aged := false, sinceSwitch := c.sinceSwitch + 1, passBreak := false, passBkpt := false,
           passWatch := false, noted := false }

/-- R28, R151: after a switch marker the cane gives up its pipe and waits for its outstanding results. -/
def Cane.switch (c : Cane) : Cane :=
  { c with pipe := none, sinceSwitch := 0, wait := if c.outstanding = 0 then .none else .results }

/-- The issuing instruction completes and the cane goes on at a PC. -/
def State.goTo (s : State) (m : Marks) (pc : Dword) : State :=
  let cycle := (s.cluster (clusterOfCore s.cur.core)).cycle
  s.updCur fun c =>
    let c := { c.advance pc cycle with lastPc := s.iss.addr, lastStop := s.iss.stop }
    if m.s then c.switch else c

/-- The issuing instruction completes and PC moves past it. -/
def State.finish (s : State) (m : Marks) : State := s.goTo m s.fall

/-- An instruction that acts once for the cane completes in one pass (R145). -/
def State.finishOnce (s : State) (m : Marks) : State := (s.charge 0 1 0).finish m

/-- R353: from here on the parks of the issuing cane's instruction count in a leaf. -/
def State.parksAs (s : State) (leaf : Nat) : State := s.updCur fun c => { c with parkLeaf := some leaf }

/-- The issuing cane parks at its instruction, which issues again when the wait ends (R151). -/
def State.park (s : State) (w : Wait) : State := s.updCur fun c => { c with wait := w, pipe := none }

/-! ## Decode checks (R53, R13, R35, R46, R146) -/

/-- The first check that fails: each is whether it fails, and its cause. -/
def firstFail : List (Bool × Cause) → Option Cause
  | [] => none
  | (bad, c) :: rest => if bad then some c else firstFail rest

/-- The issuing instruction traps in one pass (R33, R145). -/
def State.raise (s : State) (c : Cause) : State := (s.charge 0 1 0).trap c

/-- Steps 3 to 8 of R53: the first failing check traps, otherwise the instruction has its effect. -/
def State.attempt (s : State) (checks : List (Bool × Cause)) (effect : State) : Out :=
  match firstFail checks with
  | some c => .next (s.raise c)
  | none => .next effect

/-- R209: the lowest poisoned row among some registers that a read in the lanes of mk touches. -/
def Cane.poisonedRow (c : Cane) (mk : Mask) (regs : List Nat) : Option Nat :=
  c.rowPoison.find? fun r => regs.contains (r / 4) && mk.extractLsb' (8 * (r % 4)) 8 != 0#8

/-- R209: a poisoned register-row read traps POISONED_DATA, with the register-window address of the
row. -/
def State.raisePoisonedRow (s : State) (mk : Mask) (r : Nat) : State :=
  (s.charge 0 1 0).trapWith .poisonedData 0 mk
    [⟨8 * (r % 4), .poisonedData, 32, 1, 0xFFFFFFFF00000000 + r / 4 * 128 + r % 4 * 32⟩]

/-- R27, R36: the lanes in which the operands of an instruction are read: those of mk, or (once) the first of them, as
under U and by `uread`. -/
def operandLanes (once : Bool) (mk : Mask) : Mask := if once && mk != 0 then 1#32 <<< firstLane mk else mk

/-- As `attempt`, for an instruction that reads some registers in the lanes of mk, and others in other lanes (R209). Where
an instruction fails a check of its own (step 8 of R53) and reads a poisoned row too, the check comes first: R53 gives no
order within step 8 (DESIGN CHOICE, log entry 72). -/
def State.attemptReading (s : State) (mk : Mask) (regs : List Nat) (checks : List (Bool × Cause))
    (effect : State) (other : Mask × List Nat := (0, [])) : Out :=
  s.attempt checks
    (match (s.cur.poisonedRow mk regs).orElse fun _ => s.cur.poisonedRow other.1 other.2 with
     | some r => s.raisePoisonedRow mk r
     | none => effect)

/-- R166: an instruction names a register at or above SYS.NREG (step 3 of R53). -/
def Cane.beyond (c : Cane) (regs : List Nat) : Bool × Cause :=
  (regs.any fun r => decide (c.nreg ≤ r), .illegalEncoding)

/-- R166: a group of registers holds one above the window, which the cane does not have (step 3 of R53; a group that
passes v127 is told at step 7, log entry 11). -/
def Cane.groupBeyond (c : Cane) (regs : List Nat) : Bool × Cause :=
  (regs.any fun r => decide (c.nreg ≤ r) && decide (r < 128), .illegalEncoding)

/-- R35: the cane's level is below the lowest one. -/
def State.below (s : State) (level : Nat) : Bool × Cause := (decide (s.cur.priv < level), .privilege)

/-- MODE.ET as a type. -/
def Cane.etype (c : Cane) : Option ElemType := ElemType.ofCode c.et
/-- MODE.CT as a type. -/
def Cane.ctype (c : Cane) : Option ElemType := ElemType.ofCode c.ct
/-- MODE.RM as a mode. -/
def Cane.rmode (c : Cane) : Option RMode := RMode.ofCode c.rm

/-- R13: MODE.ET is reserved or a type the opcode does not accept. -/
def Cane.badType (c : Cane) (accepts : ElemType → Bool) : Bool × Cause :=
  (match c.etype with
   | some t => !accepts t
   | none => true, .illegalMode)
/-- R12, R13: MODE.RM is reserved. -/
def Cane.badRM (c : Cane) : Bool × Cause := (c.rmode.isNone, .illegalMode)
/-- R10, R13: MODE.SCOPE is reserved. -/
def Cane.badScope (c : Cane) : Bool × Cause := (decide (5 < c.scope), .illegalMode)

/-- R46: a V-role field is odd under a 64-bit type. -/
def oddField (is64 : Bool) (fields : List (BitVec 7)) : Bool × Cause :=
  (is64 && fields.any fun f => f.getLsbD 0, .illegalEncoding)

/-- R136, R146: a block of br + 1 rows and a number of columns from a register leaves its row of 8 or
passes v127. -/
def leavesBlock (br cols : Nat) (f : BitVec 7) : Bool :=
  decide (8 < f.toNat % 8 + cols) || decide (127 < f.toNat + 8 * br + (cols - 1))

/-- R146: the block's extent, for the register fields it moves. -/
def Cane.badBlock (c : Cane) (is64 : Bool) (fields : List (BitVec 7)) : Bool × Cause :=
  let cols := (if is64 then 2 else 1) * (c.bc + 1)
  (fields.any (leavesBlock c.br cols), .blockRange)

/-- The offsets of a block's elements, in the order in which they issue (R136, R146). -/
def Cane.blockOffsets (c : Cane) (is64 : Bool) : List Nat :=
  (List.range (c.br + 1)).flatMap fun i =>
    (List.range (c.bc + 1)).map fun j => 8 * i + (if is64 then 2 * j else j)

/-- R166: an element of the block lies in a register above the window, which the cane does not have (step 3
of R53; a block that passes v127 is told at step 7, log entry 11). -/
def Cane.blockBeyond (c : Cane) (is64 : Bool) (fields : List (BitVec 7)) : Bool × Cause :=
  c.groupBeyond ((c.blockOffsets is64).flatMap fun o => fields.flatMap fun f =>
    if is64 then [f.toNat + o, f.toNat + o + 1] else [f.toNat + o])

/-! ## Operands (R27, R40 to R44) -/

/-- R41, R40: the immediate of an FI word, with an immx word's payload above it. -/
def State.imm (s : State) (i : BitVec 14) : Dword :=
  match s.iss.ext with
  | none => i.signExtend 64
  | some p => (p ++ i).signExtend 64

/-- R41: an immx payload sets a bit above the part of the immediate that the instruction uses. -/
def State.wide (s : State) : Bool × Cause :=
  (match s.iss.ext with
   | none => false
   | some p => p != 0, .illegalEncoding)

/-- R40: the immediate offset of a memory form. -/
def State.off (s : State) : Dword :=
  match s.iss.ext with
  | none => 0
  | some p => p.signExtend 64

/-- R27, R36: the lane an operand is read in: its own, or the first active one when U = 1. -/
def srcLane (u : Bool) (mk : Mask) (l : Nat) : Nat := if u then firstLane mk else l

/-- R36: uread of a V register, over the lanes of an unguarded instruction. -/
def Cane.uread (c : Cane) (i : Nat) : Word := c.V i (firstLane c.unguarded)
/-- R36: uread of a V pair. -/
def Cane.uread64 (c : Cane) (i : Nat) : Dword := c.V64 i (firstLane c.unguarded)

/-- R43: the base of an address operand for a lane. -/
def Cane.baseAt (c : Cane) (f : BitVec 7) (l : Nat) : Dword :=
  if f.getLsbD 6 then (c.aff (f.toNat % 16)).at l else c.V64 f.toNat l

/-- R44: the V offset of a lane; field 127 is none. -/
def Cane.voffAt (c : Cane) (b : BitVec 7) (l : Nat) : Dword :=
  if b = 127#7 then 0 else (c.V b.toNat l).signExtend 64

/-- R44: the address of lane l of a form with an offset operand. -/
def State.addrAt (s : State) (f b : BitVec 7) (l : Nat) : Dword :=
  s.cur.baseAt f l + s.cur.voffAt b l + s.off

/-- R44: the address of lane l of a form without one. -/
def State.addrOnly (s : State) (f : BitVec 7) (l : Nat) : Dword := s.cur.baseAt f l + s.off

/-! ## Values of registers and pairs (R7, R54) -/

/-- The lane value of a register, or of a pair under a 64-bit type. -/
def Cane.val (c : Cane) (is64 : Bool) (i l : Nat) : Nat :=
  if is64 then (c.V64 i l).toNat else (c.V i l).toNat

/-- A register or a pair written in the lanes of a mask. -/
def Cane.setVal (c : Cane) (is64 : Bool) (mk : Mask) (i : Nat) (f : Nat → Nat) : Cane :=
  if is64 then c.setV64 mk i fun l => BitVec.ofNat 64 (f l)
  else c.setV mk i fun l => BitVec.ofNat 32 (f l)

/-- The elements of a block written; f gives the value of each element offset in each lane, computed
from the registers before any is written (R136). -/
def Cane.setBlock (c : Cane) (is64 : Bool) (mk : Mask) (d : Nat) (offs : List Nat)
    (f : Nat → Nat → Nat) : Cane :=
  offs.foldl (fun c o => c.setVal is64 mk (d + o) (f o)) c

/-- The registers of a V-role operand that an element reads. -/
def readsOf (is64 : Bool) (fields : List (BitVec 7)) (o : Nat) : List Nat :=
  fields.flatMap fun f => if is64 then [f.toNat + o, f.toNat + o + 1] else [f.toNat + o]

end Sys2Proof.Machine
end

