-- ==== Sys2Proof/Machine/Flags.lean ====
section
/-! DEFINITION. FLAGS (R14, R15): how the lanes of an instruction raise its sticky bits, the packing of
element results, and the stochastic generator's steps (R63). -/

namespace Sys2Proof.Machine

/-- The result of one lane: its value and the flags its elements raise. -/
structure LaneRes where
  value : Nat
  flags : Word
  deriving DecidableEq, Repr

/-- R15: the conditions that the active lanes raise. -/
def flagsOf (mk : Mask) (f : Nat → Word) : Word :=
  (lanesOf mk).foldl (fun w l => w ||| f l) 0

/-- The conditions of every element of a block. -/
def blockFlags (mk : Mask) (offs : List Nat) (f : Nat → Nat → Word) : Word :=
  offs.foldl (fun w o => w ||| flagsOf mk (f o)) 0

/-- R15: FLAGS bits are sticky. -/
def Cane.raiseFlags (c : Cane) (w : Word) : Cane := { c with flags := c.flags ||| w }

/-- R54: a lane's result from its element results, element 0 lowest. -/
def packRes (w : Nat) (rs : List ElemRes) : LaneRes :=
  ⟨packElems w (rs.map (·.bits)), rs.foldl (fun f r => f ||| r.flags) 0⟩

/-- R63: the generator after n steps. -/
def lfsrIter : Nat → Word → Word
  | 0, s => s
  | n + 1, s => lfsrIter n (lfsrStep s)

/-- R63: how many lanes step the generator for one element. -/
def srLanes (u : Bool) (mk : Mask) : Nat :=
  if u then (if mk = 0 then 0 else 1) else (lanesOf mk).length

/-- R63: the generator value that lane l of the n-th element of a block uses. -/
def Cane.srAt (c : Cane) (u : Bool) (mk : Mask) (n l : Nat) : Word :=
  let rank := if u then 0 else ((lanesOf mk).filter fun k => decide (k < l)).length
  lfsrIter (n * srLanes u mk + rank + 1) c.lfsr

/-- R63: SYS.LFSR after an instruction of n elements that rounds stochastically. -/
def Cane.stepLfsr (c : Cane) (u : Bool) (mk : Mask) (n : Nat) : Cane :=
  { c with lfsr := lfsrIter (n * srLanes u mk) c.lfsr }

/-! ## Element-wise instructions (R136, R146, R175) -/

/-- MODE.ET is I64 or N64. -/
def Cane.is64 (c : Cane) : Bool := (c.etype.map ElemType.is64).getD false

/-- The registers a block reads (R146, R148). -/
def Cane.blockReads (c : Cane) (is64 : Bool) (srcs : List (BitVec 7)) : List Nat :=
  (c.blockOffsets is64).flatMap (readsOf is64 srcs)

/-- Steps 3 to 7 of R53 for an element-wise instruction on these V fields. -/
def Cane.vChecks (c : Cane) (accepts : ElemType → Bool) (readsRM : Bool) (fields : List (BitVec 7)) :
    List (Bool × Cause) :=
  [c.beyond (fields.map (·.toNat)), c.blockBeyond c.is64 fields, c.badType accepts]
    ++ (if readsRM then [c.badRM] else [])
    ++ [oddField c.is64 fields, c.badBlock c.is64 fields]

/-- R136, R146, R175: the effect of an element-wise instruction: every source of the block is read, then
each element's result is written in the active lanes and the flags are raised. f takes the generator's
value (R63), used under sr, and the lane values of the sources. -/
def State.vectorOp (s : State) (m : Marks) (sr : Bool) (d : BitVec 7) (srcs : List (BitVec 7))
    (f : Word → List Nat → LaneRes) : State :=
  let c := s.cur
  let mk := c.active
  let offs := c.blockOffsets c.is64
  let res (o l : Nat) : LaneRes :=
    f (if sr then c.srAt m.u mk (offs.idxOf o) l else 0)
      (srcs.map fun r => c.val c.is64 (r.toNat + o) (srcLane m.u mk l))
  let s := s.chargeVec m.u mk (offs.map (readsOf c.is64 srcs))
  (s.updCur fun k =>
    let k := (k.setBlock c.is64 mk d.toNat offs fun o l => (res o l).value).raiseFlags
      (blockFlags mk offs fun o l => (res o l).flags)
    if sr then k.stepLfsr m.u mk offs.length else k).finish m

/-- The result of one lane, element by element (R136, R175). -/
def perElem (t : ElemType) (g : Nat → List Nat → ElemRes) (vals : List Nat) : LaneRes :=
  packRes t.width ((List.range t.count).map fun j => g j (vals.map fun v => elemBits t v j))

/-- An element function of one operand. -/
def un (h : Nat → ElemRes) : List Nat → ElemRes
  | [a] => h a
  | _ => ⟨0, 0⟩
/-- An element function of two operands. -/
def bin (h : Nat → Nat → ElemRes) : List Nat → ElemRes
  | [a, b] => h a b
  | _ => ⟨0, 0⟩
/-- An element function of three operands. -/
def tri (h : Nat → Nat → Nat → ElemRes) : List Nat → ElemRes
  | [d, a, b] => h d a b
  | _ => ⟨0, 0⟩

/-- A predicate written by a lane function, in the active lanes (R141, R142). -/
def maskOf (f : Nat → Bool) : Mask :=
  lanes.foldl (fun w l => if f l then w ||| (1#32 <<< l) else w) 0

end Sys2Proof.Machine
end

