-- ==== Sys2Proof/Machine/Control.lean ====
section
/-! DEFINITION. The control instructions (R115 to R127) and the reconvergence of a cane (R118). -/

namespace Sys2Proof.Machine

/-- R116: NOP. -/
def execNop (m : Marks) (s : State) : Out := .next (s.finishOnce m)

/-- R13, R117: the 64-bit value v becomes MODE, unless one of its bits [63:28] is set. -/
def State.writeMode (s : State) (m : Marks) (regs : List Nat) (v : Dword) : Out :=
  s.attemptReading (operandLanes true s.cur.unguarded) regs
    [s.cur.beyond regs, (v.extractLsb' 28 36 != 0, .illegalMode)]
    ((s.updCur fun c => { c with mode := v.extractLsb' 0 32 }).finishOnce m)

/-- R117: MODE writes all of MODE from the immediate. -/
def execMode (m : Marks) (i : BitVec 14) (s : State) : Out := s.writeMode m [] (s.imm i)

/-- R117: MODER writes all of MODE from a V register read through uread. -/
def execModer (m : Marks) (a : BitVec 7) (s : State) : Out :=
  s.writeMode m [a.toNat] ((s.cur.uread a.toNat).zeroExtend 64)

/-- R48: a branch target. -/
def State.target (s : State) (j : BitVec 21) : Dword := s.iss.addr + j.signExtend 64

/-- R120: a branch that splits recon into t, which takes it, and n: the path at the lower address runs
first and the other waits in a PENDING entry. -/
def Cane.diverge (c : Cane) (t n : Mask) (tgt fall : Dword) : Cane :=
  if tgt < fall then
    { c with stack := ⟨.pending, fall, n⟩ :: c.stack, recon := t, pc := tgt }
  else
    { c with stack := ⟨.pending, tgt, t⟩ :: c.stack, recon := n, pc := fall }

/-- R120: BRA. -/
def execBra (m : Marks) (j : BitVec 21) (s : State) : Out :=
  let c := s.cur
  let t := c.unguarded &&& c.guardMask
  let n := c.unguarded &&& ~~~c.guardMask
  let tgt := s.target j
  let s1 := s.charge 0 1 0
  if t = 0 then .next (s1.finish m)
  else if n = 0 ∨ tgt = s.fall then .next (s1.goTo m tgt)
  else s.attempt [(decide (16 ≤ c.stack.length), .divergeDepth)]
    (let c' := c.diverge t n tgt s.fall
     (s1.updCur fun k => { k with stack := c'.stack, recon := c'.recon }).goTo m c'.pc)

/-- R121: BRAU; with no lane in recon and not QMASK no bit of the guard is 1, and it falls through. -/
def execBrau (m : Marks) (j : BitVec 21) (s : State) : Out :=
  let c := s.cur
  let taken := c.unguarded != 0 && c.guardMask.getLsbD (firstLane c.unguarded)
  .next ((s.charge 0 1 0).goTo m (if taken then s.target j else s.fall))

/-- R119: JOIN. -/
def execJoin (m : Marks) (j : BitVec 21) (s : State) : Out :=
  s.attempt [(decide (16 ≤ s.cur.stack.length), .divergeDepth)]
    ((s.updCur fun c => { c with stack := ⟨.join, s.target j, c.recon⟩ :: c.stack }).finishOnce m)

/-- R122: CALL. -/
def execCall (m : Marks) (j : BitVec 21) (s : State) : Out :=
  .next (((s.charge 0 1 0).updCur fun c => { c with link := s.fall }).goTo m (s.target j))

/-- R122: RET. -/
def execRet (m : Marks) (s : State) : Out := .next ((s.charge 0 1 0).goTo m s.cur.link)

/-- R122: JMPR. -/
def execJmpr (m : Marks) (a : BitVec 6) (s : State) : Out :=
  let t := s.cur.uread64 (2 * a.toNat)
  let regs := [2 * a.toNat, 2 * a.toNat + 1]
  s.attemptReading (operandLanes true s.cur.unguarded) regs [s.cur.beyond regs, (t.getLsbD 63, .illegalEncoding)]
    ((s.charge 0 1 0).goTo m t)

/-- R115: an n of TRAP, BKPT or MARK above 65535. -/
def State.badN (s : State) (i : BitVec 14) : Bool × Cause :=
  (decide (65535 < (s.imm i).toNat), .illegalEncoding)

/-- R127: TRAP, taken when recon and not QMASK is not 0. -/
def execTrap (m : Marks) (i : BitVec 14) (s : State) : Out :=
  s.attempt [s.badN i]
    (if s.cur.unguarded = 0 then s.finishOnce m
     else (s.charge 0 1 0).trapWith .trapInstruction ((s.imm i).extractLsb' 0 32) s.cur.active [])

/-- R127, R357: BKPT: a cane of a terrace with a debugger attached parks; one that has parked here goes past the
instruction when it is resumed, by whatever way (log entry 10). -/
def execBkpt (m : Marks) (i : BitVec 14) (s : State) : Out :=
  let attached := (s.terrace (s.wgOf s.cur).terrace).dbg.attach
  s.attempt [s.badN i]
    (if s.cur.unguarded = 0 then s.finishOnce m
     else if s.cur.passBkpt then s.finishOnce m
     else if attached then
       ((s.charge 0 1 0).debugPark 1 .breakpoint 0).updCur fun c => { c with passBkpt := true }
     else (s.charge 0 1 0).trapWith .breakpoint ((s.imm i).extractLsb' 0 32) s.cur.active [])

/-- R126: ERET. -/
def execEret (m : Marks) (s : State) : Out :=
  s.attempt s.cur.eretChecks
    (((s.charge 0 1 0).updCur fun c => c.eret).goTo m s.cur.epc)

/-- R123: EXIT #0: the lanes of recon retire and the cane resumes its next stack entry, or retires. -/
def execExit0 (m : Marks) (s : State) : Out :=
  s.attempt [s.wide] (((s.finishOnce m).updCur Cane.retireLanes).resume)

/-- R317: the issuing cane's section state in its exit record becomes 1. -/
def State.sectionDone (s : State) : State :=
  let w := s.wgOf s.cur
  match w.exitRec with
  | some e => s.ctxWrite w.ctx (e.addr + 64 + s.cur.idx * sectionBytes e.carry + 13) [1#8] false
  | none => s

/-- R317: EXIT #1 ends the cane's exit routine. The exit is decided when every live cane of the workgroup
has executed it (R318). -/
def execExit1 (m : Marks) (s : State) : Out :=
  s.attempt [s.wide, (s.cur.routine != .exit, .illegalEncoding)]
    ((s.sectionDone.finishOnce m).updCur fun c =>
      { c with routineDone := true, wait := .routineDone, pipe := none })

/-- R321: the section the device holds for a cane that resumes. -/
def Workgroup.heldFor (w : Workgroup) (idx : Nat) : Option HeldSection :=
  w.held.find? fun h => h.cane == idx

/-- R321: a cane takes its held section back. -/
def Cane.restore (c : Cane) (h : HeldSection) : Cane :=
  { c with mode := h.mode, p := h.preds, qmask := h.qmask, recon := h.recon, stack := h.stack,
           pc := h.pc, routine := .none, routineDone := false }

/-- R321 step 4: when no cane of a workgroup runs an entry routine, the exit record becomes EMPTY. -/
def State.entryDone (s : State) (wg : Nat) : State :=
  if (s.canesOf wg).any fun c => c.routine == .entry then s
  else match s.findWg wg with
    | none => s
    | some w =>
      let s := match w.parcel.bind s.findParcel with
        | some p => s.ctxWrite w.ctx (p.exitRecord w.linear + 4) [0#8] false
        | none => s
      s.updWg wg fun w => { w with resuming := false, held := [] }

/-- R321: EXIT #2 ends the cane's entry routine: MODE, predicates, QMASK, recon, stack and the resume PC
come from the held record. -/
def execExit2 (m : Marks) (s : State) : Out :=
  s.attempt [s.wide, (s.cur.routine != .entry, .illegalEncoding)]
    (let s := s.finishOnce m
     match (s.wgOf s.cur).heldFor s.cur.idx with
     | some h => (s.updCur fun c => c.restore h).entryDone s.cur.wg
     | none => s)

/-- R118: one turn of reconverge(): the arriving lanes wait, or the JOIN entry is taken. -/
def Cane.reconvergeOnce (c : Cane) : Option Cane :=
  match c.stack.find? fun e => e.kind == .join with
  | none => none
  | some j =>
    if c.pc = j.pc then
      match c.stack with
      | e :: rest =>
        if e.kind = .pending then some { c with recon := e.mask, pc := e.pc, stack := rest }
        else some { c with recon := j.mask, stack := rest }
      | [] => none
    else none

/-- R118: reconverge(); each turn pops an entry, so 17 turns suffice. -/
def Cane.reconverge (c : Cane) : Nat → Cane
  | 0 => c
  | n + 1 =>
    match c.reconvergeOnce with
    | some d => d.reconverge n
    | none => c

/-- R118: RECONVERGE: before an instruction issues, entries at PC are popped. -/
def execReconverge (cane : Nat) (s : State) : Out :=
  .next (s.updCane cane fun c => c.reconverge (c.stack.length + 1))

/-- R28: FORCED_SWITCH: a cane that has issued 128 instructions without a switch marker is switched. -/
def execForcedSwitch (cane : Nat) (s : State) : Out :=
  .next (s.updCane cane fun c =>
    if 128 ≤ c.sinceSwitch && c.wait == .none then c.switch else c)

end Sys2Proof.Machine
end

