-- ==== Sys2Proof/Machine/Float.lean ====
section
/-! DEFINITION. The floating-point instructions (R175 to R181). -/

namespace Sys2Proof.Machine

/-- R176: ET 9 and 10. -/
def halfFloat : ElemType → Bool
  | .fp16 | .bf16 => true
  | _ => false

/-- R176: ET 8 to 10. -/
def wideFloat : ElemType → Bool
  | .fp32 | .fp16 | .bf16 => true
  | _ => false

/-- R175: an instruction that rounds: its checks, and the effect element by element under MODE. h takes
the format, the mode, the generator's value and the operands' elements, flushed under FTZ. -/
def State.floatOp (s : State) (m : Marks) (accepts : ElemType → Bool) (usesRM : Bool) (d : BitVec 7)
    (srcs : List (BitVec 7)) (h : ElemType → RMode → Nat → List Nat → ElemRes) : Out :=
  let c := s.cur
  let t := c.etype.getD .fp32
  let rm := c.rmode.getD .rne
  let sr := usesRM && decide (c.rmode = some .sr)
  s.attemptReading (operandLanes m.u c.active) (c.blockReads false srcs) (c.vChecks accepts usesRM (d :: srcs))
    (s.vectorOp m sr d srcs fun w =>
      perElem t fun j vals => h t rm (if sr then srBits w j else 0) (vals.map (flushIn c.ftz t.fmt)))

/-- R175: the exact result of an operation on reals, rounded to the type. -/
def State.roundOp (s : State) (m : Marks) (d : BitVec 7) (srcs : List (BitVec 7))
    (x : RMode → List FReal → FReal) : Out :=
  s.floatOp m ElemType.isFloat true d srcs fun t rm g vals =>
    deliverF t.fmt rm s.cur.sat s.cur.ftz g (x rm (vals.map fun v => (decodeF t.fmt v).toReal))

/-- Operand n of an operation. -/
def nth (xs : List FReal) (n : Nat) : FReal := xs.getD n (.nan false)

/-- R176: FADD. -/
def execFadd (m : Marks) (d a b : BitVec 7) (s : State) : Out :=
  s.roundOp m d [a, b] fun rm x => addReal rm (nth x 0) (nth x 1)
/-- R176: FSUB. -/
def execFsub (m : Marks) (d a b : BitVec 7) (s : State) : Out :=
  s.roundOp m d [a, b] fun rm x => addReal rm (nth x 0) (nth x 1).negate
/-- R176: FMUL. -/
def execFmul (m : Marks) (d a b : BitVec 7) (s : State) : Out :=
  s.roundOp m d [a, b] fun _ x => mulReal (nth x 0) (nth x 1)
/-- R176: FFMA. -/
def execFfma (m : Marks) (d a b : BitVec 7) (s : State) : Out :=
  s.roundOp m d [d, a, b] fun rm x => addReal rm (nth x 0) (mulReal (nth x 1) (nth x 2))
/-- R176: FFMS. -/
def execFfms (m : Marks) (d a b : BitVec 7) (s : State) : Out :=
  s.roundOp m d [d, a, b] fun rm x => addReal rm (mulReal (nth x 1) (nth x 2)) (nth x 0).negate
/-- R176: FNMA. -/
def execFnma (m : Marks) (d a b : BitVec 7) (s : State) : Out :=
  s.roundOp m d [d, a, b] fun rm x => addReal rm (nth x 0) (mulReal (nth x 1) (nth x 2)).negate
/-- R176: FSQRT. -/
def execFsqrt (m : Marks) (d a : BitVec 7) (s : State) : Out :=
  s.roundOp m d [a] fun _ x => sqrtReal (nth x 0)

/-- R59: FMIN. -/
def execFmin (m : Marks) (d a b : BitVec 7) (s : State) : Out :=
  s.floatOp m ElemType.isFloat false d [a, b] fun t _ _ => bin (minMaxF t.fmt false)
/-- R59: FMAX. -/
def execFmax (m : Marks) (d a b : BitVec 7) (s : State) : Out :=
  s.floatOp m ElemType.isFloat false d [a, b] fun t _ _ => bin (minMaxF t.fmt true)

/-- R175, R176: only the sign of a number changes; a NaN becomes canonical. -/
def signOp (f : FFmt) (g : Nat → Nat) (x : Nat) : ElemRes :=
  match decodeF f x with
  | .nan sig => ⟨f.nanBits, if sig then flagNV else 0⟩
  | _ => ⟨g x, 0⟩
/-- R176: FABS. -/
def execFabs (m : Marks) (d a : BitVec 7) (s : State) : Out :=
  s.floatOp m ElemType.isFloat false d [a] fun t _ _ => un (signOp t.fmt fun x => x % t.fmt.signBit)
/-- R176: FNEG. -/
def execFneg (m : Marks) (d a : BitVec 7) (s : State) : Out :=
  s.floatOp m ElemType.isFloat false d [a] fun t _ _ =>
    un (signOp t.fmt fun x => if t.fmt.signBit ≤ x then x - t.fmt.signBit else x + t.fmt.signBit)

/-- R179: FSETP acts 1 × 1: a lane's bit is 1 when the condition holds for every element. -/
def execFsetp (m : Marks) (cc : BitVec 4) (p : BitVec 3) (a b : BitVec 7) (s : State) : Out :=
  let c := s.cur
  let mk := c.active
  let t := c.etype.getD .fp32
  let reads := [a.toNat, b.toNat]
  let elem (r l j : Nat) : FVal :=
    decodeF t.fmt (flushIn c.ftz t.fmt (elemBits t (c.V r (srcLane m.u mk l)).toNat j))
  let js := List.range t.count
  let bit (l : Nat) : Bool := js.all fun j => fcond cc.toNat (elem a.toNat l j) (elem b.toNat l j)
  let flags (l : Nat) : Word :=
    if js.any fun j => (elem a.toNat l j).isSignalling || (elem b.toNat l j).isSignalling then flagNV
    else 0
  s.attemptReading (operandLanes m.u mk) reads [c.beyond reads, c.badType ElemType.isFloat]
    (((s.chargeVec m.u mk [reads]).updCur fun k =>
      (k.setP mk p.toNat (maskOf bit)).raiseFlags (flagsOf mk flags)).finish m)

/-- R66: an approximate function of one element: the opcode and the type choose, with the operand, which
of the two bracketing values is returned. -/
def State.approxOp (s : State) (m : Marks) (op : Nat) (d a : BitVec 7)
    (h : FFmt → Bool → Bool → FVal → ElemRes) : Out :=
  s.floatOp m wideFloat false d [a] fun t _ _ =>
    un fun x => h t.fmt s.cur.ftz (Config.approxUpper op s.cur.et x) (decodeF t.fmt x)

/-- R66: FRCP. -/
def execFrcp (m : Marks) (d a : BitVec 7) (s : State) : Out := s.approxOp m 0x5B d a rcpF
/-- R66: FRSQ. -/
def execFrsq (m : Marks) (d a : BitVec 7) (s : State) : Out := s.approxOp m 0x5C d a rsqF
/-- R66: FEXP2. -/
def execFexp2 (m : Marks) (d a : BitVec 7) (s : State) : Out := s.approxOp m 0x5E d a exp2F
/-- R66: FLOG2. -/
def execFlog2 (m : Marks) (d a : BitVec 7) (s : State) : Out := s.approxOp m 0x5F d a log2F

/-- R178: FDOT2: two exact products summed and rounded once to FP32. -/
def execFdot2 (m : Marks) (d a b : BitVec 7) (s : State) : Out :=
  let c := s.cur
  let t := c.etype.getD .fp16
  let rm := c.rmode.getD .rne
  let sr := decide (c.rmode = some .sr)
  let elem (v j : Nat) : FReal := (decodeF t.fmt (flushIn c.ftz t.fmt (elemBits t v j))).toReal
  s.attemptReading (operandLanes m.u c.active) (c.blockReads false [a, b]) (c.vChecks halfFloat true [d, a, b])
    (s.vectorOp m sr d [a, b] fun w vals =>
      let x := vals.getD 0 0
      let y := vals.getD 1 0
      let r := addReal rm (mulReal (elem x 0) (elem y 0)) (mulReal (elem x 1) (elem y 1))
      let e := deliverF fmt32 rm false c.ftz (if sr then srBits w 0 else 0) r
      ⟨e.bits, e.flags⟩)

/-- A real scaled by 2^n. A scale beyond ±1024 gives what ±1024 gives in every format. -/
def scaleReal (n : Int) : FReal → FReal
  | .real x => .real { x with e := x.e + max (-1024) (min 1024 n) }
  | r => r

/-- R176: FSCALE: B is one I32 for every element of the lane. -/
def execFscale (m : Marks) (d a b : BitVec 7) (s : State) : Out :=
  let c := s.cur
  let t := c.etype.getD .fp32
  let rm := c.rmode.getD .rne
  let sr := decide (c.rmode = some .sr)
  s.attemptReading (operandLanes m.u c.active) (c.blockReads false [a, b]) (c.vChecks ElemType.isFloat true [d, a, b])
    (s.vectorOp m sr d [a, b] fun w vals =>
      let n := intOf .i32 (vals.getD 1 0)
      perElem t (fun j => un fun x =>
        deliverF t.fmt rm c.sat c.ftz (if sr then srBits w j else 0)
          (scaleReal n (decodeF t.fmt (flushIn c.ftz t.fmt x)).toReal)) [vals.getD 0 0])

/-- R180: FCLASS applies no FTZ and sets no flag. -/
def execFclass (m : Marks) (d a : BitVec 7) (s : State) : Out :=
  let c := s.cur
  let t := c.etype.getD .fp32
  s.attemptReading (operandLanes m.u c.active) (c.blockReads false [a]) (c.vChecks ElemType.isFloat false [d, a])
    (s.vectorOp m false d [a] fun _ => perElem t fun _ => un fun x => ⟨classF t.fmt x, 0⟩)

/-- R181: FRND. -/
def execFrnd (m : Marks) (d a : BitVec 7) (s : State) : Out :=
  s.floatOp m ElemType.isFloat true d [a] fun t rm g => un (rndF t.fmt rm g)

end Sys2Proof.Machine
end

