-- ==== Sys2Proof/Machine/Cross.lean ====
section
/-! DEFINITION. The affine and the cross-lane instructions (R182 to R187). -/

namespace Sys2Proof.Machine

/-! ## The affine group (R182) -/

/-- R182: an affine instruction that writes one affine register when some lane is active. -/
def State.affineOp (s : State) (m : Marks) (regs : List Nat) (d : BitVec 4) (x : Affine) : Out :=
  s.attemptReading (operandLanes true s.cur.active) regs [s.cur.beyond regs]
    ((if s.cur.active = 0 then s else s.updCur fun c => c.setA d.toNat x).finishOnce m)

/-- R36: uread of a guarded instruction. -/
def Cane.gread (c : Cane) (i : Nat) : Word := c.V i (firstLane c.active)

/-- R182: ASET. -/
def execAset (m : Marks) (d : BitVec 4) (a : BitVec 6) (b : BitVec 7) (s : State) : Out :=
  let base := s.cur.V64 (2 * a.toNat) (firstLane s.cur.active)
  s.affineOp m [2 * a.toNat, 2 * a.toNat + 1, b.toNat] d ⟨base, s.cur.gread b.toNat⟩
/-- R182: AADD. -/
def execAadd (m : Marks) (d a : BitVec 4) (b : BitVec 7) (s : State) : Out :=
  let x := s.cur.aff a.toNat
  s.affineOp m [b.toNat] d ⟨x.base + (s.cur.gread b.toNat).signExtend 64, x.stride⟩
/-- R182: ASTR. -/
def execAstr (m : Marks) (d a : BitVec 4) (b : BitVec 7) (s : State) : Out :=
  s.affineOp m [b.toNat] d ⟨(s.cur.aff a.toNat).base, s.cur.gread b.toNat⟩
/-- R182: AMUL. -/
def execAmul (m : Marks) (d a : BitVec 4) (b : BitVec 7) (s : State) : Out :=
  let x := s.cur.aff a.toNat
  s.affineOp m [b.toNat] d ⟨x.base, x.stride * s.cur.gread b.toNat⟩
/-- R182: AEXP. -/
def execAexp (m : Marks) (d a : BitVec 4) (b : BitVec 7) (s : State) : Out :=
  let x := s.cur.aff a.toNat
  s.affineOp m [b.toNat] d
    ⟨x.base + x.stride.signExtend 64 * (s.cur.gread b.toNat).signExtend 64, x.stride⟩

/-- R182: an address written into a pair, lane by lane. -/
def State.pairOp (s : State) (m : Marks) (regs : List Nat) (d : BitVec 6) (f : Nat → Dword) : Out :=
  let mk := s.cur.active
  s.attemptReading (operandLanes m.u mk) regs [s.cur.beyond ([2 * d.toNat, 2 * d.toNat + 1] ++ regs)]
    (((s.chargeVec m.u mk [regs]).updCur fun c =>
      c.setV64 mk (2 * d.toNat) fun l => f (srcLane m.u mk l)).finish m)
/-- R182: AGET. -/
def execAget (m : Marks) (d : BitVec 6) (a : BitVec 4) (s : State) : Out :=
  s.pairOp m [] d fun l => (s.cur.aff a.toNat).at l

/-- R43, R44: the V registers an address operand reads. -/
def addrRegs (f : BitVec 7) : List Nat := if f.getLsbD 6 then [] else [f.toNat, f.toNat + 1]
/-- R44: the V register an offset operand reads. -/
def voffRegs (b : BitVec 7) : List Nat := if b = 127#7 then [] else [b.toNat]

/-- R182: ADDR makes no access. -/
def execAddr (m : Marks) (d : BitVec 6) (a b : BitVec 7) (s : State) : Out :=
  s.pairOp m (addrRegs a ++ voffRegs b) d fun l => s.addrAt a b l

/-! ## Moves between lanes (R183, R184) -/

/-- R184: each active lane takes A from a source lane; sel gives it from the lane and B's low word, which BCAST (once)
reads through `uread`. A is read in the source lanes alone. -/
def State.shuffle (s : State) (m : Marks) (once : Bool) (d a b : BitVec 7) (sel : Cane → Nat → Nat → Nat) : Out :=
  let c := s.cur
  let mk := c.active
  let offs := c.blockOffsets c.is64
  let src (o l : Nat) : Nat :=
    if m.u then firstLane mk else sel c (b.toNat + o) l
  let named := offs.foldl (fun w o => (lanesOf mk).foldl (fun w l => w ||| (1#32 <<< src o l)) w) 0
  s.attemptReading (operandLanes (m.u || once) mk) (c.blockReads c.is64 [b]) (c.vChecks (fun _ => true) false [d, a, b])
    (((s.chargeVec m.u mk (offs.map (readsOf c.is64 [a, b]))).updCur fun k =>
      k.setBlock c.is64 mk d.toNat offs fun o l => c.val c.is64 (a.toNat + o) (src o l)).finish m)
    (named, c.blockReads c.is64 [a])

/-- R184: SHFL. -/
def execShfl (m : Marks) (d a b : BitVec 7) (s : State) : Out :=
  s.shuffle m false d a b fun c r l => (c.V r l).toNat % 32
/-- R184: SHFLX. -/
def execShflx (m : Marks) (d a b : BitVec 7) (s : State) : Out :=
  s.shuffle m false d a b fun c r l => l ^^^ ((c.V r l).toNat % 32)
/-- R184: BCAST. -/
def execBcast (m : Marks) (d a b : BitVec 7) (s : State) : Out :=
  s.shuffle m true d a b fun c r _ => (c.V r (firstLane c.active)).toNat % 32

/-! ## Votes (R185) -/

/-- R185: a vote's predicate result. -/
def State.vote (s : State) (m : Marks) (d a : BitVec 3) (f : Mask → Mask → Bool) : Out :=
  let mk := s.cur.active
  let p := s.cur.pred a.toNat
  let r := if m.u then p.getLsbD (firstLane mk) else f p mk
  .next (((s.chargeVec m.u mk [[]]).updCur fun k => k.setP mk d.toNat (if r then mk else 0)).finish m)
/-- R185: VOTE.ANY. -/
def execVoteAny (m : Marks) (d a : BitVec 3) (s : State) : Out :=
  s.vote m d a fun p mk => p &&& mk != 0
/-- R185: VOTE.ALL. -/
def execVoteAll (m : Marks) (d a : BitVec 3) (s : State) : Out :=
  s.vote m d a fun p mk => p &&& mk == mk
/-- R185: VOTE.BAL. -/
def execVoteBal (m : Marks) (d : BitVec 7) (a : BitVec 3) (s : State) : Out :=
  let mk := s.cur.active
  let p := s.cur.pred a.toNat
  let r := if m.u then (if p.getLsbD (firstLane mk) then mk else 0) else p &&& mk
  s.attempt [s.cur.beyond [d.toNat]]
    (((s.chargeVec m.u mk [[]]).updCur fun k => k.setV mk d.toNat fun _ => r).finish m)

/-! ## Sums over lanes (R186, R187) -/

/-- A tree value: empty, or a lane value with the flags raised in forming it. -/
abbrev TreeVal := Option LaneRes

/-- R186: one addition of two lane values under MODE: IADD under R55, or FADD under R175. -/
def Cane.addLane (c : Cane) (t : ElemType) (x y : Nat) : LaneRes :=
  let rm := c.rmode.getD .rne
  perElem t (fun _ => bin fun a b =>
    if t.isFloat then
      deliverF t.fmt rm c.sat c.ftz 0
        (addReal rm (decodeF t.fmt (flushIn c.ftz t.fmt a)).toReal
          (decodeF t.fmt (flushIn c.ftz t.fmt b)).toReal)
    else deliverInt c.sat t (intOf t a + intOf t b)) [x, y]

/-- R186: ⊕: an empty side adds nothing. -/
def Cane.join (c : Cane) (t : ElemType) : TreeVal → TreeVal → TreeVal
  | none, y => y
  | x, none => x
  | some x, some y =>
    let r := c.addLane t x.value y.value
    some ⟨r.value, x.flags ||| y.flags ||| r.flags⟩

/-- R186: node(lane, 2^k). -/
def Cane.node (c : Cane) (t : ElemType) (leaf : Nat → TreeVal) : Nat → Nat → TreeVal
  | 0, lane => leaf lane
  | k + 1, lane => c.join t (c.node t leaf k lane) (c.node t leaf k (lane + 2 ^ k))

/-- R186: the leaves: an active lane's A. -/
def Cane.leaf_ (c : Cane) (u : Bool) (r l : Nat) : TreeVal :=
  let mk := c.active
  if mk.getLsbD l then some ⟨c.val c.is64 r (srcLane u mk l), 0⟩ else none

/-- R187: the inclusive sum of a lane, from the nodes of 32, 16, ... lanes that l + 1 names. -/
def Cane.scanAt (c : Cane) (t : ElemType) (leaf : Nat → TreeVal) (l : Nat) : TreeVal :=
  (([5, 4, 3, 2, 1, 0] : List Nat).foldl (fun (acc : TreeVal × Nat) k =>
    if (l + 1).testBit k then (c.join t acc.1 (c.node t leaf k acc.2), acc.2 + 2 ^ k) else acc)
    (none, 0)).1

/-- R186: the types REDC and SCAN accept. -/
def sumType : ElemType → Bool
  | .nq4 => false
  | _ => true

/-- R186, R187: the checks of REDC and SCAN: MODE.RM is read under a float type, where SR traps. -/
def Cane.sumChecks (c : Cane) (d a : BitVec 7) : List (Bool × Cause) :=
  let fl := (c.etype.map ElemType.isFloat).getD false
  [c.beyond [d.toNat, a.toNat], c.blockBeyond c.is64 [d, a], c.badType sumType,
   (fl && (c.rmode.isNone || c.rmode == some .sr), .illegalMode),
   oddField c.is64 [d, a], c.badBlock c.is64 [d, a]]

/-- R186, R187: a sum over lanes written to the active lanes, with the flags of every addition made. -/
def State.laneSum (s : State) (m : Marks) (d a : BitVec 7)
    (f : Cane → ElemType → (Nat → TreeVal) → Nat → TreeVal) : Out :=
  let c := s.cur
  let mk := c.active
  let t := c.etype.getD .i32
  let offs := c.blockOffsets c.is64
  let res (o l : Nat) : LaneRes := (f c t (c.leaf_ m.u (a.toNat + o)) l).getD ⟨0, 0⟩
  s.attemptReading (operandLanes m.u mk) (c.blockReads c.is64 [a]) (c.sumChecks d a)
    (((s.chargeVec m.u mk (offs.map (readsOf c.is64 [a]))).updCur fun k =>
      (k.setBlock c.is64 mk d.toNat offs fun o l => (res o l).value).raiseFlags
        (blockFlags mk offs fun o l => (res o l).flags)).finish m)

/-- R186: REDC. -/
def execRedc (m : Marks) (d a : BitVec 7) (s : State) : Out :=
  s.laneSum m d a fun c t leaf _ => c.node t leaf 5 0
/-- R187: SCAN. -/
def execScan (m : Marks) (d a : BitVec 7) (s : State) : Out :=
  s.laneSum m d a fun c t leaf l => c.scanAt t leaf l

end Sys2Proof.Machine
end

