-- ==== Sys2Proof/Machine/System.lean ====
section
/-! DEFINITION. The system instructions that act on one cane (R128 to R132, R354), the power controller
of a cluster with its events (R375 to R387), and TLB.INV (R135). -/

namespace Sys2Proof.Machine

/-! ## Special registers (R18, R129, R130) -/

/-- The logical cluster of a cane (R18, R431). -/
def State.clusterNumber (s : State) (c : Cane) : Nat :=
  if c.core < 512 then (s.cluster (clusterOfCore c.core)).logical else 0

/-- R248: SYS.TAGS of a core. -/
def Core.tagWord (c : Core) : Nat :=
  ((List.range 64).filter fun t => (getI ⟨0, false, false⟩ c.tags t).used
    && (getI ⟨0, false, false⟩ c.tags t).count == 0).foldl (fun w t => w + 2 ^ t) 0

/-- R18, R129: the value of a selector for lane l. -/
def State.sysValue (s : State) (sel l : Nat) : Nat :=
  let c := s.cur
  let w := s.wgOf c
  match sel with
  | 0x000 => l
  | 0x001 => c.idx
  | 0x002 => w.linear
  | 0x003 => s.clusterNumber c
  | 0x004 => dieNumber (dieOfCore c.core)
  | 0x005 => Config.stepping.toNat
  | 0x006 => s.cycleOf c.core
  | 0x007 => ((s.imageOf c).codeName s.iss.addr.toNat false).region
  | 0x008 => c.flags.toNat
  | 0x009 => c.link.toNat
  | 0x00A => c.priv
  | 0x00B => c.lfsr.toNat
  | 0x00C => (s.core c.core).tagWord
  | 0x00D => c.qmask.toNat
  | 0x00E => c.mode.toNat
  | 0x010 => c.epc.toNat
  | 0x011 => c.estat.toNat
  | 0x012 => c.emask.toNat
  | 0x013 => c.earg.toNat
  | 0x014 => c.tvec.toNat
  | 0x015 => c.gfm.toNat
  | 0x016 => c.batches.length
  | 0x017 => c.stack.length
  | 0x018 => s.parcelAddr w.parcel
  | 0x019 => w.priority
  | 0x01A => c.core % 4
  | 0x01B => w.member.getD 0xFFFFFFFF
  | 0x01C => w.ncanes
  | 0x01D => w.scrSize
  | 0x01E => c.nreg
  | 0x01F => if w.terrace < 16 then w.terrace else 0xFFFFFFFF
  | 0x020 => s.rtime
  | _ => 0

/-- The registers that a selector's D names. -/
def sysRegs (is64 : Bool) (d : Nat) : List Nat := if is64 then [d, d + 1] else [d]

/-- R129: a selector is 64 bits wide. -/
def sysWide (i : BitVec 12) : Bool := sysWidth i.toNat == some 64

/-- R130: a cluster's cycles without an issue count as passed when SYS.CYCLE is read. -/
def State.readClock (s : State) (sel : Nat) : State :=
  if sel = 0x006 then
    ({ s with freeCount := s.freeCount + 1 } : State).passCycles (clusterOfCore s.cur.core) (Config.idleCycles s.freeCount)
  else s

/-- R130: SYS.RD. -/
def execSysRd (m : Marks) (d : BitVec 7) (i : BitVec 12) (s : State) : Out :=
  let mk := s.cur.unguarded
  s.attempt [s.wide, s.cur.beyond (sysRegs (sysWide i) d.toNat)]
    (let s := s.readClock i.toNat
     (s.updCur fun c => c.setVal (sysWide i) mk d.toNat fun l =>
      s.sysValue i.toNat (srcLane m.u mk l)).finishOnce m)

/-- R129: a selector whose SYS.WR needs level S. -/
def sysGuarded (sel : Nat) : Bool := decide (0x010 ≤ sel) && decide (sel ≤ 0x014)

/-- R5, R125, R130: a value written to a selector by its fields' access codes; a read-only one keeps its
value. -/
def Cane.sysWrite (c : Cane) (sel : Nat) (v : Dword) : Cane :=
  let w : Word := v.extractLsb' 0 32
  match sel with
  | 0x008 => { c with flags := c.flags &&& ~~~(w &&& 0x3F#32) }
  | 0x009 => { c with link := v }
  | 0x00B => { c with lfsr := if w = 0 then 1#32 else w }
  | 0x010 => { c with epc := v }
  | 0x011 => { c with estat := (c.estat &&& ~~~(0x3FF#32)) ||| (w &&& 0x3FF#32) }
  | 0x012 => { c with emask := w }
  | 0x013 => { c with earg := w }
  | 0x014 => { c with tvec := v,
                      estat := (c.estat &&& ~~~(0xC00#32)) ||| BitVec.ofNat 32 (c.priv * 2 ^ 10) }
  | 0x015 => { c with gfm := c.gfm &&& ~~~w }
  | _ => c

/-- R16, R130: a parcel address with bit 63 set. -/
def badParcelAddr (sel : Nat) (v : Dword) : Bool :=
  (sel == 0x009 || sel == 0x010 || sel == 0x014) && v.getLsbD 63

/-- R130: SYS.WR. -/
def execSysWr (m : Marks) (d : BitVec 7) (i : BitVec 12) (s : State) : Out :=
  let mk := s.cur.unguarded
  let regs := sysRegs (sysWide i) d.toNat
  let v : Dword := if sysWide i then s.cur.uread64 d.toNat else (s.cur.uread d.toNat).zeroExtend 64
  s.attemptReading (operandLanes true mk) regs
    [s.wide, s.cur.beyond regs, (sysGuarded i.toNat && decide (s.cur.priv < 1), .privilege),
     (mk != 0 && badParcelAddr i.toNat v, .illegalEncoding)]
    ((if mk = 0 then s else s.updCur fun c => c.sysWrite i.toNat v).finishOnce m)

/-! ## Counters (R131, R354, R383) -/

/-- R383: a cluster's power word. -/
def Cluster.powerWord (k : Cluster) : Nat :=
  let moving := k.stage != .idle
  k.ratio + k.point * 2 ^ 17 + (if moving then k.target else k.point) * 2 ^ 20
    + (if moving then 2 ^ 23 else 0) + k.sampleSeq % 2 ^ 32 * 2 ^ 32

/-- R334: the physical cluster that is a logical cluster of a terrace now. -/
def State.clusterOfLogical (s : State) (t n : Nat) : Option Nat :=
  (List.range 128).find? fun i =>
    let k := s.cluster i
    k.enabled && k.owner == some t && k.logical == n

/-- R354, R383: the value of a counter for the issuing cane. -/
def State.perfValue (s : State) (sel : Nat) : Nat :=
  let c := s.cur
  let k := s.cluster (clusterOfCore c.core)
  if sel = 0x040 then k.powerWord
  else if sel = 0x041 then k.energy
  else if sel = 0x042 then k.hot
  else if sel = 0x043 then k.switches
  else if 0x050 ≤ sel then
    match s.clusterOfLogical (s.wgOf c).terrace (sel - 0x050) with
    | some i => (s.cluster i).powerWord
    | none => 2 ^ 64 - 1
  else getI 0 (s.core c.core).perf sel % 2 ^ 64

/-- R131, R354: PERF.RD. -/
def execPerfRd (m : Marks) (d : BitVec 6) (i : BitVec 12) (s : State) : Out :=
  let n := 2 * d.toNat
  s.attempt [s.wide, s.cur.beyond [n, n + 1]]
    ((s.updCur fun c => c.setV64 c.unguarded n fun _ =>
      BitVec.ofNat 64 (s.perfValue i.toNat)).finishOnce m)

/-! ## MARK and TRIG (R132) -/

/-- R132, R364, R365: a MARK record in the core sample, and in the trace stream. -/
def State.placeMark (s : State) (n : Nat) : State :=
  let c := s.cur
  let w := s.wgOf c
  let name := (s.imageOf c).codeName s.iss.addr.toNat s.iss.stop
  let d := dieOfCore c.core
  (s.sampleEvent d 2 w.terrace (sampleCore c.core)
    (leBytes 2 n ++ leBytes 2 0 ++ leBytes 4 name.region ++ leBytes 4 name.ordinal
      ++ leBytes 2 name.offset ++ leBytes 2 c.idx ++ leBytes 4 w.linear
      ++ leBytes 8 (s.parcelAddr w.parcel))).traceEvent w.terrace d c.core c.slot 2 0 name n

/-- R132: MARK. -/
def execMark (m : Marks) (i : BitVec 14) (s : State) : Out :=
  s.attempt [s.badN i]
    ((if s.cur.unguarded = 0 then s else s.placeMark (s.imm i).toNat).finishOnce m)

/-- R132, R363: TRIG. -/
def execTrig (m : Marks) (e : BitVec 4) (s : State) : Out :=
  let c := s.cur
  let w := s.wgOf c
  let d := dieOfCore c.core
  let name := (s.imageOf c).codeName s.iss.addr.toNat s.iss.stop
  s.attempt [s.wide, s.below 1]
    ((if c.unguarded = 0 then s
      else (s.traceCond d fun _ x => condIs x 2 e.toNat).traceEvent w.terrace d c.core c.slot 3
        e.toNat name name.offset).finishOnce m)

/-! ## Operating points (R375 to R386) -/

/-- R375: frequency in MHz and voltage in mV of each point. -/
def points : List (Nat × Nat) :=
  [(950, 620), (1150, 650), (1350, 680), (1500, 710), (1650, 740), (1750, 770), (1850, 800),
   (1900, 820)]

/-- f·V² of a point. -/
def pointPower (p : Nat) : Nat := let x := getI (1900, 820) points p; x.1 * x.2 * x.2

/-- A task is a MATMUL (R274). -/
def Task.isMatmul (t : Task) : Bool := leField t.record 0 1 == 0

/-- R379: a cluster's matrix engine has a MATMUL in state RUNNING. -/
def State.matmulOn (s : State) (k : Nat) : Bool :=
  s.tasks.any fun t => t.status == .running && t.isMatmul && t.cluster == k

/-- R379: the floor of a cluster. -/
def State.floorOf (s : State) (k : Nat) : Nat :=
  max (s.cluster k).floor (if s.matmulOn k then 2 else 0)

/-- R376: a transition to another point begins: an up-step with its ramp, a down-step with its
frequency switch, in which the pipes issue nothing. -/
def Cluster.begin (k : Cluster) (p : Nat) : Cluster :=
  if k.point < p then { k with target := p, stage := .rampUp }
  else { k with target := p, stage := .switchDown, issuePaused := true, switches := k.switches + 1 }

/-- R385: heat pauses the SERIAL steps of a cluster. -/
def Cluster.pausedByHeat (k : Cluster) : Bool := k.serialPaused || k.chilled

/-- R385: a cluster changes; the cycles of a pause that ends are its running task's. -/
def State.putPaused (s : State) (i : Nat) (k : Cluster) : State :=
  let old := s.cluster i
  if old.pausedByHeat = k.pausedByHeat then s.setCluster i k
  else if k.pausedByHeat then s.setCluster i { k with pauseFrom := k.cycle }
  else { s.setCluster i k with tasks := s.tasks.map fun t =>
    if t.status == .running && t.isMatmul && t.cluster == i then { t with throttled := t.throttled + (k.cycle - k.pauseFrom) }
    else t }

/-- R379, R385: the power controller raises a cluster to point 2 for its running MATMUL: at its issue, or, where a critical
move has stopped it, once HOT has fallen 3 °C below HOTLIM. -/
def State.raises (s : State) (i : Nat) (k : Cluster) : Bool :=
  s.matmulOn i && decide (k.point < 2) && if k.chilled then !k.serialPaused else decide (k.hot ≤ k.hotlim)

/-- R375, R376, R379, R385, R386: what the power controller does on its own when a cluster stands still: the
critical move, the point 7 of a cluster that has entered a terrace, the raise to point 2 for a running MATMUL. -/
def State.settlePoint (s : State) (i : Nat) : State :=
  let k := s.cluster i
  if k.stage != .idle then s
  else if k.critical && k.point != 0 then s.setCluster i (k.begin 0)
  else
    let k := if k.critical then { k with critical := false, issuePaused := false } else k
    let k := if k.toSeven then { k with toSeven := false, point := 7, target := 7 } else k
    let k := if decide (2 ≤ k.point) || !s.matmulOn i then { k with chilled := false } else k
    s.putPaused i (if s.raises i k then k.begin 2 else k)

/-- R380: the projected energy of a request exceeds the cluster's nonzero budget. -/
def Cluster.overBudget (k : Cluster) (p : Nat) : Bool :=
  k.budget != 0 && decide (k.budget * pointPower k.point < k.energy * pointPower p)

/-- R378: the decision on a request: the result, and whether a transition begins. -/
def State.decidePower (s : State) (i p : Nat) : Nat × Bool :=
  let k := s.cluster i
  if k.stage != .idle then (if k.target = p then 0 else 1, false)
  else if p < s.floorOf i then (2, false)
  else if decide (k.point < p) && (k.overBudget p || Config.packageOver s.freeCount
      || decide (k.hotlim < k.hot)) then (3, false)
  else (0, p != k.point)

/-- R133: the cluster a PWR.REQ names, or none when it names none that it may. -/
def State.powerTarget (s : State) : Nat → Option Nat := fun c =>
  let w := s.wgOf s.cur
  if s.cur.priv = 2 then
    if c < 128 && (s.cluster c).enabled then some c else none
  else if c = 0xFFFFFFFF then some (clusterOfCore s.cur.core)
  else s.clusterOfLogical w.terrace c

/-- R133, R378: PWR.REQ. -/
def execPwrReq (m : Marks) (d : BitVec 7) (p : BitVec 3) (s : State) : Out :=
  let mk := s.cur.unguarded
  let c := (s.cur.uread d.toNat).toNat
  s.attemptReading (operandLanes true mk) [d.toNat]
    [s.wide, s.cur.beyond [d.toNat], s.below 1,
     (mk != 0 && (s.powerTarget c).isNone, .illegalEncoding)]
    (if mk = 0 then s.finishOnce m
     else match s.powerTarget c with
      | none => s.finishOnce m
      | some i =>
        let (r, begins) := s.decidePower i p.toNat
        let s := { s with freeCount := s.freeCount + 1 }
        let s := if begins then s.setCluster i ((s.cluster i).begin p.toNat) else s
        (s.updCur fun c =>
          { c.setV mk d.toNat fun _ => BitVec.ofNat 32 r with outstanding := c.outstanding + 1, outPower := c.outPower + 1 }).finishOnce m)

/-- An event names a cluster that the package has. -/
def State.hasCluster (s : State) (k : Nat) : Bool := decide (k < 128) && (s.cluster k).enabled

/-- A cluster's event: a fault when the package has no such cluster, its effect when it may happen. -/
def State.clusterEvent (s : State) (k : Nat) (may : Bool) (effect : State) : Out :=
  if s.hasCluster k then .next (if may then effect else s) else .fault .noSuchUnit

/-- The clock of a cluster moves on by cycles in which nothing issues, a free number (R130). -/
def State.passIdle (s : State) (k : Nat) : State :=
  ({ s with freeCount := s.freeCount + 1 } : State).passCycles k (Config.idleCycles s.freeCount)

/-- R376, R385: the slots of a pause that ends have counted as CONTROL.THROTTLE. -/
def State.passPause (s : State) (k : Nat) : State := if (s.cluster k).issuePaused then s.passIdle k else s

/-- R376: VOLTAGE_SETTLED may happen. -/
def State.voltageDue (s : State) (k : Nat) : Bool :=
  (s.cluster k).stage == .rampUp || (s.cluster k).stage == .rampDown

/-- R376, R386: VOLTAGE_SETTLED: an up-step goes on to its frequency switch, or, where a critical hotspot
stops it, a down-step to point 0 follows; a down-step completes. -/
def execVoltageSettled (cluster : Nat) (s : State) : Out :=
  s.clusterEvent cluster (s.voltageDue cluster)
    (let s := s.passPause cluster
     let k := s.cluster cluster
     if k.stage == .rampUp then
      s.setCluster cluster (if k.critical then k.begin 0
        else { k with stage := .switchUp, issuePaused := true, switches := k.switches + 1 })
     else (s.setCluster cluster { k with stage := .idle }).settlePoint cluster)

/-- R376: FREQUENCY_SWITCH_END may happen. -/
def State.switchDue (s : State) (k : Nat) : Bool :=
  (s.cluster k).stage == .switchUp || (s.cluster k).stage == .switchDown

/-- R376, R385: FREQUENCY_SWITCH_END: an up-step completes; a down-step's voltage ramp begins. Issue
goes on, but for a critical move. -/
def execFrequencySwitchEnd (cluster : Nat) (s : State) : Out :=
  s.clusterEvent cluster (s.switchDue cluster)
    (let s := s.passPause cluster
     let k := s.cluster cluster
     let k' := { k with point := k.target, issuePaused := k.critical }
     if k.stage == .switchUp then
       (s.setCluster cluster { k' with stage := .idle }).settlePoint cluster
     else s.setCluster cluster { k' with stage := .rampDown })

/-- R385: what HOT and HOTLIM come to: above HOTLIM SERIAL pauses, 3 °C below it resumes, and above
HOTLIM + 5 °C issue pauses and the cluster moves to point 0. -/
def State.heat (s : State) (i : Nat) : State :=
  let k := s.cluster i
  let k := if k.hotlim < k.hot then { k with serialPaused := true }
    else if k.hot + 48 ≤ k.hotlim then { k with serialPaused := false } else k
  let k := if decide (k.hotlim + 80 < k.hot) && !k.critical then
      { k with critical := true, issuePaused := true, chilled := k.chilled || s.matmulOn i }
    else k
  (s.putPaused i k).settlePoint i

/-- HOT of a cluster. -/
def State.setHot (s : State) (k : Nat) (hot : BitVec 32) : State :=
  (s.setCluster k { s.cluster k with hot := hot.toNat }).heat k

/-- R385: HOTSPOT_OVER_LIMIT. -/
def execHotspotOverLimit (cluster : Nat) (hot : BitVec 32) (s : State) : Out :=
  s.clusterEvent cluster
    (decide (hot.toNat < 65536) && decide ((s.cluster cluster).hotlim < hot.toNat))
    (s.setHot cluster hot)

/-- R381, R385: HOTSPOT_CLEAR: HOT no longer exceeds HOTLIM; SERIAL resumes where it has fallen 3 °C below. -/
def execHotspotClear (cluster : Nat) (hot : BitVec 32) (s : State) : Out :=
  s.clusterEvent cluster (decide (hot.toNat ≤ (s.cluster cluster).hotlim))
    (s.setHot cluster hot)

/-- R385: HOTSPOT_CRITICAL. -/
def execHotspotCritical (cluster : Nat) (hot : BitVec 32) (s : State) : Out :=
  s.clusterEvent cluster
    (decide (hot.toNat < 65536) && decide ((s.cluster cluster).hotlim + 80 < hot.toNat))
    (s.setHot cluster hot)

/-- R381: ENERGY_UPDATE, with the value that the meters give. -/
def execEnergyUpdate (cluster : Nat) (energy : BitVec 32) (s : State) : Out :=
  s.clusterEvent cluster true
    (s.setCluster cluster { s.cluster cluster with energy := energy.toNat })

/-- R382: what the cores of a cluster have counted: their slots, and those counted as BACKEND.MEM or BACKEND.ASYNC. -/
def State.slotCounts (s : State) (k : Nat) : Int × Int :=
  let sum (sel : Nat) : Nat := ((coresOf k).map fun i => getI 0 (s.core i).perf sel).sum
  (sum 0, sum 0x014 + sum 0x015)

/-- R382: RATIO of the slots B of S. -/
def stallRatio (slots stalled : Int) : Nat := (65536 * stalled / slots).toNat

/-- R382: the window in progress of a cluster ends: RATIO is that of the slots it has counted since the window began, and the
next begins. -/
def State.sampleWindow (s : State) (i : Nat) : State :=
  let k := s.cluster i
  let n := s.slotCounts i
  s.setCluster i { k with ratio := stallRatio (n.1 - k.windowBase.1) (n.2 - k.windowBase.2), sampleSeq := k.sampleSeq + 1,
                          window := k.window + 1, windowBase := n }

/-- R382: the window in progress of a cluster is over. -/
def State.windowOver (s : State) (k : Nat) : Bool := decide ((s.cluster k).window < s.rtime / 10)

/-- R130, R382: STALL_RATIO_SAMPLE of the earliest window that is over: the cycles without an issue count as passed, as when
SYS.CYCLE is read; each window that is over has one (log entry 42). RATIO
follows from the counters, and not from the value that the event carries. -/
def execStallRatioSample (cluster : Nat) (_ratio : BitVec 32) (s : State) : Out :=
  s.clusterEvent cluster (s.windowOver cluster)
    ((s.passIdle cluster).sampleWindow cluster)

/-! ## TLB.INV (R135) -/

/-- Cached translations of a terrace dropped where p holds. -/
def State.dropTlb (s : State) (p : TlbEntry → Bool) : State :=
  { s with cores := s.cores.map fun c => { c with utlb := c.utlb.filter fun e => !p e },
           clusters := s.clusters.map fun k => { k with tlb := k.tlb.filter fun e => !p e } }

/-- The walks in progress, by name, of a terrace. -/
def State.walksOf (s : State) (t : Nat) : List Nat :=
  s.dies.flatMap fun d => (d.walks.filter fun w => w.terrace == t).map (·.id)

/-- R135: TLB.INV: it begins when HCNT is 0, drops the entries, and waits for the walks that began
before it. -/
def State.tlbInvalidate (s : State) (m : Marks) (p : Nat → TlbEntry → Bool) : Out :=
  let c := s.cur
  let t := (s.wgOf c).terrace
  s.attempt [s.wide, s.below 1]
    (if c.unguarded = 0 then s.finishOnce m
     else if c.stage = 1 then s.finishOnce m
     else if c.hcnt ≠ 0 then s.park (.release 5)
     else
       let s := s.dropTlb (p t)
       let ws := s.walksOf t
       if ws = [] then s.finishOnce m
       else
         let s : State := { s with tlbInvs := s.tlbInvs ++ [⟨c.id, ws⟩] }
         (s.updCur fun c => { c with stage := 1 }).park .tlbInv)

/-- R135: TLB.INV #0. -/
def execTlbInvTerrace (m : Marks) (s : State) : Out :=
  s.tlbInvalidate m fun t e => e.terrace == t
/-- R135: TLB.INV #1. -/
def execTlbInvVdev (m : Marks) (s : State) : Out :=
  let v := (s.wgOf s.cur).vdev
  s.tlbInvalidate m fun t e => e.terrace == t && e.vdev == v

/-- R135: every walk that a TLB.INV waits for has finished. -/
def State.invDone (s : State) (cane : Nat) : Bool :=
  s.tlbInvs.any fun i => i.cane == cane
    && i.walks.all fun w => !(s.dies.any fun d => d.walks.any fun x => x.id == w)

/-- R135: TLB_INV_RETIRE: the instruction issues again and completes. -/
def execTlbInvRetire (cane : Nat) (s : State) : Out :=
  if s.invDone cane then
    let s : State := { s with tlbInvs := s.tlbInvs.filter fun i => i.cane != cane }
    .next (s.updCane cane fun c => if c.wait = .tlbInv then { c with wait := .none } else c)
  else .next s

end Sys2Proof.Machine
end

