-- ==== Sys2Proof/Machine/Blocks.lean ====
section
/-! DEFINITION. The management blocks (R394): the debug block of a terrace with its breakpoints, trace
and replay registers (R355 to R374), the core sample (R365), the power registers (R381), the routers
(R398) and the registers of a virtual function (R412), with the events that write them. -/

namespace Sys2Proof.Machine

/-! ## Debug commands (R356, R359, R361) -/

/-- The debug-parked cane that a command names; a terrace's steward has parcel id 0 (R342). -/
def State.parkedCane (s : State) (t : Nat) (cmd : List Byte) : Option Cane :=
  s.canes.find? fun c =>
    let w := s.wgOf c
    c.wait == .debug && w.terrace == t && s.parcelAddr w.parcel == leField cmd 0 8
      && w.linear == leField cmd 8 4 && c.idx == leField cmd 12 2

/-- R361: the command in DBG.CMD. -/
def State.debugGo (s : State) (t : Nat) : State :=
  let cmd := (s.terrace t).dbg.cmd
  let op := leField cmd 14 1
  match s.parkedCane t cmd with
  | none => s.updDebug t fun b => { b with cmdst := 1 }
  | some c =>
    if op = 1 || op = 2 then
      (s.updCane c.id fun c => c.debugResume (op == 2)).updDebug t fun b => { b with cmdst := 0 }
    else s.updDebug t fun b => { b with cmdst := 2 }

/-- R356: ATTACH written; cleared, it resumes every debug-parked cane of the terrace. -/
def State.attach (s : State) (t : Nat) (on : Bool) : State :=
  let s := s.updDebug t fun b => { b with attach := on }
  if on then s
  else s.mapCanes fun c =>
    if c.wait = .debug ∧ (s.wgOf c).terrace = t then c.debugResume false else c

/-- R355, R360: the oldest event is dropped, and one that waited for room enters the queue. -/
def DebugBlock.pop (b : DebugBlock) : DebugBlock :=
  { b with events := b.events.tail ++ b.overflow.take 1, overflow := b.overflow.drop 1 }

/-! ## Trace control (R362, R363) -/

/-- The compute dies that hold a guaranteed cluster of a terrace. -/
def State.guaranteedDies (s : State) (t : Nat) : List Nat :=
  [0, 1, 2, 3].filter fun d =>
    (List.range 32).any fun i => (s.terrace t).part.guaranteed.getLsbD (32 * d + i)

/-- R363: the reserved bits of a condition word are 0. -/
def condOk (w : Word) : Bool := w.extractLsb' 4 4 == 0 && w.extractLsb' 16 16 == 0

/-- R362: TRC.CTL.EN written: the trace units of the terrace's dies are claimed, or released. A claim
begins at position 0. -/
def State.traceControl (s : State) (t : Nat) (en : Bool) : State :=
  let b := (s.terrace t).dbg
  let free := s.updDebug t fun b => { b with trcEn := false }
  let clear (d : Die) : Die :=
    if d.trace.owner = some t then { d with trace := Die.zero.trace } else d
  let free : State := { free with dies := free.dies.map clear }
  let ds := s.guaranteedDies t
  if !en then free
  else if b.trcEn then s
  else if !(b.triggers.all (fun g => condOk g.start && condOk g.stop)) then s
  else if ds.any (fun d => (s.die d).trace.owner.isSome) then s
  else
    (ds.foldl (fun s d => s.setDie d { s.die d with trace :=
      { Die.zero.trace with owner := some t, began := (s.cluster (s.traceCluster d)).cycle } }) s).updDebug t fun b => { b with trcEn := true }

/-! ## Replay control (R367, R370) -/

/-- R367, R374: REPLAY.CTL.MODE written, which clears the flags; mode 3 is reserved and leaves MODE. -/
def State.replayControl (s : State) (t mode : Nat) : State :=
  s.updDebug t fun b =>
    { b with replayMode := if mode = 3 then b.replayMode else mode, replayFull := false,
             replayBroken := false, replayDiverged := false }

/-- R370: a cane stands before an instruction: none of it has been done. -/
def Cane.atBoundary (c : Cane) : Bool :=
  c.stage == 0 && c.stageArg == 0 && c.answer.isNone && c.claim.isNone && c.supArg == [] && c.entered == 0

/-- R370: HALT: every cane of the launch debug-parks at its next instruction boundary; one that stands
before an instruction parks at once. -/
def State.replayHaltAll (s : State) (t : Nat) : State :=
  let root := (s.terrace t).dbg.replayRoot.toNat
  s.mapCanes fun c =>
    if c.live && decide ((s.wgOf c).terrace = t) && s.rootOf c == some root then
      match c.wait with
      | .none => if c.atBoundary then { c with wait := .debug, pipe := none } else { c with halting := true }
      | .gate _ _ => { c with wait := .debug, pipe := none }
      | _ => { c with halting := true }
    else c

/-- R370: FREE: MODE becomes OFF and every gate grants freely. -/
def State.replayFreeAll (s : State) (t : Nat) : State :=
  (s.closeReplay t).updDebug t fun b => { b with replayMode := 0 }

/-- R370: a write to REPLAY.ACT, without effect while DIVERGED = 0. -/
def State.replayAct (s : State) (t v : Nat) : State :=
  if !(s.terrace t).dbg.replayDiverged then s
  else if v = 1 then s.replayHaltAll t
  else if v = 2 then s.replayFreeAll t
  else s

/-! ## The debug block as words (R355) -/

/-- Word i of a 64-bit value. -/
def dwordPart (v : Dword) (i : Nat) : Nat := v.toNat / 2 ^ (32 * i) % 2 ^ 32
/-- A 64-bit value with word i replaced. -/
def setPart (v : Dword) (i x : Nat) : Dword :=
  if i = 0 then BitVec.ofNat 64 (v.toNat / 2 ^ 32 * 2 ^ 32 + x % 2 ^ 32)
  else BitVec.ofNat 64 (v.toNat % 2 ^ 32 + x % 2 ^ 32 * 2 ^ 32)

/-- An unset table entry of each kind. -/
def Breakpoint.zero : Breakpoint := ⟨0, 0, 0⟩
/-- An unset watchpoint. -/
def Watchpoint.zero : Watchpoint := ⟨0, 0, 0, 0⟩
/-- An unset trigger. -/
def Trigger.zero : Trigger := ⟨0, 0, 0, 0⟩

/-- The image of a breakpoint entry. -/
def Breakpoint.image (b : Breakpoint) : List Byte :=
  leBytes 4 b.region ++ leBytes 4 b.ordinal ++ leBytes 8 b.filter
/-- The image of a watchpoint entry. -/
def Watchpoint.image (w : Watchpoint) : List Byte :=
  leBytes 8 w.start ++ leBytes 8 w.len ++ leBytes 1 w.kind ++ leBytes 1 w.vmask ++ leBytes 14 0
/-- The image of a trigger. -/
def Trigger.image (g : Trigger) : List Byte :=
  leBytes 4 g.start.toNat ++ leBytes 4 g.stop.toNat ++ leBytes 4 g.region ++ leBytes 4 g.ordinal

/-- A byte image with one word replaced. -/
def putWord (bs : List Byte) (off v : Nat) : List Byte :=
  bs.take off ++ leBytes 4 v ++ bs.drop (off + 4)

/-- A breakpoint entry read from its image. -/
def Breakpoint.ofImage (b : List Byte) : Breakpoint := ⟨leField b 0 4, leField b 4 4, leField b 8 8⟩
/-- A watchpoint entry read from its image. -/
def Watchpoint.ofImage (b : List Byte) : Watchpoint :=
  ⟨leField b 0 8, leField b 8 8, leField b 16 1 % 4, leField b 17 1 % 16⟩
/-- A trigger read from its image. -/
def Trigger.ofImage (b : List Byte) : Trigger :=
  ⟨BitVec.ofNat 32 (leField b 0 4), BitVec.ofNat 32 (leField b 4 4), leField b 8 4, leField b 12 4⟩

/-- R355: the word of a terrace's debug block at a word-aligned offset; none where no register is. -/
def State.debugWord (s : State) (t off : Nat) : Option Nat :=
  let b := (s.terrace t).dbg
  if off = 0x000 then some (if b.attach then 1 else 0)
  else if off = 0x004 then some b.events.length
  else if off = 0x008 || off = 0x018 || off = 0x428 then some 0
  else if off = 0x00C then some b.bpen.toNat
  else if off = 0x010 then some b.wpen.toNat
  else if off = 0x014 then some b.cmdst
  else if 0x040 ≤ off && off < 0x080 then some (leField (b.events.headD []) (off - 0x040) 4)
  else if 0x080 ≤ off && off < 0x090 then some (leField b.cmd (off - 0x080) 4)
  else if 0x100 ≤ off && off < 0x200 then
    some (leField (getI .zero b.breakpoints ((off - 0x100) / 16)).image (off % 16) 4)
  else if 0x200 ≤ off && off < 0x300 then
    some (leField (getI .zero b.watchpoints ((off - 0x200) / 32)).image (off % 32) 4)
  else if off = 0x300 then
    some ((if b.trcEn then 1 else 0)
      + (if (s.tracedDies t).any fun d => (s.die d).trace.active then 2 else 0))
  else if off = 0x308 || off = 0x30C then some (dwordPart b.trcBase ((off - 0x308) / 4))
  else if off = 0x310 then some b.trcOrder.toNat
  else if off = 0x318 || off = 0x31C then some (dwordPart b.trcCyc ((off - 0x318) / 4))
  else if 0x360 ≤ off && off < 0x3A0 then
    some (leField (getI .zero b.triggers ((off - 0x360) / 16)).image (off % 16) 4)
  else if off = 0x400 then
    some (b.replayMode + (if b.replayFull then 4 else 0) + (if b.replayBroken then 8 else 0)
      + (if b.replayDiverged then 16 else 0))
  else if off = 0x408 || off = 0x40C then some (dwordPart b.replayRoot ((off - 0x408) / 4))
  else if off = 0x410 || off = 0x414 then some (dwordPart b.replayLog ((off - 0x410) / 4))
  else if off = 0x418 || off = 0x41C then some (dwordPart b.replaySize ((off - 0x418) / 4))
  else if off = 0x420 || off = 0x424 then some (dwordPart b.replayPos ((off - 0x420) / 4))
  else if 0x600 ≤ off && off < 0x800 then
    some (match (s.tracedDies t)[(off - 0x600) / 8]? with
      | some d => (s.die d).trace.pos / 2 ^ (8 * (off % 8)) % 2 ^ 32
      | none => 0)
  else none

/-- R5, R355: a word written to a debug block at a word-aligned offset. Read-only registers and offsets
without a register keep what they hold. -/
def State.debugWrite (s : State) (t off v : Nat) : State :=
  let w : Word := BitVec.ofNat 32 v
  let upd := s.updDebug t
  if off = 0x000 then s.attach t (w.getLsbD 0)
  else if off = 0x008 then if v = 1 then upd DebugBlock.pop else s
  else if off = 0x00C then upd fun b => { b with bpen := w &&& 0xFFFF#32 }
  else if off = 0x010 then upd fun b => { b with wpen := w &&& 0xFF#32 }
  else if off = 0x018 then if v = 1 then s.debugGo t else s
  else if 0x080 ≤ off && off < 0x090 then
    let full (b : DebugBlock) := b.cmd ++ List.replicate (16 - b.cmd.length) 0#8
    upd fun b => { b with cmd := putWord (full b) (off - 0x080) v }
  else if 0x100 ≤ off && off < 0x200 then
    let i := (off - 0x100) / 16
    let e (b : DebugBlock) := putWord (getI Breakpoint.zero b.breakpoints i).image (off % 16) v
    upd fun b => { b with breakpoints := setI .zero b.breakpoints i (.ofImage (e b)) }
  else if 0x200 ≤ off && off < 0x300 then
    let i := (off - 0x200) / 32
    let e (b : DebugBlock) := putWord (getI Watchpoint.zero b.watchpoints i).image (off % 32) v
    upd fun b => { b with watchpoints := setI .zero b.watchpoints i (.ofImage (e b)) }
  else if off = 0x300 then s.traceControl t (w.getLsbD 0)
  else if off = 0x308 || off = 0x30C then
    upd fun b => { b with trcBase := setPart b.trcBase ((off - 0x308) / 4) v }
  else if off = 0x310 then upd fun b => { b with trcOrder := w }
  else if off = 0x318 || off = 0x31C then
    let s := upd fun b => { b with trcCyc := setPart b.trcCyc ((off - 0x318) / 4) v }
    let clear (d : Die) : Die :=
      if d.trace.owner = some t then { d with trace := { d.trace with cycleSeen := false } } else d
    { s with dies := s.dies.map clear }
  else if 0x360 ≤ off && off < 0x3A0 then
    let i := (off - 0x360) / 16
    let e (b : DebugBlock) := putWord (getI Trigger.zero b.triggers i).image (off % 16) v
    upd fun b => { b with triggers := setI .zero b.triggers i (.ofImage (e b)) }
  else if off = 0x400 then s.replayControl t (v % 4)
  else if off = 0x408 || off = 0x40C then
    upd fun b => { b with replayRoot := setPart b.replayRoot ((off - 0x408) / 4) v }
  else if off = 0x410 || off = 0x414 then
    upd fun b => { b with replayLog := setPart b.replayLog ((off - 0x410) / 4) v }
  else if off = 0x418 || off = 0x41C then
    upd fun b => { b with replaySize := setPart b.replaySize ((off - 0x418) / 4) v }
  else if off = 0x420 || off = 0x424 then
    upd fun b => { b with replayPos := setPart b.replayPos ((off - 0x420) / 4) v }
  else if off = 0x428 then s.replayAct t v
  else s

/-! ## Power registers, routers and samples as words -/

/-- R381: word i of a cluster's power registers. -/
def Cluster.powerReg (k : Cluster) (i : Nat) : Nat :=
  match i with
  | 0 => k.floor + k.hotlim * 2 ^ 16
  | 1 => k.budget
  | 2 => k.energy % 2 ^ 32
  | _ => k.hot % 2 ^ 16

/-- R381: word i written: FLOOR governs later requests; a new HOTLIM acts at once (R385). -/
def State.powerWrite (s : State) (c i v : Nat) : State :=
  let k := s.cluster c
  match i with
  | 0 => (s.setCluster c { k with floor := v % 8, hotlim := v / 2 ^ 16 % 2 ^ 16 }).heat c
  | 1 => s.setCluster c { k with budget := v % 2 ^ 32 }
  | _ => s

/-- R365: the byte of a die's core sample. -/
def Sample.byte (m : Sample) (off : Nat) : Byte :=
  if off < 64 then
    getI 0 (leBytes 4 0x4C504D53 ++ leBytes 4 m.warm ++ leBytes 8 m.events ++ leBytes 8 m.ecc) off
  else
    match m.slots.find? fun x => x.1 == (off - 64) / 128 with
    | some x => getI 0 x.2 ((off - 64) % 128)
    | none => 0

/-- A management block of the package and the offset in it (R394). -/
inductive Block where
  | debug (t off : Nat)
  | sample (d off : Nat)
  | power (cluster off : Nat)
  | router (d off : Nat)
  deriving DecidableEq, Repr

/-- R394: the block at a physical address. -/
def blockAt (pa : Nat) : Option Block :=
  let o := pa - mmioBase
  if 0x01000000 ≤ o && o < 0x01010000 then some (.debug (o / 0x1000 % 16) (o % 0x1000))
  else if 0x02000000 ≤ o && o < 0x02400000 && o % 0x100000 < 524352 then
    some (.sample (o / 0x100000 % 4) (o % 0x100000))
  else if 0x03000000 ≤ o && o < 0x03040000 && o % 0x10000 < 512 then
    some (.power (32 * (o / 0x10000 % 4) + o % 0x10000 / 16) (o % 16))
  else if 0x04000000 ≤ o && o < 0x04040000 && o % 0x10000 < 2048 then
    some (.router (o / 0x10000 % 4) (o % 0x10000))
  else none

/-- The byte of the management blocks at a physical address; what no register holds is a free value. -/
def State.mmioByte (s : State) (pa : Nat) : Byte :=
  let part (w : Option Nat) : Byte :=
    match w with
    | some v => BitVec.ofNat 8 (v / 2 ^ (8 * (pa % 4)))
    | none => Config.unassignedByte pa s.freeCount
  match blockAt pa with
  | some (.debug t off) => part (s.debugWord t (off / 4 * 4))
  | some (.sample d off) => (s.die d).sample.byte off
  | some (.power c off) =>
    part (if s.hasCluster c then some ((s.cluster c).powerReg (off / 4)) else none)
  | some (.router d off) => Memory.read (s.die d).router off
  | none => part none

/-- n bytes read from the management blocks. -/
def State.mmioRead (s : State) (pa n : Nat) : State × List Byte :=
  ({ s with freeCount := s.freeCount + 1 }, (List.range n).map fun i => s.mmioByte (pa + i))

/-- R398: a byte of a router table as it is kept: what the table gives as 0 stays 0. -/
def routerByte (off : Nat) (b : Byte) : Byte :=
  if off % 128 < 64 then b &&& 7#8 else if off % 128 < 72 then b else 0#8

/-- R398, R399: a word of a router table written. A ROUTE.TAG that changes fails the route checks that are running on its
die. -/
def State.routerWrite (s : State) (d off v : Nat) : State :=
  let dd := s.die d
  let t := off / 128
  let bytes := (leBytes 4 v).zipIdx.map fun x => routerByte (off + x.2) x.1
  let changed := off % 128 / 4 == 16 && bytes != Memory.readBytes dd.router off 4
  let note (p : Parcel) : Parcel :=
    if p.status = 0 ∧ p.terrace = t ∧ (s.terrace t).part.nbdie.getLsbD (dieNumber d) then { p with retagged := true } else p
  { s.setDie d { dd with router := Memory.writeBytes dd.router off bytes } with
    parcels := if changed then s.parcels.map note else s.parcels }

/-- A word written to the management blocks at a word-aligned address. A core sample is not written
(R365). -/
def State.mmioWord (s : State) (pa v : Nat) : State :=
  match blockAt pa with
  | some (.debug t off) => s.debugWrite t off v
  | some (.power c off) => if s.hasCluster c then s.powerWrite c (off / 4) v else s
  | some (.router d off) => s.routerWrite d off v
  | _ => s

/-- What a word of the blocks holds for the bytes that a narrower write does not touch. -/
def State.mmioKept (s : State) (pa : Nat) : List Byte :=
  match blockAt pa with
  | some (.debug t off) => leBytes 4 ((s.debugWord t off).getD 0)
  | some (.power c off) => leBytes 4 ((s.cluster c).powerReg (off / 4))
  | some (.router d off) => Memory.readBytes (s.die d).router off 4
  | _ => [0, 0, 0, 0]

/-- Bytes written to the management blocks, word by word upward. -/
def State.mmioWrite (s : State) (pa : Nat) (bytes : List Byte) : State :=
  ((List.range ((pa + bytes.length + 3) / 4 - pa / 4)).map fun i => (pa / 4 + i) * 4).foldl
    (fun s w =>
      let kept := s.mmioKept w
      let word := ([0, 1, 2, 3] : List Nat).map fun j =>
        if pa ≤ w + j && w + j < pa + bytes.length then getI 0 bytes (w + j - pa) else getI 0 kept j
      s.mmioWord w (leNat word)) s

/-! ## Events -/

/-- A terrace's event: a fault for a terrace that the package does not have. -/
def State.terraceEvent (s : State) (t : Nat) (may : Bool) (effect : State) : Out :=
  if t < 16 then .next (if may then effect else s) else .fault .noSuchUnit

/-- R356: DBG_CTL_WRITE. -/
def execDbgCtlWrite (terrace : Nat) (value : BitVec 32) (s : State) : Out :=
  s.terraceEvent terrace true (s.debugWrite terrace 0x000 value.toNat)

/-- R355: DBG_EVPOP. -/
def execDbgEvpop (terrace : Nat) (value : BitVec 32) (s : State) : Out :=
  s.terraceEvent terrace true (s.debugWrite terrace 0x008 value.toNat)

/-- The operation code in a terrace's DBG.CMD. -/
def State.debugOp (s : State) (t : Nat) : Nat := leField (s.terrace t).dbg.cmd 14 1

/-- R361: DBG_RESUME: DBG.GO written with operation 1 in DBG.CMD. -/
def execDbgResume (terrace : Nat) (value : BitVec 32) (s : State) : Out :=
  s.terraceEvent terrace (s.debugOp terrace == 1) (s.debugWrite terrace 0x018 value.toNat)

/-- R361: DBG_STEP: DBG.GO written with operation 2 in DBG.CMD. -/
def execDbgStep (terrace : Nat) (value : BitVec 32) (s : State) : Out :=
  s.terraceEvent terrace (s.debugOp terrace == 2) (s.debugWrite terrace 0x018 value.toNat)

/-- R362: TRC_CTL_WRITE. -/
def execTrcCtlWrite (terrace : Nat) (value : BitVec 32) (s : State) : Out :=
  s.terraceEvent terrace true (s.debugWrite terrace 0x300 value.toNat)

/-- R367: REPLAY_CTL_WRITE. -/
def execReplayCtlWrite (terrace : Nat) (value : BitVec 32) (s : State) : Out :=
  s.terraceEvent terrace true (s.debugWrite terrace 0x400 value.toNat)

/-- R370: REPLAY_HALT. -/
def execReplayHalt (terrace : Nat) (s : State) : Out :=
  s.terraceEvent terrace true (s.replayAct terrace 1)

/-- R370: REPLAY_FREE. -/
def execReplayFree (terrace : Nat) (s : State) : Out :=
  s.terraceEvent terrace true (s.replayAct terrace 2)

/-- R357: an enabled breakpoint matches the instruction that is about to issue, or a STEP ends there
(R361). -/
def State.breakpointDue (s : State) : Bool :=
  let c := s.cur
  let w := s.wgOf c
  let b := (s.terrace w.terrace).dbg
  let name := (s.image w.terrace).codeName s.iss.addr.toNat s.iss.stop
  b.attach && s.iss.stop && c.pc == s.iss.addr && c.wait == .none && !c.passBreak
    && (c.stepping || (List.range 16).any fun i =>
      let e := getI .zero b.breakpoints i
      b.bpen.getLsbD i && e.region == name.region && e.ordinal == name.ordinal
        && (e.filter == 0 || (w.parcel.isSome && e.filter == s.parcelAddr w.parcel)))

/-- R357: BREAKPOINT_HIT: the cane that is about to issue debug-parks, and a BREAK event is appended. -/
def execBreakpointHit (cane : Nat) (s : State) : Out :=
  .next (if s.cur.id == cane && s.breakpointDue then
    (s.debugPark 1 .breakpoint 0).updCur fun c => { c with stepping := false }
  else s)

/-- R363: TRACE_CYCLE_REACHED may happen on a die: a cluster's SYS.CYCLE has reached TRC.CYC. -/
def State.traceCycleDue (s : State) (d : Nat) : Bool :=
  let u := (s.die d).trace
  match u.owner with
  | none => false
  | some t => !u.cycleSeen && (List.range 32).any fun i =>
      (s.cluster (32 * d + i)).enabled
        && decide ((s.terrace t).dbg.trcCyc.toNat ≤ (s.cluster (32 * d + i)).cycle)

/-- A die's event: a fault for a die that the package does not have. -/
def State.dieEvent (s : State) (d : Nat) (may : Bool) (effect : State) : Out :=
  if d < 4 then .next (if may then effect else s) else .fault .noSuchUnit

/-- R363: TRACE_CYCLE_REACHED: the conditions of type 5 are true in this cycle. -/
def execTraceCycleReached (die : Nat) (s : State) : Out :=
  s.dieEvent die (s.traceCycleDue die)
    (let s := s.traceCond die fun _ w => bitsAt w 0 4 == 5
     let dd := s.die die
     s.setDie die { dd with trace := { dd.trace with cycleSeen := true } })

/-- R364: TRACE_TIME_RECORD may happen: while the unit is active, a cycle whose number's low 16 bits are 0 has come and
has no TIME record yet. One that has not happened when the cycle ends is written then (dueTimes). -/
def State.traceTimeDue (s : State) (d : Nat) : Bool :=
  let u := (s.die d).trace
  u.owner.isSome && u.active && decide (65536 * u.timeMark ≤ (s.cluster (s.traceCluster d)).cycle)

/-- R364: TRACE_TIME_RECORD. -/
def execTraceTimeRecord (die : Nat) (s : State) : Out :=
  s.dieEvent die (s.traceTimeDue die)
    (match (s.die die).trace.owner with
     | some t => s.writeTime die t (65536 * (s.die die).trace.timeMark)
     | none => s)

/-- The 64-bit registers of a debug block. -/
def debugIs64 (off : Nat) : Bool :=
  off == 0x308 || off == 0x318 || off == 0x408 || off == 0x410 || off == 0x418 || off == 0x420

/-- R415: VF.ATTEST written with 1: a report of the function's terrace begins, unless one is under way. -/
def State.startAttest (s : State) (n : Nat) : State :=
  let tt := s.terrace n
  if tt.vf.atstat = .busy then s
  else s.setTerrace n { tt with vf := { tt.vf with atstat := .busy, nonceTaken := tt.vf.nonce } }

/-- R404, R409, R412: where REGISTER_WRITE finds the registers that have no physical address: VF n's
register at offset o of BAR4 at 2^60 + 2^16·n + o, and in PF0 the aperture of terrace n at
2^61 + 16·n (base, then size) and log2 of its memory window's size at 2^61 + 2^16 + n (log entry 14). The virtual
functions carry nothing until an image has passed (R413). -/
def State.functionWrite (s : State) (a v : Nat) : State :=
  if a < 2 ^ 61 then
    let t := (a - 2 ^ 60) / 2 ^ 16
    let o := a % 2 ^ 16
    if s.boot.recovery then s
    else if t < 16 && 0x1020 ≤ o && o + 8 ≤ 0x1040 then
      let tt := s.terrace t
      let n := tt.vf.nonce ++ List.replicate (32 - tt.vf.nonce.length) 0#8
      s.setTerrace t { tt with vf := { tt.vf with
        nonce := n.take (o - 0x1020) ++ leBytes 8 v ++ n.drop (o - 0x1020 + 8) } }
    else if t < 16 && o / 4 * 4 = 0x1010 then if v % 2 ^ 32 = 1 then s.startAttest t else s
    else if t < 16 && o < 0x1000 then
      let s := s.debugWrite t (o / 4 * 4) (v % 2 ^ 32)
      if debugIs64 (o / 4 * 4) then s.debugWrite t (o / 4 * 4 + 4) (v / 2 ^ 32) else s
    else s
  else if a < 2 ^ 61 + 2 ^ 16 then
    let t := (a - 2 ^ 61) / 16
    let tt := s.terrace t
    if 16 ≤ t || v % 2 ^ 16 ≠ 0 then s
    else if a % 16 = 0 then s.setTerrace t { tt with aperture := (v, tt.aperture.2) }
    else s.setTerrace t { tt with aperture := (tt.aperture.1, v) }
  else
    let t := a - (2 ^ 61 + 2 ^ 16)
    let tt := s.terrace t
    if t < 16 && 30 ≤ v && v ≤ 40 then s.setTerrace t { tt with vf := { tt.vf with mwsize := v } }
    else s

/-- R5: REGISTER_WRITE: a register at its address takes a value by its fields' access codes: 8 bytes for
a 64-bit register, 4 for any other. -/
def execRegisterWrite (addr value : BitVec 64) (s : State) : Out :=
  let a := addr.toNat
  if 2 ^ 60 ≤ a then .next (s.functionWrite a value.toNat)
  else if isMmio a then
    let wide := match blockAt a with
      | some (.debug _ off) => debugIs64 off
      | _ => false
    .next (s.mmioWrite (a / 4 * 4) (leBytes (if wide then 8 else 4) value.toNat))
  else .next s

end Sys2Proof.Machine
end

