-- ==== Sys2Proof/Machine/Access.lean ====
section
/-! DEFINITION. Accesses through generic addresses: windows and lane checks (R200, R201), translation of
every lane before any access, watchpoints (R358), the per-lane fault policy (R312), reads and writes at
the levels (R202 to R209), and the counters of releases and acquires (R211 to R213). -/

namespace Sys2Proof.Machine

/-- R197: the banks of a core that hold a role. -/
def Core.banks (c : Core) (role : Nat) : List Nat := (List.range 48).filter fun b => getI 0 c.roles b == role

/-! ## Windows (R200) -/

/-- R200: the windows of the generic address space. -/
inductive Window where
  | global | register | scratch | remote
  deriving DecidableEq, Repr

/-- R200: the window that holds an address. -/
def windowAt (a : Nat) : Option Window :=
  if a < 2 ^ 52 then some .global
  else if a / 2 ^ 32 = 0xFFFFFFFF then some .register
  else if a / 2 ^ 32 = 0xFFFFFFFE then some .scratch
  else if a / 2 ^ 32 = 0xFFFFFFFD then some .remote
  else none

/-- The level at which an access meets data (R204, R219). -/
inductive View where
  | l1 | l2 | home
  deriving DecidableEq, Repr

/-- What an instruction's access asks of each lane (R201, R221, R323, R306, R358). -/
structure MemForm where
  need : Need
  /-- Required alignment, or 1. -/
  align : Nat
  admits : Window → Bool
  /-- R306: the access kind. -/
  kind : Nat
  /-- Its kinds for watchpoints (R358). -/
  reads : Bool
  writes : Bool
  /-- R410: it may reach host memory. -/
  host : Bool
  /-- R402: it is a store or a RED: nothing returns to it. -/
  posted : Bool
  /-- R329: the scope of its release, if it is one. -/
  release : Option Nat := none
  /-- Where its reads meet their data. -/
  view : View := .l1
  /-- Its requests leave the cluster as it is checked (R377). -/
  leaves : Bool := true

/-- A lane's access: its generic address and where its bytes lie. -/
structure LaneAcc where
  lane : Nat
  addr : Nat
  segs : List Seg
  deriving DecidableEq, Repr

/-- R200: the live member of the cane's cooperative set in a slot. -/
def State.setMember (s : State) (c : Cane) (slot : Nat) : Option Workgroup :=
  let w := s.wgOf c
  if w.member.isSome && decide (slot < 2 ^ w.setLog) then
    s.workgroups.find? fun x => x.setId == w.setId && x.member == some slot
      && !(s.canesOf x.id).isEmpty
  else none

/-- R201 step 4: the bound of a window for the first and the last byte. -/
def State.boundFault (s : State) (c : Cane) (w : Window) (a last : Nat) : Option Cause :=
  match w with
  | .global => none
  | .register =>
    if a % 2 ^ 32 / 128 < c.nreg && last % 2 ^ 32 / 128 < c.nreg then none else some .protection
  | .scratch =>
    let size := (s.wgOf c).scrSize
    if a % 2 ^ 32 < size && last % 2 ^ 32 < size then none else some .scrBounds
  | .remote =>
    if a % 2 ^ 32 / 2 ^ 24 ≠ last % 2 ^ 32 / 2 ^ 24 then some .protection
    else match s.setMember c (a % 2 ^ 32 / 2 ^ 24) with
      | none => some .protection
      | some m =>
        if a % 2 ^ 24 < m.scrSize && last % 2 ^ 24 < m.scrSize then none else some .scrBounds

/-- R201 steps 1 to 4 for one lane's access of n bytes. -/
def State.laneFault (s : State) (c : Cane) (f : MemForm) (a n : Nat) : Option Cause :=
  let last := (a + n - 1) % 2 ^ 64
  match windowAt a with
  | none => some .protection
  | some w =>
    if windowAt last ≠ some w || last < a then some .windowStraddle
    else if a % f.align ≠ 0 then some .misaligned
    else if !f.admits w then some .protection
    else s.boundFault c w a last

/-! ## Translation of a lane (R201 step 5) -/

/-- What step 5 gives for one lane. -/
inductive LaneTrans where
  | ok (segs : List Seg)
  | deny
  | miss (va : Nat)
  deriving DecidableEq, Repr

/-- A run of bytes within one 64 KiB page. -/
def State.pageSeg (s : State) (c : Cane) (f : MemForm) (va n : Nat) : LaneTrans :=
  let w := s.wgOf c
  match s.translate c w.terrace w.vdev va f.need with
  | .miss => .miss va
  | .deny => .deny
  | .ok pa =>
    let d := dieOfCore c.core
    if isMmio pa then .ok [.mmio pa n]
    else if isHost pa && !f.host then .deny
    else match s.pathTo w.terrace d pa with
      | .arrives => .ok [.glob pa n]
      | .refused => .deny
      | .lost =>
        if f.posted then .ok [.lost n]
        else if !f.need.w && s.heldAt d pa n then .ok [.glob pa n]
        else .deny

/-- The runs of [a, a + n) within 64 KiB pages. -/
def pageRuns (a n : Nat) : List (Nat × Nat) :=
  let first := 65536 - a % 65536
  if n ≤ first then [(a, n)]
  else (a, first) :: ((List.range ((n - first) / 65536 + 1)).map fun i =>
    (a + first + 65536 * i, min 65536 (n - first - 65536 * i))).filter fun x => x.2 ≠ 0

/-- Step 5 of R201 over the runs of a lane: any miss is told before a refusal. -/
def joinTrans : List LaneTrans → LaneTrans
  | [] => .ok []
  | t :: ts =>
    match t, joinTrans ts with
    | .miss va, _ => .miss va
    | _, .miss va => .miss va
    | .deny, _ => .deny
    | _, .deny => .deny
    | .ok a, .ok b => .ok (a ++ b)

/-- Where a lane's access lies, for a lane that has passed steps 1 to 4. A load of remote scratch is refused where no path
leads to the member's die (R397, R402); a PULL fails there instead (R263). -/
def State.laneTranslate (s : State) (c : Cane) (f : MemForm) (a n : Nat) : LaneTrans :=
  let off := a % 2 ^ 32
  match windowAt a with
  | some .global => joinTrans ((pageRuns a n).map fun r => s.pageSeg c f r.1 r.2)
  | some .scratch => .ok [.scr c.wg off n]
  | some .register => .ok [.reg off n]
  | some .remote =>
    match s.setMember c (off / 2 ^ 24) with
    | some m =>
      if f.posted || s.reaches (s.wgOf c).terrace (dieOfCore c.core) (dieOfCore m.core) then .ok [.scr m.id (off % 2 ^ 24) n]
      else .deny
    | none => .deny
  | none => .deny

/-! ## Watchpoints (R358) -/

/-- R358: a watchpoint matches an access of n bytes of a cane at a generic address. -/
def State.watched (s : State) (c : Cane) (reads writes : Bool) (a n : Nat) : Bool :=
  let w := s.wgOf c
  let b := (s.terrace w.terrace).dbg
  b.attach && !c.passWatch && (List.range 8).any fun i =>
    let e := getI .zero b.watchpoints i
    b.wpen.getLsbD i && decide (a < e.start + e.len) && decide (e.start < a + n)
      && ((reads && e.kind.testBit 0) || (writes && e.kind.testBit 1)) && e.vmask.testBit w.vdev

/-! ## The per-lane fault policy (R312) -/

/-- R312: the policy of the region of the issuing instruction is quarantine; code in no region has the
policy stop (log entry 8), and so has an entry routine (R321). -/
def State.quarantines (s : State) : Bool :=
  s.cur.routine == .none
    && (((s.imageOf s.cur).regionAt s.iss.addr.toNat).map (·.quarantine)).getD false

/-- The mask of some lanes. -/
def laneMask (ls : List Nat) : Mask := ls.foldl (fun w l => w ||| (1#32 <<< l)) 0

/-- R312: lanes fault under stop: the cane is fault-parked, and in an exit routine the workgroup
overruns (R317). -/
def State.stopLanes (s : State) (faults : List LaneFault) : State :=
  let cause := (faults.head?.map (·.cause)).getD .protection
  let s := s.charge 0 1 0
  if s.cur.routine = .exit then s.overrun s.cur.wg .exitOverrun (some s.cur.id)
  else s.faultPark cause (laneMask (faults.map (·.lane))) faults

/-- R312: lanes fault under quarantine: one record names them, and they join QMASK. -/
def State.quarantineLanes (s : State) (faults : List LaneFault) : State :=
  let c := s.cur
  let w := s.wgOf c
  let im := s.image w.terrace
  let name := im.codeName s.iss.addr.toNat s.iss.stop
  let first := im.text + (((im.regionAt s.iss.addr.toNat).map (·.first)).getD 0)
  let mask := laneMask (faults.map (·.lane))
  let head : RecordHead :=
    ⟨(faults.head?.map (·.cause)).getD .protection, if c.inh then 2 else 0, faults.length, mask, name,
      c.idx, w.linear, c.slot⟩
  (s.recordFault w.terrace (dieOfCore c.core) c.core w.parcel head
    (faults.flatMap (laneEntry (c.stackWord first))) true).updCur fun c =>
      { c with qmask := c.qmask ||| mask }

/-- R305, R306: what a deferred record of one lane of the issuing instruction says. -/
def State.originOf (s : State) (f : LaneFault) : StoreOrigin :=
  let c := s.cur
  let w := s.wgOf c
  let im := s.image w.terrace
  let first := im.text + (((im.regionAt s.iss.addr.toNat).map (·.first)).getD 0)
  { core := c.core, cane := c.idx, linear := w.linear, slot := c.slot, pc := s.iss.addr.toNat, stop := s.iss.stop,
    flags := 1 + (if c.inh then 2 else 0) + (if c.routine ≠ .none then 4 else 0), lane := f.lane, size := f.size,
    kind := f.kind, addr := f.addr, stack := c.stackWord first, noted := [] }

/-- R208, R402: the deferred record of one lane. -/
def State.deferredOf (s : State) (cause : Cause) (t : Nat) (parcel : Option Nat) (o : StoreOrigin) : State :=
  s.recordFault t (dieOfCore o.core) o.core parcel
    ⟨cause, o.flags, 1, laneMask [o.lane], (s.image t).codeName o.pc o.stop, o.cane, o.linear, o.slot⟩
    (laneEntry o.stack ⟨o.lane, cause, o.size, o.kind, o.addr⟩) true

/-- R208, R402: a deferred record of one lane of the issuing instruction. -/
def State.deferred (s : State) (cause : Cause) (f : LaneFault) : State :=
  let w := s.wgOf s.cur
  s.deferredOf cause w.terrace w.parcel (s.originOf f)

/-! ## The slots of a memory instruction (R145, R149) -/

/-- R149: the rows of scratch banks that a segment reaches, as (bank, row); k is the count of SCR
banks. -/
def State.scrRows (s : State) (k : Nat) : Seg → List (Nat × Nat)
  | .scr wg off n =>
    let b := ((s.findWg wg).map (·.scrBase)).getD 0 + off
    (List.range ((b + n - 1) / 32 + 1 - b / 32)).map fun i => ((b / 32 + i) % k, (b / 32 + i) / k)
  | _ => []

/-- R149: the extra cycles of the lanes of one pass. -/
def State.scrExtra (s : State) (accs : List (Nat × List Seg)) (pass : Nat) : Nat :=
  let k := (s.core s.cur.core).scr
  if k = 0 then 0
  else
    let rows := ((accs.filter fun a => a.1 / 8 == pass).flatMap fun a => a.2.flatMap (s.scrRows k)).dedup
    ((List.range k).map fun b => (rows.filter fun r => r.1 == b).length).foldl max 1 - 1

/-- The number of bytes of a segment. -/
def Seg.size : Seg → Nat
  | .glob _ n => n
  | .lost n => n
  | .mmio _ n => n
  | .scr _ _ n => n
  | .reg _ n => n

/-- Bytes [o, o + n) of a segment's n + o or more. -/
def Seg.cut (o n : Nat) : Seg → Seg
  | .glob pa _ => .glob (pa + o) n
  | .lost _ => .lost n
  | .mmio pa _ => .mmio (pa + o) n
  | .scr wg off _ => .scr wg (off + o) n
  | .reg off _ => .reg (off + o) n

/-- Bytes [o, o + n) of some segments. -/
def sliceSegs (o n : Nat) : List Seg → List Seg
  | [] => []
  | g :: gs =>
    if n = 0 then []
    else if g.size ≤ o then sliceSegs (o - g.size) n gs
    else
      let k := min n (g.size - o)
      g.cut o k :: sliceSegs 0 (n - k) gs

/-- The slots of a memory instruction whose elements, of w bytes each, read these registers. -/
def State.chargeMem (s : State) (u : Bool) (mk : Mask) (w : Nat) (elems : List (List Nat))
    (accs : List LaneAcc) : State :=
  let n := if u then 1 else passCount mk
  let extra := ((elems.zipIdx).map fun e =>
    n * bankExtra e.1 + (([0, 1, 2, 3] : List Nat).map
      (s.scrExtra (accs.map fun a => (a.lane, sliceSegs (w * e.2) w a.segs)))).sum).sum
  if u then s.charge 0 elems.length extra else s.charge (n * elems.length) 0 extra

/-! ## Releases (R212, R228) -/

/-- R212: the release condition at a scope code. -/
def Cane.released (c : Cane) (scope : Nat) : Bool :=
  scope == 0 || (c.outstanding == 0
    && (if scope = 1 then c.wcnt else if scope ≤ 3 then c.dcnt else c.hcnt) == 0)

/-- R228: a fence of kind release at a scope, if any: later stores, atomics and releases wait for its condition. -/
def Cane.fencedAt (c : Cane) (scope : Option Nat) : Cane :=
  match scope with
  | some sc => if c.released sc then c else { c with fenceScope := some (max sc (c.fenceScope.getD 0)) }
  | none => c

/-! ## The whole check (R201, R223) -/

/-- R201: what the checks of every lane come to. -/
inductive Judged where
  /-- A translation is missing at an address. -/
  | miss (va : Nat)
  | lanes (accs : List LaneAcc) (faults : List LaneFault)
  deriving DecidableEq, Repr

/-- Steps 1 to 5 for one lane, before those of higher lanes. -/
def State.judgeLane (s : State) (f : MemForm) (n : Nat) (x : Nat × Nat) (rest : Judged) : Judged :=
  match s.laneFault s.cur f x.2 n with
  | some c =>
    match rest with
    | .miss va => .miss va
    | .lanes accs faults => .lanes accs (⟨x.1, c, n, f.kind, x.2⟩ :: faults)
  | none =>
    match s.laneTranslate s.cur f x.2 n with
    | .miss va => .miss va
    | .deny =>
      match rest with
      | .miss va => .miss va
      | .lanes accs faults => .lanes accs (⟨x.1, .protection, n, f.kind, x.2⟩ :: faults)
    | .ok segs =>
      match rest with
      | .miss va => .miss va
      | .lanes accs faults => .lanes (⟨x.1, x.2, segs⟩ :: accs) faults

/-- Steps 1 to 5 for lanes in ascending order. -/
def State.judge (s : State) (f : MemForm) (n : Nat) : List (Nat × Nat) → Judged
  | [] => .lanes [] []
  | x :: xs => s.judgeLane f n x (s.judge f n xs)

/-- The instruction waits for the translation of an address of its cane (R201, R325). -/
def State.waitPage (s : State) (va : Nat) (need : Need) : State :=
  let w := s.wgOf s.cur
  (s.awaitTranslation w.terrace w.vdev va need).updCur fun c => { c with pipe := none }

/-- R324: the µTLB serves the pages of an instruction's lanes. -/
def State.touchLanes (s : State) (n : Nat) (ls : List (Nat × Nat)) : State :=
  let c := s.cur
  let w := s.wgOf c
  ls.foldl (fun s x => if windowAt x.2 = some .global then
    (pageRuns x.2 n).foldl (fun s r => s.touchTlb c.core w.terrace w.vdev r.1) s else s) s

/-- R210: the line a core's L1 holds under the key id of a requester, which is that of its address; another is a
miss. -/
def State.l1Copy (s : State) (core t line : Nat) : Option L1Line :=
  ((s.core core).l1.find? fun x => x.line == line).filter fun x => x.key == t && x.key == s.keyOf (128 * line)

/-- R207: a granule is poisoned as the issuing cane reads it at a level. -/
def State.poisonSeen (s : State) (v : View) (g : Nat) : Bool :=
  let c := s.cur
  let t := (s.wgOf c).terrace
  let d := dieOfCore c.core
  let below : Bool := s.granulePoison t d g
  match v with
  | .home => s.poison.contains g
  | .l2 => below
  | .l1 => match s.l1Copy c.core t (g / 4) with
    | some l => l.poison.contains (g % 4)
    | none => below

/-- The segments whose data is poisoned at a level (R207, R209). -/
def State.segPoisoned (s : State) (v : View) : Seg → Bool
  | .glob pa n => (granules pa n).any (s.poisonSeen v)
  | .scr wg off n =>
    (((s.findWg wg).map (·.scrPoison)).getD []).any fun g =>
      decide (32 * g < off + n) && decide (off < 32 * g + 32)
  | .reg off n => s.cur.rowPoison.any fun r =>
      decide (32 * r < off + n) && decide (off < 32 * r + 32)
  | _ => false

/-- R209: lanes whose read meets poison. -/
def State.poisonFaults (s : State) (f : MemForm) (n : Nat) (accs : List LaneAcc) : List LaneFault :=
  (accs.filter fun a => a.segs.any (s.segPoisoned f.view)).map fun a => ⟨a.lane, .poisonedData, n, f.kind, a.addr⟩

/-- A trap with lane entries (R209). -/
def State.raiseLanes (s : State) (cause : Cause) (faults : List LaneFault) : State :=
  (s.charge 0 1 0).trapWith cause 0 (laneMask (faults.map (·.lane))) faults

/-- R123: a cane whose lanes are all quarantined resumes its stack before its next instruction, also when the one that
has completed is a switch marker whose results are due (R28). -/
def State.resumeIfEmpty (s : State) : State :=
  if s.cur.recon &&& ~~~s.cur.qmask = 0 && (s.cur.wait == .none || s.cur.wait == .results) then s.resume else s

/-! ## The whole of an access (R201, R312, R358, R377) -/

/-- R377: the request beats of an access: one for each line that L1 does not serve, which lanes that read it share, and one
for each access of the management blocks, of scratch in another cluster and of a lost store (log entry 71). -/
def State.requestBeats (s : State) (f : MemForm) (segs : List Seg) : Nat :=
  let c := s.cur
  let t := (s.wgOf c).terrace
  let lines := segs.flatMap fun g => match g with | .glob pa n => linesOf pa n | _ => []
  let out := lines.filter fun l => f.need.w || f.view != .l1 || (s.l1Copy c.core t l).isNone
  let direct (g : Seg) : Bool := match g with
    | .mmio _ _ | .lost _ => true
    | .scr wg _ _ => ((s.findWg wg).map (·.core)).any fun k => clusterOfCore k != clusterOfCore c.core
    | _ => false
  if f.leaves then (if f.need.w then out else out.dedup).length + (segs.filter direct).length else 0

/-- R201, R312, R358: the lanes of a memory instruction are checked; then its effect takes place on the
lanes that may access, once the outbound FIFO has taken its requests (R377). A load (trapping) meets poison before any effect. When
every lane faults, a release acts as a fence of kind release (R329). -/
def State.access (s : State) (m : Marks) (f : MemForm) (n : Nat) (trapping : Bool)
    (ls : List (Nat × Nat)) (effect : State → List LaneAcc → State) : State :=
  match s.judge f n ls with
  | .miss va => s.waitPage va f.need
  | .lanes accs faults =>
    match accs.find? fun a => s.watched s.cur f.reads f.writes a.addr n with
    | some a => (s.charge 0 1 0).debugPark 2 .watchpoint a.addr
    | none =>
      let s := s.touchLanes n ls
      if faults ≠ [] && !s.quarantines then s.stopLanes faults
      else
        let bad := if trapping then s.poisonFaults f n accs else []
        if bad ≠ [] then s.raiseLanes .poisonedData bad
        else s.enter (s.requestBeats f (accs.flatMap (·.segs))) fun s =>
          if faults = [] then effect s accs
          else
            let s := s.quarantineLanes faults
            if accs = [] then ((s.updCur fun c => c.fencedAt f.release).finishOnce m).resumeIfEmpty
            else effect s accs

/-! ## Reads (R204 to R206, R224) -/

/-- R197, R204: a core's L1 takes a line for a requester from its die; each L1 bank is one way of 256 sets. A line whose
key id is not the requester's it does not take (R210). -/
def State.allocL1 (s : State) (core t line : Nat) : State :=
  let c := s.core core
  let d := dieOfCore core
  let others := c.l1.filter fun x => x.line != line
  let set := others.filter fun x => x.line % 256 == line % 256
  if (c.banks 2).isEmpty || s.keyOf (128 * line) != t || (s.l1Copy core t line).isSome then s
  else
    let new (b : Nat) : L1Line :=
      { bank := b, line := line, bytes := s.dieBytes d (128 * line) 128, key := t,
        poison := ([0, 1, 2, 3] : List Nat).filter fun i => s.diePoison d (4 * line + i) }
    match (c.banks 2).find? fun b => !(set.any fun x => x.bank == b) with
    | some b => s.setCore core { c with l1 := new b :: others }
    | none =>
      match set[Config.l1Victim s.freeCount % set.length]? with
      | none => s
      | some v =>
        let s := { s with freeCount := s.freeCount + 1 }
        s.setCore core { c with l1 := new v.bank :: others.filter fun x => x != v }

/-- The byte a core's plain load reads for a requester. -/
def State.coreByte (s : State) (core t pa : Nat) (nc : Bool) : Byte :=
  match (if nc then none else s.l1Copy core t (lineOf pa)) with
  | some l => getI 0 l.bytes (pa % 128)
  | none => s.byteFor t (dieOfCore core) pa

/-- R204: the lines of a global read that L1 does not give are asked of the die, and brought in: to L2, and by a
load other than LD.NC to L1. -/
def State.fill (s : State) (core t pa n : Nat) (nc : Bool) : State :=
  (linesOf pa n).foldl (fun s line =>
    if !nc && (s.l1Copy core t line).isSome then s
    else
      let s := s.allocL2 (dieOfCore core) line t
      if nc || isHost pa then s else s.allocL1 core t line) s

/-- Bytes [off, off + n) of the register window. -/
def Cane.windowBytes (c : Cane) (off n : Nat) : List Byte :=
  (List.range n).map fun i =>
    let o := off + i
    BitVec.ofNat 8 ((c.V (o / 128) (o / 4 % 32)).toNat / 2 ^ (8 * (o % 4)))

/-- The scratch of a workgroup. -/
def State.scratchOf (s : State) (wg : Nat) : List Host.Cell := ((s.findWg wg).map (·.scratch)).getD []

/-- One segment read by the issuing cane. -/
def State.readSeg (s : State) (nc : Bool) : Seg → State × List Byte
  | .glob pa n =>
    let c := s.cur
    let t := (s.wgOf c).terrace
    let s := s.fill c.core t pa n nc
    (s, (List.range n).map fun i => s.coreByte c.core t (pa + i) nc)
  | .lost n => (s, List.replicate n 0#8)
  | .mmio pa n => s.mmioRead pa n
  | .scr wg off n => (s, Memory.readBytes (s.scratchOf wg) off n)
  | .reg off n => (s, s.cur.windowBytes off n)

/-- The segments of a lane read in order. -/
def State.readSegs (s : State) (nc : Bool) : List Seg → State × List Byte
  | [] => (s, [])
  | g :: gs =>
    let (s, a) := s.readSeg nc g
    let (s, b) := s.readSegs nc gs
    (s, a ++ b)

/-- Every lane read in ascending order: its lane and bytes. -/
def State.readLanes (s : State) (nc : Bool) : List LaneAcc → State × List (Nat × List Byte)
  | [] => (s, [])
  | a :: as =>
    let (s, b) := s.readSegs nc a.segs
    let (s, r) := s.readLanes nc as
    (s, (a.lane, b) :: r)

/-! ## Stores into exit records (R318) -/

/-- R318: a program's store of n bytes at a into an exit record: own is the section of the storing
cane when it is a plain store of an exit routine. -/
def ExitRec.noteStore (e : ExitRec) (own : Option Nat) (a n : Nat) : ExitRec :=
  let size := exitBytes e.canes e.carry e.ranges
  if a < e.addr + size && e.addr < a + n then
    match own with
    | none => { e with spoiled := true }
    | some i =>
      let lo := e.addr + firstCarried e.carry i
      if lo ≤ a && a + n ≤ lo + carriedBytes e.carry && a % 4 = 0 && n % 4 = 0 then
        { e with words := e.words ++ (List.range (n / 4)).map fun k => a + 4 * k - e.addr }
      else { e with spoiled := true }
  else e

/-- R318: the stores of a terrace's virtual device are noted in the exit records that they reach. -/
def State.noteStore (s : State) (plain : Bool) (a n : Nat) : State :=
  let c := s.cur
  let x := s.wgOf c
  let note (w : Workgroup) : Workgroup :=
    if w.terrace = x.terrace ∧ w.vdev = x.vdev then
      { w with exitRec := w.exitRec.map fun e =>
          e.noteStore (if plain && w.id == c.wg && c.routine == .exit then some c.idx else none) a n }
    else w
  { s with workgroups := s.workgroups.map note }

/-! ## Writes (R204, R208, R211, R212) -/

/-- R206, R207: a store updates its own core's L1 line, if present. A granule that it fills whole is clean. -/
def State.storeL1 (s : State) (core pa : Nat) (bytes : List Byte) : State :=
  let c := s.core core
  let put (l : L1Line) : L1Line :=
    let l' := (bytes.zipIdx).foldl (fun (l : L1Line) (x : Byte × Nat) =>
      if lineOf (pa + x.2) = l.line then { l with bytes := setI 0 l.bytes ((pa + x.2) % 128) x.1 }
      else l) l
    { l' with poison := l'.poison.filter fun g => !fills pa bytes.length (4 * l.line + g) }
  s.setCore core { c with l1 := c.l1.map put }

/-- R208: the poisoned granules of [a, a + n) that a write does not fill whole. -/
def partialGranules (gs : List Nat) (a n : Nat) : List Nat :=
  gs.filter fun g => touches a n g && !fills a n g

/-- One line of a store leaves the issuing cane: WCNT counts it when the line is absent from L1
(R211). -/
def State.storeLine (s : State) (signalled : Bool) (pa : Nat) (bytes : List Byte) : State :=
  let c := s.cur
  let w := s.wgOf c
  let held := (s.l1Copy c.core w.terrace (lineOf pa)).isSome
  (s.storeL1 c.core pa bytes).launchWrite (dieOfCore c.core) w.terrace (some c.id) w.parcel signalled
    (!held) pa bytes

/-- R402: the writes past the first n are those of a lane's store. -/
def State.noteOrigin (s : State) (n : Nat) (o : StoreOrigin) : State :=
  { s with flights := s.flights.take n ++ (s.flights.drop n).map fun x => { x with origin := some o } }

/-- The workgroup's scratch with bytes written. -/
def State.writeScratch (s : State) (wg off : Nat) (bytes : List Byte) : State :=
  s.updWg wg fun w =>
    { w with scratch := Memory.writeBytes w.scratch off bytes,
             scrPoison := w.scrPoison.filter fun g =>
               !(decide (off ≤ 32 * g) && decide (32 * g + 32 ≤ off + bytes.length)) }

/-- The register window written (R7). -/
def Cane.writeWindow (c : Cane) (off : Nat) : List Byte → Cane
  | [] => c
  | b :: bs =>
    let r := off / 128
    let l := off / 4 % 32
    let k := 8 * (off % 4)
    let old := (c.V r l).toNat
    let x := old - old / 2 ^ k % 256 * 2 ^ k + b.toNat * 2 ^ k
    ({ c with v := setI [] c.v r (mergeRow (1#32 <<< l) (c.row r) fun _ => BitVec.ofNat 32 x) }
      ).writeWindow (off + 1) bs

/-- R207: the register rows that a write of the window fills whole lose their poison. -/
def Cane.clearRows (c : Cane) (off n : Nat) : Cane :=
  { c with rowPoison := c.rowPoison.filter fun r =>
      !(decide (off ≤ 32 * r) && decide (32 * r + 32 ≤ off + n)) }

/-- R247: a plain store of n bytes of scratch is not yet ordered before the engines: each 4-byte element that it writes, as
it stood. -/
def State.replacedWords (s : State) (wg off n : Nat) : List (Nat × List Byte) :=
  (List.range ((off + n + 3) / 4 - off / 4)).map fun i =>
    (4 * (off / 4 + i), Memory.readBytes (s.scratchOf wg) (4 * (off / 4 + i)) 4)

/-- One segment written by the issuing cane: a is the segment's generic address, for the records of
R208 and R402. A granule is found poisoned in the core's L1 or at its die; where its home finds it, the record comes when
the home takes the write (R208). -/
def State.writeSeg (s : State) (f : MemForm) (signalled : Bool) (lane size a : Nat) (bytes : List Byte) :
    Seg → State
  | .glob pa _ =>
    let bad := partialGranules ((granules pa bytes.length).filter fun g => s.poisonSeen .l1 g || s.poisonSeen .l2 g) pa
      bytes.length
    let o := { s.originOf ⟨lane, .protection, size, f.kind, a⟩ with noted := bad }
    let s := ((splitLines pa bytes).foldl (fun s x => s.storeLine signalled x.1 x.2) s).noteOrigin s.flights.length o
    bad.foldl (fun s g => s.deferred .poisonedData ⟨lane, .poisonedData, size, f.kind, a + 32 * g - pa⟩) s
  | .lost _ => s.deferred .protection ⟨lane, .protection, size, f.kind, a⟩
  | .mmio pa _ => s.mmioWrite pa bytes
  | .scr wg off _ =>
    let bad := partialGranules ((s.findWg wg).map (·.scrPoison) |>.getD []) off bytes.length
    let old := s.replacedWords wg off bytes.length
    let s := (s.writeScratch wg off bytes).updCur fun c =>
      { c with unfenced := if f.kind == 2 || f.kind == 5 || f.kind == 7 then old ++ c.unfenced else c.unfenced }
    let s := if signalled then s.monitorWake (dieOfCore s.cur.core) (.scratch wg off) bytes.length
      else s
    bad.foldl (fun s g => s.deferred .poisonedData ⟨lane, .poisonedData, size, f.kind, a + 32 * g - off⟩)
      s
  | .reg off _ =>
    let bad := partialGranules s.cur.rowPoison off bytes.length
    bad.foldl (fun s r => s.deferred .poisonedData ⟨lane, .poisonedData, size, f.kind, a + 32 * r - off⟩)
      (s.updCur fun c => (c.writeWindow off bytes).clearRows off bytes.length)

/-- A lane's bytes written over its segments, upward. -/
def State.writeSegs (s : State) (f : MemForm) (signalled : Bool) (lane size a : Nat) (bytes : List Byte) :
    List Seg → State
  | [] => s
  | g :: gs =>
    (s.writeSeg f signalled lane size a (bytes.take g.size) g).writeSegs f signalled lane size
      (a + g.size) (bytes.drop g.size) gs

/-- R366: the elements of a lane's store join the hash. -/
def State.hashStores (s : State) (w a : Nat) (bytes : List Byte) : State :=
  (List.range (bytes.length / w)).foldl (fun s i => s.hashStore (a + w * i) (leField bytes (w * i) w)) s

/-- The lines of a lane's global segments. -/
def LaneAcc.lines (a : LaneAcc) : Nat :=
  (a.segs.map fun g => match g with | .glob pa n => (linesOf pa n).length | _ => 0).sum

/-- R212: a store of these lanes would take a counter past 1023. -/
def Cane.storeFull (c : Cane) (accs : List LaneAcc) : Bool :=
  let n := (accs.map LaneAcc.lines).sum
  n ≠ 0 && decide (1023 < max (max c.wcnt c.dcnt) c.hcnt + n)

/-! ## Waits and acquires (R212, R213) -/

/-- Counters have changed: the waits that they end. -/
def Cane.poke (c : Cane) : Cane :=
  match c.wait with
  | .results => if c.outstanding = 0 then { c with wait := .none } else c
  | .release sc => if c.released sc then { c with wait := .none } else c
  | .storeRoom => { c with wait := .none }
  | _ => c

/-- R206, R213: the whole L1 of a core is invalidated. -/
def State.dropL1 (s : State) (core : Nat) : State := s.setCore core { s.core core with l1 := [] }

/-- R213, R217: the causal past that reads of a segment bring with them. -/
def State.segPast (s : State) (d : Nat) : Seg → List Nat
  | .glob pa n => ((linesOf pa n).map fun l => ((s.l2Copy d l).map (·.past)).getD (s.pastOf l)).foldl
      joinClocks []
  | _ => []

/-- R213: the causal past that a die must have applied for these reads. -/
def State.accsPast (s : State) (d : Nat) (accs : List LaneAcc) : List Nat :=
  (accs.flatMap (·.segs)).foldl (fun p g => joinClocks p (s.segPast d g)) []

/-- R213: an acquire's effect on the core at a scope code. -/
def State.acquireL1 (s : State) (scope : Nat) : State :=
  if 2 ≤ scope then s.dropL1 s.cur.core else s

end Sys2Proof.Machine
end

