-- ==== Sys2Proof/Machine/Storage.lean ====
section
/-! DEFINITION. Loads, stores, FENCE, INVAL and BANK.ROLE (R221 to R228, R242, R243). -/

namespace Sys2Proof.Machine

/-! ## Lanes and operands of a memory instruction (R44, R222) -/

/-- The bytes a lane moves (R222). -/
def memWidth (is64 : Bool) : Nat := if is64 then 8 else 4

/-- The lanes that make an access, with their addresses; one under U (R27). -/
def lanesFor (u : Bool) (mk : Mask) (addr : Nat → Dword) : List (Nat × Nat) :=
  (if u then [firstLane mk] else lanesOf mk).map fun l => (l, (addr l).toNat)

/-- The lanes that receive what some lanes have read: all of mk under U. -/
def destMask (u : Bool) (mk : Mask) (accs : List LaneAcc) : Mask :=
  if u then mk else laneMask (accs.map (·.lane))

/-- The offsets of a memory instruction's elements: one, or the block's. -/
def Cane.memOffsets (c : Cane) (block : Bool) : List Nat :=
  if block then c.blockOffsets c.is64 else [0]

/-- Steps 3 to 7 of R53 for a memory instruction with a data register. -/
def Cane.memChecks (c : Cane) (accepts : ElemType → Bool) (usesScope block : Bool) (data : BitVec 7)
    (regs : List Nat) : List (Bool × Cause) :=
  [c.beyond (data.toNat :: regs)] ++ (if block then [c.blockBeyond c.is64 [data]] else [])
    ++ [c.badType accepts] ++ (if usesScope then [c.badScope] else [])
    ++ [oddField c.is64 [data]] ++ (if block then [c.badBlock c.is64 [data]] else [])

/-- R221: the windows of the acquire, release, atomic, wait and ring accesses. -/
def sharedWindows : Window → Bool
  | .global | .scratch => true
  | _ => false

/-- R221: the windows of plain stores. -/
def storeWindows : Window → Bool
  | .remote => false
  | _ => true

/-! ## Loads (R224 to R226) -/

/-- The watched word of a segment's first byte (R226). -/
def Seg.word : Seg → Option Place
  | .glob pa _ => some (.glob (pa / 8 * 8))
  | .scr wg off _ => some (.scratch wg (off / 8 * 8))
  | _ => none

/-- The access goes beyond the core, so its result is outstanding for a while (R28). -/
def Seg.remote : Seg → Bool
  | .glob _ _ | .mmio _ _ => true
  | _ => false

/-- R204: the lines of the lanes' global segments are brought in. -/
def State.fillLanes (s : State) (nc : Bool) (accs : List LaneAcc) : State :=
  (accs.flatMap (·.segs)).foldl (fun s g =>
    match g with
    | .glob pa n => s.fill s.cur.core (s.wgOf s.cur).terrace pa n nc
    | _ => s) s

/-- R213: the issuing cane's die has applied the causal past an acquire at a scope waits for. -/
def State.acquirable (s : State) (scope : Nat) (past : List Nat) : Bool :=
  decide (scope < 4) || s.covers (dieOfCore s.cur.core) past

/-- R224 to R226: the lanes' bytes are read and written to the elements of D. An acquire (acq, its scope)
waits for the causal past of what it reads, invalidates L1 and sets the watch. -/
def State.loadLanes (m : Marks) (nc : Bool) (acq : Option Nat) (d : BitVec 7) (offs : List Nat)
    (elems : List (List Nat)) (s : State) (accs : List LaneAcc) : State :=
  let c := s.cur
  let w := memWidth c.is64
  let s := s.fillLanes nc accs
  let past := s.accsPast (dieOfCore c.core) accs
  if acq.any fun sc => !s.acquirable sc past then s.park (.press 0)
  else
    let (s, vals) := s.readLanes nc accs
    let bytes (l : Nat) : List Byte :=
      if m.u then ((vals.head?).map (·.2)).getD []
      else ((vals.find? fun x => x.1 == l).map (·.2)).getD []
    let s := s.chargeMem m.u c.active w elems accs
    let far := accs.any fun a => a.segs.any Seg.remote
    let watch : Option Place := (accs.head?.bind (·.segs.head?)).bind Seg.word
    let s := s.updCur fun k =>
      let k := k.setBlock c.is64 (destMask m.u c.active accs) d.toNat offs fun o l =>
        leField (bytes l) (w * offs.idxOf o) w
      { k with outstanding := k.outstanding + (if far then 1 else 0), seen := joinClocks k.seen past,
               watch := if acq.isSome then ⟨watch, false⟩ else k.watch }
    (match acq with
     | some sc => s.acquireL1 sc
     | none => s).finish m

/-- A load. -/
def State.load (s : State) (m : Marks) (f : MemForm) (nc acq block : Bool) (d a b : BitVec 7) : Out :=
  let c := s.cur
  let mk := c.active
  let regs := addrRegs a ++ voffRegs b
  let offs := c.memOffsets block
  let elems := offs.map fun _ => regs
  s.attemptReading (operandLanes m.u mk) regs (c.memChecks (fun _ => true) acq block d regs)
    (if mk = 0 then (s.chargeVec m.u mk elems).finish m
     else
       s.access m f (memWidth c.is64 * offs.length) true (lanesFor m.u mk (s.addrAt a b))
         (State.loadLanes m nc (if acq then some c.scope else none) d offs elems))

/-- R221: the form of a plain load. -/
def loadForm (kind : Nat) (nc : Bool) : MemForm :=
  { need := needR, align := 1, admits := fun _ => true, kind := kind, reads := true, writes := false,
    host := true, posted := false, view := if nc then .l2 else .l1 }

/-- R224: LD. -/
def execLd (m : Marks) (d a b : BitVec 7) (s : State) : Out :=
  s.load m (loadForm 1 false) false false false d a b
/-- R224: LD.NC. -/
def execLdNc (m : Marks) (d a b : BitVec 7) (s : State) : Out :=
  s.load m (loadForm 1 true) true false false d a b
/-- R225: LD.BLK. -/
def execLdBlk (m : Marks) (d a b : BitVec 7) (s : State) : Out :=
  s.load m (loadForm 6 false) false false true d a b
/-- R226: LD.ACQ. -/
def execLdAcq (m : Marks) (d a b : BitVec 7) (s : State) : Out :=
  s.load m { loadForm 4 false with align := memWidth s.cur.is64, admits := sharedWindows } false true false d a b

/-! ## Stores (R224, R225, R227) -/

/-- R212, R228: the issuing cane's pending FENCE release, then a release at a scope, if any: the first
scope whose release condition does not hold. -/
def Cane.heldBy (c : Cane) (rel : Option Nat) : Option Nat :=
  (c.fenceScope.toList ++ rel.toList).find? fun sc => !c.released sc

/-- R212, R228: what follows waits for an earlier FENCE release, and for a release of its own. -/
def State.afterRelease (s : State) (rel : Option Nat) (k : State → State) : State :=
  match s.cur.heldBy rel with
  | some sc => s.park (.release sc)
  | none => k (s.updCur fun c => { c with fenceScope := none })

/-- R223: the lanes of a store in ascending order: each writes its bytes, which join the record's
spoiling rules (R318) and the hash (R366). -/
def State.storeEach (f : MemForm) (sig : Bool) (w : Nat) (bytes : Nat → List Byte) :
    State → List LaneAcc → State
  | s, [] => s
  | s, a :: as =>
    let bs := bytes a.lane
    let s := s.writeSegs f sig a.lane bs.length a.addr bs a.segs
    let s := (s.noteStore true a.addr bs.length).hashStores w a.addr bs
    State.storeEach f sig w bytes s as

/-- R224, R225, R227: the lanes' elements of A are written. -/
def State.storeLanes (m : Marks) (f : MemForm) (sig : Bool) (rel : Option Nat) (a : BitVec 7)
    (offs : List Nat) (elems : List (List Nat)) (s : State) (accs : List LaneAcc) : State :=
  let c := s.cur
  let w := memWidth c.is64
  s.afterRelease rel fun s =>
    if c.storeFull accs then s.park .storeRoom
    else
      let s := s.chargeMem m.u c.active w elems accs
      (s.storeEach f sig w (fun l =>
        offs.flatMap fun o => leBytes w (c.val c.is64 (a.toNat + o) l)) accs).finish m

/-- A store. -/
def State.store (s : State) (m : Marks) (f : MemForm) (sig rel block : Bool) (d a b : BitVec 7) : Out :=
  let c := s.cur
  let mk := c.active
  let regs := addrRegs d ++ voffRegs b
  let offs := c.memOffsets block
  let elems := offs.map fun o => regs ++ readsOf c.is64 [a] o
  s.attemptReading (operandLanes m.u mk) (regs ++ offs.flatMap fun o => readsOf c.is64 [a] o)
    (c.memChecks (fun t => t != .nq4) rel block a regs)
    (if mk = 0 then (s.chargeVec m.u mk elems).finish m
     else
       s.access m f (memWidth c.is64 * offs.length) false (lanesFor m.u mk (s.addrAt d b))
         (State.storeLanes m f sig (if rel then some c.scope else none) a offs elems))

/-- R221: the form of a plain store. -/
def storeForm (kind : Nat) : MemForm :=
  { need := needW, align := 1, admits := storeWindows, kind := kind, reads := false, writes := true,
    host := true, posted := true }

/-- R221, R227: the form of a release store at a scope. -/
def releaseForm (is64 : Bool) (scope : Nat) : MemForm :=
  { storeForm 5 with align := memWidth is64, admits := sharedWindows, release := some scope }

/-- R224: ST. -/
def execSt (m : Marks) (d a b : BitVec 7) (s : State) : Out :=
  s.store m (storeForm 2) false false false d a b
/-- R225: ST.BLK. -/
def execStBlk (m : Marks) (d a b : BitVec 7) (s : State) : Out :=
  s.store m (storeForm 7) false false true d a b
/-- R227: ST.REL. -/
def execStRel (m : Marks) (d a b : BitVec 7) (s : State) : Out :=
  s.store m (releaseForm s.cur.is64 s.cur.scope) false true false d a b
/-- R227: ST.SIG. -/
def execStSig (m : Marks) (d a b : BitVec 7) (s : State) : Out :=
  s.store m (releaseForm s.cur.is64 s.cur.scope) true true false d a b

/-! ## FENCE (R215, R228) -/

/-- R213, R228: the acquire of a FENCE at a scope: its reads have returned, the die has applied their
causal past, and L1 is invalidated. -/
def State.fenceAcquired (s : State) (m : Marks) (scope : Nat) : State :=
  if scope = 0 then s.finishOnce m
  else if s.cur.outstanding ≠ 0 then s.park .results
  else if !s.acquirable scope s.cur.seen then s.park (.press 0)
  else (s.acquireL1 scope).finishOnce m

/-- R228: the async bit of a release: the engines see the cane's earlier scratch stores. -/
def Cane.fenceAsync (c : Cane) (y : BitVec 1) : Cane := if y = 1#1 then { c with unfenced := [] } else c

/-- R228: FENCE of kind acquire; its async bit adds nothing. -/
def execFenceAcquire (m : Marks) (_y : BitVec 1) (c : BitVec 3) (s : State) : Out :=
  s.attempt [s.wide] (s.fenceAcquired m c.toNat)

/-- R228: FENCE of kind release: later stores, atomics and releases wait for its condition (R214: later
loads do not). -/
def execFenceRelease (m : Marks) (y : BitVec 1) (c : BitVec 3) (s : State) : Out :=
  s.attempt [s.wide]
    ((s.updCur fun k => (k.fenceAsync y).fencedAt (some c.toNat)).finishOnce m)

/-- R215: FENCE of kind full: every earlier store is performed at the scope before it ends. -/
def execFenceFull (m : Marks) (y : BitVec 1) (c : BitVec 3) (s : State) : Out :=
  s.attempt [s.wide]
    (if s.cur.released c.toNat then (s.updCur fun k => k.fenceAsync y).fenceAcquired m c.toNat
     else s.park (.release c.toNat))

/-! ## INVAL (R243) -/

/-- R243: one lane's line leaves the core's L1; a lane whose address does not translate, or lies in
another window, has no effect. -/
def State.invalLane (s : State) (a : Nat) : State :=
  let c := s.cur
  if windowAt a = some .global then
    match s.ctxTranslate (s.wgOf c).ctx a ⟨false, false, false⟩ with
    | some pa =>
      let k := s.core c.core
      s.setCore c.core { k with l1 := k.l1.filter fun x => x.line != lineOf pa }
    | none => s
  else s

/-- R243: INVAL. A lane whose address lies in no window has a per-lane fault (log entry 15). -/
def execInval (m : Marks) (a b : BitVec 7) (s : State) : Out :=
  let c := s.cur
  let mk := c.unguarded
  let regs := addrRegs a ++ voffRegs b
  s.attemptReading (operandLanes m.u mk) regs [c.beyond regs]
    (if mk = 0 then (s.chargeVec m.u mk [regs]).finish m
     else
       let ls := lanesFor m.u mk (s.addrAt a b)
       let faults : List LaneFault := (ls.filter fun x => (windowAt x.2).isNone).map fun x =>
         ⟨x.1, .protection, 4, 1, x.2⟩
       if faults ≠ [] && !s.quarantines then s.stopLanes faults
       else
         let s := if faults = [] then s else s.quarantineLanes faults
         let s := ((ls.foldl (fun s x => s.invalLane x.2) s).chargeVec m.u mk [regs]).finish m
         if faults = [] then s else s.resumeIfEmpty)

/-! ## BANK.ROLE (R198, R242) -/

/-- R198: the condition under which a bank of a core may leave or take up a role. -/
def State.roleFree (s : State) (core bank : Nat) (role : Nat) : Bool :=
  let k := s.core core
  match role with
  | 0 => (k.stripes.zipIdx).all fun x => !x.1.contains bank
      || !(s.canes.any fun c => c.core == core && c.stripe == x.2)
  | 1 => !(s.workgroups.any fun w => w.core == core && w.scrSize != 0)
  | 2 => true
  | _ => !(k.slots.any fun x => decide (x.1 < 32768 * (bank + 1)) && decide (32768 * bank < x.1 + x.2))

/-- R198: a bank takes a role; an L1 way that leaves is invalidated, and the core takes no workgroup until it is
empty. -/
def Core.setRole (k : Core) (bank role : Nat) : Core :=
  { k with roles := setI 0 k.roles bank role, l1 := k.l1.filter fun x => x.bank != bank, changed := true }

/-- R242: the banks of a core outside L1 after a change. -/
def Core.budgeted (k : Core) (bank role : Nat) : Nat :=
  48 - ((k.setRole bank role).banks 2).length

/-- R242: BANK.ROLE. -/
def execBankRole (m : Marks) (d : BitVec 3) (a b : BitVec 7) (s : State) : Out :=
  let c := s.cur
  let mk := c.unguarded
  let bank := (c.uread a.toNat).toNat
  let role := (c.uread b.toNat).toNat
  let k := s.core c.core
  let limit := (((s.wgOf c).parcel.bind s.findParcel).map (·.maxBanks)).getD 0
  let old := getI 0 k.roles bank
  let ok := role == old || (s.roleFree c.core bank old && s.roleFree c.core bank role)
  s.attemptReading (operandLanes true mk) [a.toNat, b.toNat]
    [c.beyond [a.toNat, b.toNat], (mk != 0 && (decide (47 < bank) || decide (3 < role)), .illegalEncoding),
     (mk != 0 && c.priv == 0 && role != 2 && decide (limit < k.budgeted bank role), .privilege)]
    (if mk = 0 then s.finishOnce m
     else
       let s := if ok && role != old then s.setCore c.core (k.setRole bank role) else s
       (s.updCur fun c => c.setP mk d.toNat (if ok then 0xFFFFFFFF#32 else 0)).finishOnce m)

end Sys2Proof.Machine
end

