-- ==== Sys2Proof/Machine/Atomics.lean ====
section
/-! DEFINITION. Atomics and RED (R219, R229 to R232), with the order gates of record and replay before
the press (R368, R369). -/

namespace Sys2Proof.Machine

/-! ## The operations (R229) -/

/-- The types of the integer atomics. -/
def atomInt : ElemType → Bool
  | .i32 | .n32 | .i64 | .n64 => true
  | _ => false

/-- The types of ATOM.ADD and RED. -/
def atomSum : ElemType → Bool
  | .i32 | .n32 | .i64 | .n64 | .fp32 | .fp16 | .bf16 => true
  | _ => false

/-- The types of ATOM.XCHG and ATOM.CAS. -/
def atomMove (t : ElemType) : Bool := t != .nq4

/-- R74, R229: a float sum of one element: RNE, subnormals honoured, no flag. -/
def atomFloat (f : FFmt) (a b : Nat) : Nat :=
  (deliverF f .rne false false 0
    (addReal .rne (decodeF f a).toReal (decodeF f b).toReal)).bits

/-- R229: o + b, modulo 2^w or element by element. -/
def atomAddBits (t : ElemType) (o b : Nat) : Nat :=
  if t.isFloat then
    packElems t.width ((List.range t.count).map fun j =>
      atomFloat t.fmt (elemBits t o j) (elemBits t b j))
  else (o + b) % 2 ^ t.laneBits

/-- R229: the lesser. -/
def atomMinBits (t : ElemType) (o b : Nat) : Nat := if intOf t o ≤ intOf t b then o else b
/-- R229: the greater. -/
def atomMaxBits (t : ElemType) (o b : Nat) : Nat := if intOf t b ≤ intOf t o then o else b

/-! ## One lane -/

/-- What an atomic instruction is: its destination, none for RED, its signal form (R231), its width in
bytes, the value it stores from the old one in a lane, its element type and the first data operand's value in a lane. -/
structure AtomForm where
  dest : Option (BitVec 7)
  signal : Bool
  width : Nat
  new : Nat → Nat → Nat
  etype : ElemType
  value : Nat → Nat

/-- The unit of a press operation: its physical line, or the workgroup's scratch line (R368). -/
def Seg.unit : Seg → Place
  | .glob pa _ => .glob (pa / 128 * 128)
  | .scr wg off _ => .scratch wg (off / 128 * 128)
  | .mmio pa _ => .glob (pa / 128 * 128)
  | .reg off _ => .glob off
  | .lost _ => .glob 0

/-- R369: a request of the issuing cane at a unit may pass: it is not under replay, or its gate is open. It stands behind
the cane's own REDs that the gate holds. -/
def State.gatePasses (s : State) (kind : Nat) (p : Place) : Bool :=
  let c := s.cur
  let w := s.wgOf c
  !(s.heldReds.any fun h => kind == 1 && h.cane == c.id && h.unit == s.unitPlace p) && match s.rootOf c with
  | none => true
  | some root =>
    !s.underReplay w.terrace (some root) 2 || s.gateOpen w.terrace root kind (s.unitPlace p) w.linear c.idx

/-- R368, R369: the issuing cane has a grant at a unit, which the log names by an address. -/
def State.granted (s : State) (kind : Nat) (p : Place) (unitId : Nat) : State :=
  let c := s.cur
  let w := s.wgOf c
  match s.rootOf c with
  | none => s
  | some root =>
    if s.underReplay w.terrace (some root) 1 then
      s.updDebug w.terrace fun b => b.grant kind (s.unitPlace p) unitId (s.winner c)
    else if s.underReplay w.terrace (some root) 2 then
      s.gateGrant w.terrace root kind (s.unitPlace p) (s.winner c)
    else s

/-- The contents that the press or the core store holds for a segment: the home's bytes, with their past (R217). -/
def State.pressBytes (s : State) : Seg → State × List Byte
  | .glob pa n => (s.noteFill (dieOfCore s.cur.core) (lineOf pa), (List.range n).map fun i => s.homeByte (pa + i))
  | .scr wg off n => (s, Memory.readBytes (s.scratchOf wg) off n)
  | .mmio pa n => s.mmioRead pa n
  | .reg off n => (s, s.cur.windowBytes off n)
  | .lost n => (s, List.replicate n 0#8)

/-- The press or the core store takes the new bytes of a segment (R219, R230). The issuing cane's counters hold the
write until it is acknowledged: an atomic's in all three (R212), a RED's (red) not in WCNT (R232); and its core's L1 has
it (R206). -/
def State.pressStore (s : State) (signal red : Bool) (bytes : List Byte) : Seg → State
  | .glob pa _ =>
    let c := s.cur
    let w := s.wgOf c
    let held := (s.l1Copy c.core w.terrace (lineOf pa)).isSome
    (s.storeL1 c.core pa bytes).pressWrite (dieOfCore c.core) w.terrace (some c.id) w.parcel signal
      (!held && !red) pa bytes []
  | .scr wg off _ =>
    let s := s.writeScratch wg off bytes
    if signal then s.monitorWake (dieOfCore s.cur.core) (.scratch wg off) bytes.length else s
  | .mmio pa _ => s.mmioWrite pa bytes
  | _ => s

/-- R217, R219: the home of a segment has applied what the issuing die's clock shows. -/
def State.pressReady (s : State) : Seg → Bool
  | .glob pa _ => s.clockCovered (dieOfCore s.cur.core) (s.homeDie pa)
  | _ => true

/-- R209: the press refuses a lane: an atomic remembers it, a RED leaves a deferred record. -/
def State.refuseLane (s : State) (x : AtomForm) (a : LaneAcc) : State :=
  if x.dest.isSome then s.updCur fun c => { c with stageArg := c.stageArg + 2 ^ a.lane }
  else s.deferred .poisonedData ⟨a.lane, .poisonedData, x.width, 3, a.addr / 32 * 32⟩

/-- One lane's operation is performed: D takes the prior value in the lanes of mk, and the new one joins
the hash (R366). -/
def State.performLane (s : State) (x : AtomForm) (mk : Mask) (a : LaneAcc) (g : Seg) : State :=
  let (s, old) := s.pressBytes g
  let o := leNat old
  let n := x.new a.lane o
  let s := s.pressStore x.signal x.dest.isNone (leBytes x.width n) g
  let s := (((s.noteStore false a.addr x.width).granted 1 g.unit (a.addr / 128 * 128)).hashStore a.addr n).updCur fun c =>
    { c with seen := match g with
               | .glob pa _ => joinClocks c.seen (s.pastOf (lineOf pa))
               | _ => c.seen }
  match x.dest with
  | some d => s.updCur fun c => c.setVal (x.width == 8) mk d.toNat fun _ => o
  | none => s

/-- R232, R368: the gate holds a lane's operation of a RED: the cane goes on, and its DCNT and HCNT hold the operation,
which is performed when the gate grants it (performHeld). -/
def State.holdRed (s : State) (x : AtomForm) (a : LaneAcc) (g : Seg) : State :=
  let c := s.cur
  let w := s.wgOf c
  let h : HeldRed :=
    { id := s.nextId, cane := c.id, die := dieOfCore c.core, core := c.core, terrace := w.terrace,
      root := (s.rootOf c).getD 0, parcel := w.parcel, linear := w.linear, idx := c.idx, unit := s.unitPlace g.unit,
      place := match g with | .scr wg off _ => .scratch wg off | .glob pa _ => .glob pa | g => g.unit,
      addr := a.addr, width := x.width, etype := x.etype, value := x.value a.lane, signal := x.signal,
      token := (s.winner c).token, origin := s.originOf ⟨a.lane, .poisonedData, x.width, 3, a.addr / 32 * 32⟩ }
  ((({ s with nextId := s.nextId + 1, heldReds := s.heldReds ++ [h] } : State).noteStore false a.addr x.width).hashItem
    (.red h.id a.addr)).updCur fun c => { c with dcnt := c.dcnt + 1, hcnt := c.hcnt + 1 }

/-- R223, R230: the lanes not yet performed, in ascending order; the instruction waits for the home of a
line, and continues at that lane. At a gate that does not open an atomic waits (it returns a result), and a RED leaves
its operation (R232, R368). -/
def State.atomLanes (x : AtomForm) (u : Bool) (mk : Mask) : State → List LaneAcc → State
  | s, [] => s
  | s, a :: as =>
    match a.segs with
    | [g] =>
      let s := s.updCur fun c => { c with stage := a.lane }
      let next (s : State) : State :=
        State.atomLanes x u mk (s.updCur fun c => { c with stage := a.lane + 1 }) as
      if s.segPoisoned .home g then next (s.refuseLane x a)
      else if !s.gatePasses 1 g.unit then
        if x.dest.isNone then next (s.holdRed x a g) else s.park (.gate 1 (s.unitPlace g.unit))
      else if !s.pressReady g then s.park (.press a.addr)
      else
        match g with
        | .lost _ => next (s.deferred .protection ⟨a.lane, .protection, x.width, 3, a.addr⟩)
        | _ => next (s.performLane x (if u then mk else 1#32 <<< a.lane) a g)
    | _ => State.atomLanes x u mk s as

/-- The end of an atomic or a RED: refused lanes trap (R209), an acquire takes effect (R231, R232), and the instruction
completes. -/
def State.atomEnd (s : State) (m : Marks) (x : AtomForm) (addr : Nat → Dword) (elems : List (List Nat))
    (far : Bool) (accs : List LaneAcc) : State :=
  let c := s.cur
  let acquires := c.ord == 1 || c.ord == 3
  if c.stageArg ≠ 0 then
    let bad := BitVec.ofNat 32 c.stageArg
    s.raiseLanes .poisonedData ((lanesOf bad).map fun l =>
      ⟨l, .poisonedData, x.width, 3, (addr l).toNat⟩)
  else if acquires && !s.acquirable c.scope c.seen then s.park (.press 0)
  else
    let s := if acquires then s.acquireL1 c.scope else s
    let s := s.chargeMem m.u c.active x.width elems accs
    ((s.updCur fun k =>
      { k with outstanding := k.outstanding + (if far && x.dest.isSome then 1 else 0) }).finish
        m).replaySettle

/-- R230, R231: the lanes that may access are performed once the releases before them hold. -/
def State.atomAll (m : Marks) (x : AtomForm) (addr : Nat → Dword) (elems : List (List Nat)) (far : Bool)
    (s : State) (accs : List LaneAcc) : State :=
  let mk := s.cur.active
  s.afterRelease (if x.signal && s.cur.stage == 0 then some s.cur.scope else none) fun s =>
    if s.cur.storeFull accs then s.park .storeRoom
    else
      let s := State.atomLanes x m.u mk s accs
      if s.cur.wait == .none then s.atomEnd m x addr elems far accs else s

/-! ## The instructions -/

/-- R201, R221, R410: the form of an atomic or RED access. -/
def atomForm (width : Nat) (host posted : Bool) (release : Option Nat) : MemForm :=
  { need := needRW, align := width, admits := sharedWindows, kind := 3, reads := true, writes := true,
    host := host, posted := posted, release := release, view := .home }

/-- An atomic or a RED: base and offset fields, the data registers, the types accepted, whether host
memory takes it, and the new value by type, lane and old value. -/
def State.atomic (s : State) (m : Marks) (accepts host : ElemType → Bool) (dest : Option (BitVec 7))
    (base : BitVec 7) (voff : BitVec 7) (data : List Nat) (parity : Bool × Cause)
    (new : Cane → ElemType → Nat → Nat → Nat) : Out :=
  let c := s.cur
  let mk := c.active
  let t := c.etype.getD .i32
  let w := memWidth c.is64
  let regs := addrRegs base ++ voffRegs voff
  let fields := dest.toList
  let x : AtomForm := ⟨dest, decide (2 ≤ c.ord), w, new c t, t, c.val c.is64 (data.headD 0)⟩
  let addr := s.addrAt base voff
  let far := (lanesFor m.u mk addr).any fun l => windowAt l.2 == some .global
  let elems := [regs ++ data]
  s.attemptReading (operandLanes m.u mk) (regs ++ data)
    [c.beyond (regs ++ data ++ fields.map (·.toNat)), c.badType accepts, c.badScope,
     oddField c.is64 fields, parity]
    (if mk = 0 then (s.chargeVec m.u mk elems).finish m
     else
       s.access m (atomForm w (host t) dest.isNone (if x.signal then some c.scope else none)) w false
         ((lanesFor m.u mk addr).filter fun l => decide (c.stage ≤ l.1))
         (State.atomAll m x addr elems far))

/-- An atomic of one data operand. -/
def State.atomOp (s : State) (m : Marks) (accepts host : ElemType → Bool) (d a b : BitVec 7)
    (f : ElemType → Nat → Nat → Nat) : Out :=
  let wide := s.cur.is64
  s.atomic m accepts host (some d) a 127#7 (if wide then [b.toNat, b.toNat + 1] else [b.toNat])
    (oddField wide [b]) fun c t l o => f t o (c.val wide b.toNat l)

/-- No host memory. -/
def noHost : ElemType → Bool := fun _ => false

/-- R229, R410: ATOM.ADD; a PCIe FetchAdd on host memory for integers. -/
def execAtomAdd (m : Marks) (d a b : BitVec 7) (s : State) : Out :=
  s.atomOp m atomSum atomInt d a b atomAddBits
/-- R229: ATOM.MIN. -/
def execAtomMin (m : Marks) (d a b : BitVec 7) (s : State) : Out :=
  s.atomOp m atomInt noHost d a b atomMinBits
/-- R229: ATOM.MAX. -/
def execAtomMax (m : Marks) (d a b : BitVec 7) (s : State) : Out :=
  s.atomOp m atomInt noHost d a b atomMaxBits
/-- R229: ATOM.AND. -/
def execAtomAnd (m : Marks) (d a b : BitVec 7) (s : State) : Out :=
  s.atomOp m atomInt noHost d a b fun _ o x => o &&& x
/-- R229: ATOM.OR. -/
def execAtomOr (m : Marks) (d a b : BitVec 7) (s : State) : Out :=
  s.atomOp m atomInt noHost d a b fun _ o x => o ||| x
/-- R229: ATOM.XOR. -/
def execAtomXor (m : Marks) (d a b : BitVec 7) (s : State) : Out :=
  s.atomOp m atomInt noHost d a b fun _ o x => o ^^^ x
/-- R229, R410: ATOM.XCHG; a PCIe Swap on host memory. -/
def execAtomXchg (m : Marks) (d a b : BitVec 7) (s : State) : Out :=
  s.atomOp m atomMove atomMove d a b fun _ _ x => x

/-- R229, R230, R410: ATOM.CAS: the comparand is at B and the new value behind it; a PCIe CAS on host
memory. -/
def execAtomCas (m : Marks) (d a : BitVec 7) (b : BitVec 6) (s : State) : Out :=
  let wide := s.cur.is64
  let n := 2 * b.toNat
  let step := if wide then 2 else 1
  s.atomic m atomMove atomMove (some d) a 127#7 ((List.range (2 * step)).map fun i => n + i)
    (wide && b.getLsbD 0, .illegalEncoding) fun c _ l o =>
      if o = c.val wide n l then c.val wide (n + step) l else o

/-- R232: RED. -/
def execRed (m : Marks) (d a b : BitVec 7) (s : State) : Out :=
  let wide := s.cur.is64
  s.atomic m atomSum noHost none d b (if wide then [a.toNat, a.toNat + 1] else [a.toNat])
    (oddField wide [a]) fun c t l o => atomAddBits t o (c.val wide a.toNat l)

end Sys2Proof.Machine
end

