-- ==== Sys2Proof/Machine/Digest.lean ====
section
/-! DEFINITION. The SM3 hash that R345, R413 and R415 name: the spec names the function and does not give it
(log entry 18). -/

namespace Sys2Proof.Machine

/-- The chaining value of SM3: eight words. -/
abbrev Sm3 : Type := Word × Word × Word × Word × Word × Word × Word × Word

/-- The initial chaining value. -/
def sm3Start : Sm3 :=
  (0x7380166F#32, 0x4914B2B9#32, 0x172442D7#32, 0xDA8A0600#32, 0xA96F30BC#32, 0x163138AA#32, 0xE38DEE4D#32,
    0xB0FB0E4E#32)

/-- The permutation of the compression. -/
def sm3P0 (x : Word) : Word := x ^^^ x.rotateLeft 9 ^^^ x.rotateLeft 17
/-- The permutation of the expansion. -/
def sm3P1 (x : Word) : Word := x ^^^ x.rotateLeft 15 ^^^ x.rotateLeft 23

/-- The expanded words of a block, newest first: n more. -/
def sm3Expand : Nat → List Word → List Word
  | 0, ws => ws
  | n + 1, ws =>
    let w (k : Nat) : Word := getI 0 ws (k - 1)
    sm3Expand n ((sm3P1 (w 16 ^^^ w 9 ^^^ (w 3).rotateLeft 15) ^^^ (w 13).rotateLeft 7 ^^^ w 6) :: ws)

/-- One round: its number, W and W′. -/
def sm3Round (v : Sm3) (j : Nat) (w w' : Word) : Sm3 :=
  let (a, b, c, d, e, f, g, h) := v
  let t : Word := if j < 16 then 0x79CC4519#32 else 0x7A879D8A#32
  let s1 := (a.rotateLeft 12 + e + t.rotateLeft (j % 32)).rotateLeft 7
  let s2 := s1 ^^^ a.rotateLeft 12
  let ff := if j < 16 then a ^^^ b ^^^ c else (a &&& b) ||| (a &&& c) ||| (b &&& c)
  let gg := if j < 16 then e ^^^ f ^^^ g else (e &&& f) ||| (~~~e &&& g)
  let t1 := ff + d + s2 + w'
  let t2 := gg + h + s1 + w
  (t1, a, b.rotateLeft 9, c, sm3P0 t2, e, f.rotateLeft 19, g)

/-- The compression of one block of 16 words. -/
def sm3Block (v : Sm3) (block : List Word) : Sm3 :=
  let ws := (sm3Expand 52 block.reverse).reverse
  let r := (List.range 64).foldl (fun x j =>
    sm3Round x j (getI 0 ws j) (getI 0 ws j ^^^ getI 0 ws (j + 4))) v
  let (a, b, c, d, e, f, g, h) := r
  let (a', b', c', d', e', f', g', h') := v
  (a ^^^ a', b ^^^ b', c ^^^ c', d ^^^ d', e ^^^ e', f ^^^ f', g ^^^ g', h ^^^ h')

/-- Four bytes as a word, first byte highest. -/
def beWord (bs : List Byte) (i : Nat) : Word :=
  BitVec.ofNat 32 (((List.range 4).foldl fun x k => 256 * x + (getI 0 bs (i + k)).toNat) 0)

/-- A number's n bytes, high byte first. -/
def beBytes (n x : Nat) : List Byte := (leBytes n x).reverse

/-- The SM3 digest of some bytes, first byte lowest. -/
def sm3 (bs : List Byte) : List Byte :=
  let n := bs.length
  let msg := bs ++ [0x80#8] ++ List.replicate ((119 - n % 64) % 64) 0#8 ++ beBytes 8 (8 * n)
  let (a, b, c, d, e, f, g, h) := (List.range (msg.length / 64)).foldl (fun v i =>
    sm3Block v ((List.range 16).map fun k => beWord msg (64 * i + 4 * k))) sm3Start
  [a, b, c, d, e, f, g, h].flatMap fun x => beBytes 4 x.toNat

end Sys2Proof.Machine
end

