-- ==== Sys2Proof/Machine/Fetch.lean ====
section
/-! DEFINITION. Fetching an instruction (R20 to R26): its parcels through the instruction cache and
both stages of translation, and what a cane waits for or traps with when it cannot. -/

namespace Sys2Proof.Machine

/-- What the fetch of one parcel gives. -/
inductive FetchedParcel where
  | ok (p : Sys2Proof.Parcel)
  /-- The instruction cache does not hold the block. -/
  | absent
  /-- The page's translation is not cached. -/
  | miss (va : Nat)
  /-- No execute permission, no code there (R25), or no path to it (R337). -/
  | refused
  /-- Its block is poisoned (R207). -/
  | poisoned
  deriving DecidableEq, Repr

/-- The block of the instruction cache that holds a physical address. -/
def Core.codeBlock (c : Core) (pa : Nat) : Option CodeBlock :=
  c.icache.find? fun b => b.addr == pa / 32 * 32

/-- R25: the physical address a cane fetches a byte from. Code is not fetched from the management
blocks (log entry 9). -/
def State.codeAddress (s : State) (c : Cane) (va : Nat) : Trans :=
  if 2 ^ 52 ≤ va then .deny
  else
    let w := s.wgOf c
    match s.translate c w.terrace w.vdev va needX with
    | .ok pa => if isMmio pa || absentPackage pa then .deny else .ok pa
    | t => t

/-- R20, R25, R26, R337: the parcel at a byte address. -/
def State.fetchParcel (s : State) (c : Cane) (va : Nat) : FetchedParcel :=
  match s.codeAddress c va with
  | .deny => .refused
  | .miss => .miss va
  | .ok pa =>
    match (s.core c.core).codeBlock pa with
    | none =>
      let d := dieOfCore c.core
      if s.pathTo (s.wgOf c).terrace d pa == .arrives || s.heldAt d pa 32 then .absent else .refused
    | some b => if b.bad then .poisoned else .ok (getI 0 b.bytes (pa % 32 + 1) ++ getI 0 b.bytes (pa % 32))

/-- R20: the parcels of the instruction that begins with this one. -/
def parcelCount (p : Sys2Proof.Parcel) : Nat :=
  if isDictCode p then 1 else if isImmx p then 4 else 2

/-- The fetch of n parcels from a byte address upward: the parcels, or the first that stops it. The byte address 2·PC of a
PC with bit 63 set, which an entry or a stack can hold, is taken modulo 2^64: R20 gives no wrap (DESIGN CHOICE, log entry
73). -/
def State.fetchParcels (s : State) (c : Cane) (va : Nat) :
    Nat → Except FetchedParcel (List Sys2Proof.Parcel)
  | 0 => .ok []
  | n + 1 =>
    match s.fetchParcel c (va % 2 ^ 64) with
    | .ok p =>
      match s.fetchParcels c (va + 2) n with
      | .ok ps => .ok (p :: ps)
      | .error e => .error e
    | e => .error e

/-- The parcels of the instruction at a cane's PC. -/
def State.fetchInstr (s : State) (c : Cane) : Except FetchedParcel (List Sys2Proof.Parcel) :=
  let va := 2 * c.pc.toNat
  match s.fetchParcels c va 1 with
  | .ok [p] => s.fetchParcels c va (parcelCount p)
  | .ok _ => .error .refused
  | .error e => .error e

/-- T of an instruction's parcels (R29): bit 22 of a word, of the word after an immx, or bit 10 of a
dictionary code. -/
def stopBit : List Sys2Proof.Parcel → Bool
  | [p] => p.getLsbD 10
  | [p, _] => p.getLsbD 6
  | [_, _, p, _] => p.getLsbD 6
  | _ => false

/-- R324, R354: the µTLB serves the pages of n parcels of the issuing cane's code. -/
def State.touchCode (s : State) (n : Nat) : State :=
  let c := s.cur
  let w := s.wgOf c
  (List.range n).foldl (fun s k => s.touchTlb c.core w.terrace w.vdev ((2 * c.pc.toNat + 2 * k) % 2 ^ 64)) s

/-- The instruction at a cane's PC is set up to issue. -/
def State.setIssue (s : State) (ps : List Sys2Proof.Parcel) : State :=
  { s with iss := ⟨s.cur.pc, ps.length, none, stopBit ps⟩ }

/-- The cause of a decode error (R52). -/
def decodeCause : DecodeError → Cause
  | .illegalOpcode => .illegalOpcode
  | .illegalEncoding => .illegalEncoding
  | .truncated => .illegalEncoding

/-- What the fetch of the issuing cane comes to: an instruction set up to issue, or the state in which it
waits or has trapped (R25, R52). Code in a poisoned block traps POISONED_DATA as a read of it does, and code to which no
path arrives PROTECTION (DESIGN CHOICE, log entry 76: R207 and R337 do not name fetches). A refused fetch names the length that the first parcel gives (R124); where that parcel
itself is refused the length is unknown, and SYS.ESTAT.LEN is that of one parcel (DESIGN CHOICE, log entry 61). -/
def State.fetch (s : State) : Option Instr × State :=
  match s.fetchInstr s.cur with
  | .ok ps =>
    let s := (s.touchCode ps.length).setIssue ps
    match decodeParcels ps with
    | .ok (i, _) => (some i, s)
    | .error e => (none, s.raise (decodeCause e))
  | .error .absent =>
    (none, if s.outboundRoom s.cur.core 1 then (s.beats s.cur.core 1).updCur fun c => { c with wait := .fetch }
      else s.updCur fun c => { c with wait := .fifo })
  | .error (.miss va) =>
    let w := s.wgOf s.cur
    (none, s.awaitTranslation w.terrace w.vdev va needX)
  | .error e =>
    let n := match s.fetchParcel s.cur (2 * s.cur.pc.toNat % 2 ^ 64) with
      | .ok p => parcelCount p
      | _ => 1
    (none, ({ s with iss := ⟨s.cur.pc, n, none, false⟩ } : State).raise (if e = .poisoned then .poisonedData else .protection))

/-- R26: a block of code read from a die into a core's instruction cache, which gives up no block by itself (DESIGN
CHOICE, log entry 62). -/
def State.loadBlock (s : State) (core pa : Nat) : State :=
  let c := s.core core
  let a := pa / 32 * 32
  if c.icache.any fun b => b.addr == a then s
  else s.setCore core { c with icache := ⟨a, s.dieBytes (dieOfCore core) a 32, s.diePoison (dieOfCore core) (a / 32)⟩ :: c.icache }

/-- R25: the blocks that the instruction at a cane's PC needs arrive. -/
def State.loadCode (s : State) (c : Cane) : State :=
  [0, 1, 2, 3].foldl (fun s i =>
    match s.codeAddress c ((2 * c.pc.toNat + 2 * i) % 2 ^ 64) with
    | .ok pa => s.loadBlock c.core pa
    | _ => s) s

end Sys2Proof.Machine
end

