-- ==== Sys2Proof/Machine/Rings.lean ====
section
/-! DEFINITION. WAIT.ADDR (R233, R234) and the ring instructions (R235 to R241). -/

namespace Sys2Proof.Machine

/-! ## WAIT.ADDR (R220, R233, R234) -/

/-- R201, R221: the form of a wait or ring access of a size. -/
def waitForm (size : Nat) (need : Need) : MemForm :=
  { need := need, align := size, admits := sharedWindows, kind := 8, reads := true, writes := true,
    host := true, posted := false, view := .home }

/-- WAIT.ADDR ends with a result in the active lanes of p[D]. -/
def State.endWait (s : State) (m : Marks) (d : BitVec 3) (r : Nat) : State :=
  let mk := s.cur.active
  (((s.unmonitor fun c => c == s.cur.id).updCur fun c =>
    c.setP mk d.toNat (if r = 1 then 0xFFFFFFFF#32 else 0)).finishOnce m).replaySettle

/-- An exit-grade request is pending on a workgroup (R314). -/
def Workgroup.exiting (w : Workgroup) : Bool := w.request.any fun r => r.exitGrade

/-- R220: the monitor table of a die can take a wait on a word. -/
def Die.monitorRoom (d : Die) (p : Place) : Bool :=
  (d.monitor.any fun e => e.word == p) || decide (d.monitor.length < 256)

/-- R220: a cane enters the monitor table; the waits on one word share an entry. -/
def Die.enterMonitor (d : Die) (p : Place) (cane : Nat) : Die :=
  if d.monitor.any fun e => e.word == p then
    { d with monitor := d.monitor.map fun e =>
        if e.word = p then { e with canes := e.canes ++ [cane] } else e }
  else { d with monitor := d.monitor ++ [⟨p, [cane]⟩] }

/-- R233: the issuing cane waits on a word, unless the wait ends at once; t is its timeout in cycles. -/
def State.beginWait (m : Marks) (d : BitVec 3) (t : Option Nat) (s : State) (accs : List LaneAcc) : State :=
  let c := s.cur
  let k := dieOfCore c.core
  let va := (accs.head?.map (·.addr)).getD 0
  match accs.head?.bind (·.segs.head?) with
  | none => s.finishOnce m
  | some g =>
    let word := (Seg.word g).getD (.glob (match g with | .mmio pa _ => pa | _ => 0))
    if c.watch.word = some word ∧ c.watch.hit then s.endWait m d 1
    else if t = some 0 || (s.wgOf c).exiting || !(s.die k).monitorRoom word then s.endWait m d 0
    else
      ((s.setDie k ((s.die k).enterMonitor word c.id)).updCur fun c => { c with stageArg := va }).park
        (.waitAddr word (t.map fun n => ((s.wgOf c).pause.map (·.2)).getD (s.cycleOf c.core) + n))

/-- R233: WAIT.ADDR. It forms one address whatever U says (R222), and an exit routine may not use it
(R317). -/
def execWaitAddr (m : Marks) (d : BitVec 3) (a b : BitVec 7) (s : State) : Out :=
  let c := s.cur
  let mk := c.active
  let l := firstLane mk
  let regs := addrRegs a ++ voffRegs b
  let t := if b = 127#7 then none else some (c.V b.toNat l).toNat
  s.attemptReading (operandLanes true mk) regs [c.beyond regs, (c.routine == .exit, .illegalEncoding)]
    (if mk = 0 then s.finishOnce m
     else match c.answer with
      | some r => s.endWait m d r
      | none =>
        (s.parksAs 7).access m (waitForm 8 needR) 8 false [(l, (s.addrOnly a l).toNat)] (State.beginWait m d t))

/-- R359: a cane of a workgroup is debug-parked, which pauses its exit bound and its timeouts. -/
def State.debugHeld (s : State) (wg : Nat) : Bool := (s.canesOf wg).any fun c => c.wait == .debug

/-- R233, R359: the timeout of a parked WAIT.ADDR is still running. -/
def State.timeoutDue (s : State) (cane : Nat) : Option (Cane × Nat) :=
  (s.findCane cane).bind fun c =>
    match c.wait with
    | .waitAddr _ (some dl) => if s.debugHeld c.wg then none else some (c, dl)
    | _ => none

/-- R233: WAIT_ADDR_TIMEOUT: the cluster's clock reaches the end of the timeout, and the wait ends with
0. -/
def execWaitAddrTimeout (cane : Nat) (s : State) : Out :=
  match s.timeoutDue cane with
  | none => .next s
  | some (c, dl) =>
    let k := clusterOfCore c.core
    let s := (s.passCycles k (dl - s.cycleOf c.core)).unmonitor fun x => x == cane
    .next (s.updCane cane fun c => { c with wait := .none, answer := some 0 })

/-! ## Ring headers and slots (R235, R236, R241) -/

/-- R235: a header, or none where it breaks the table; at is its own address. FIFO rings keep their header
in scratch (R241). A slot base that is not aligned to 128, or lies in another window than the header, breaks the table
too, though R235's list of traps does not name it (DESIGN CHOICE, log entry 70). -/
def ringHead (at_ : Nat) (bs : List Byte) : Option RingHead :=
  let flags := leField bs 8 1
  let h : RingHead :=
    { order := leField bs 4 1, width := leField bs 5 1, wide := leField bs 6 1 == 1,
      scope := leField bs 7 1, fifo := flags.testBit 0, closed := flags.testBit 1,
      base := leField bs 16 8, head := leField bs 24 8, tail := leField bs 32 8 }
  let ok := leField bs 0 4 == 0x474E4952 && decide (1 ≤ h.order) && decide (h.order ≤ 12)
    && decide (1 ≤ h.width) && decide (h.width ≤ 8) && decide (leField bs 6 1 ≤ 1)
    && decide (1 ≤ h.scope) && decide (h.scope ≤ 5) && decide (flags < 4)
    && leField bs 9 7 == 0 && leField bs 48 16 == 0
  let placed :=
    if h.fifo then decide (h.base < 64) && h.scope == 1 && windowAt at_ == some .scratch
    else h.base % 128 == 0 && windowAt h.base == windowAt at_
  if ok && placed then some h else none

/-- R235: 1 or 32 lanes per slot. -/
def RingHead.lanes (h : RingHead) : Nat := if h.wide then 32 else 1
/-- R235: the bytes from slot to slot. -/
def RingHead.stride (h : RingHead) : Nat := 128 * ((16 + 4 * h.width * h.lanes + 127) / 128)
/-- R235: the bytes of a slot that hold its head and its payload. -/
def RingHead.used (h : RingHead) : Nat := if h.wide then 128 * (h.width + 1) else 16 + 4 * h.width
/-- The bytes of all slots. -/
def RingHead.size (h : RingHead) : Nat := 2 ^ h.order * h.stride

/-- A slot's generic address. -/
def SlotAt.va : SlotAt → Nat
  | .mem va _ => va
  | .fifo off => off

/-- The place of a segment. -/
def Seg.place : Seg → Place
  | .glob pa _ => .glob pa
  | .scr wg off _ => .scratch wg off
  | .mmio pa _ => .glob pa
  | .reg off _ => .glob off
  | .lost _ => .glob 0

/-- R241: the run of FIFO banks holds the ring. -/
def RingHead.fifoOk (h : RingHead) (k : Core) : Bool :=
  let n := (h.size + 32767) / 32768
  decide (h.base + n ≤ 48) && (List.range n).all fun i => getI 0 k.roles (h.base + i) == 3

/-- The slot of a count of claims (R236, R241). -/
def State.slotAt (s : State) (h : RingHead) (n : Nat) : SlotAt :=
  let off := n % 2 ^ h.order * h.stride
  if h.fifo then .fifo (32768 * h.base + off)
  else
    match s.laneTranslate s.cur (waitForm 1 needRW) (h.base + off) h.stride with
    | .ok gs => .mem (h.base + off) gs
    | _ => .mem (h.base + off) []

/-- The place of a slot's first bytes, which signalled writes name. -/
def State.slotPlace (s : State) : SlotAt → Place
  | .fifo off => .fifo s.cur.core off
  | .mem _ gs => ((gs.head?).map Seg.place).getD (.fifo s.cur.core 0)

/-- The first n bytes of a slot, read at the die's L2, in scratch or in the FIFO banks. -/
def State.slotRead (s : State) (n : Nat) : SlotAt → State × List Byte
  | .fifo off => (s, Memory.readBytes (s.core s.cur.core).fifo off n)
  | .mem _ gs => s.readSegs true (sliceSegs 0 n gs)

/-- Bytes o and on of a slot written by the issuing cane. A poisoned granule of the FIFO banks that is written in part has
its record of R208, which names it by its offset in the banks (DESIGN CHOICE, log entry 76). -/
def State.slotWrite (s : State) (signalled : Bool) (o : Nat) (bytes : List Byte) : SlotAt → State
  | .fifo off =>
    let i := s.cur.core
    let k := s.core i
    let bad := partialGranules k.fifoPoison (off + o) bytes.length
    let s := s.setCore i { k with fifo := Memory.writeBytes k.fifo (off + o) bytes,
                                  fifoPoison := k.fifoPoison.filter fun g => !fills (off + o) bytes.length g }
    let s := if signalled then s.monitorWake (dieOfCore i) (.fifo i (off + o)) bytes.length else s
    bad.foldl (fun s g => s.deferred .poisonedData
      ⟨firstLane s.cur.active, .poisonedData, bytes.length, 8, 32 * g⟩) s
  | .mem va gs =>
    (s.noteStore false (va + o) bytes.length).writeSegs (waitForm 1 needRW) signalled
      (firstLane s.cur.active) bytes.length (va + o) bytes (sliceSegs o bytes.length gs)

/-- R207, R209: the first n bytes of a slot are poisoned. -/
def State.slotPoisoned (s : State) (n : Nat) : SlotAt → Bool
  | .fifo off => (s.core s.cur.core).fifoPoison.any (touches off n)
  | .mem _ gs => (sliceSegs 0 n gs).any (s.segPoisoned .l2)

/-- R358: a watchpoint matches the slot. -/
def State.slotWatched (s : State) (h : RingHead) : SlotAt → Bool
  | .fifo _ => false
  | .mem va _ => s.watched s.cur true true va h.stride

/-- R198: a FIFO slot is claimed or FULL, or is so no longer. -/
def State.slotBusy (s : State) (h : RingHead) (busy : Bool) : SlotAt → State
  | .mem _ _ => s
  | .fifo off =>
    let k := s.core s.cur.core
    let rest := k.slots.filter fun x => x.1 != off
    s.setCore s.cur.core { k with slots := if busy then (off, h.stride) :: rest else rest }

/-! ## The ring instructions -/

/-- R235, R237: the header at the issuing cane's ring address is read at the press, once its home has applied what the die
shows (R219), and checked, then every slot page is translated; the registers reg to reg + width + extra − 1 must exist. An
instruction that has changed the ring goes on with what it has found, and no check or translation of it is made again
(R240). One that is a release (rel) is so at the ring's scope (R329), and at dom where its header cannot be accessed
(DESIGN CHOICE, log entry 70). -/
def State.withRing (s : State) (m : Marks) (a : BitVec 7) (reg extra : Nat) (rel : Bool)
    (effect : Nat → RingHead → Seg → State → State) (rest : RingClaim → State → State) : State :=
  let c := s.cur
  let l := firstLane c.active
  let va := (s.addrOnly a l).toNat
  match c.claim with
  | some k => rest k s
  | none =>
  s.access m { waitForm 64 needRW with release := if rel then some 5 else none } 64 true [(l, va)] fun s accs =>
    match accs.head?.bind (·.segs.head?) with
    | none => s.finishOnce m
    | some g =>
      if !s.pressReady g then s.park (.press 0)
      else
      let (s, bs) := s.pressBytes g
      match ringHead va bs with
      | none => s.raise .illegalEncoding
      | some h =>
        if decide (128 < reg + h.width + extra) || decide (c.nreg < reg + h.width + extra)
            || (h.fifo && !h.fifoOk (s.core c.core)) then
          s.raise .illegalEncoding
        else if h.fifo then effect va h g s
        else
          s.access m { waitForm 1 needRW with reads := false, writes := false, leaves := false,
                                              release := if rel then some h.scope else none } h.size false
            [(l, h.base)] fun s accs => if accs = [] then s
              else if windowAt h.base = some .global then s.enter (h.stride / 128 + 3) (effect va h g) else effect va h g s

/-- R219: an 8-byte count of a header becomes a value at the press. -/
def State.ringCount (s : State) (g : Seg) (field v : Nat) : State :=
  s.pressStore false false (leBytes 8 (v % 2 ^ 64)) (g.cut field 8)

/-- The decode checks and the waits that the ring instructions share: m is 0, the exit routine (R317),
and the registers read. -/
def State.ringAttempt (s : State) (m : Marks) (regs fields : List Nat) (effect : State) : Out :=
  let c := s.cur
  s.attemptReading (operandLanes true c.active) regs [c.beyond (regs ++ fields), (c.routine == .exit, .illegalEncoding)]
    (if c.active = 0 then s.finishOnce m else effect)

/-- R237: the payload of a RING.PUT behind its head. -/
def Cane.ringPayload (c : Cane) (h : RingHead) (mk : Mask) (reg : Nat) : List Byte :=
  if h.wide then
    List.replicate 112 0#8 ++ (List.range h.width).flatMap fun w =>
      lanes.flatMap fun l => if mk.getLsbD l then leBytes 4 (c.V (reg + w) l).toNat else leBytes 4 0
  else (List.range h.width).flatMap fun w => leBytes 4 (c.V (reg + w) (firstLane mk)).toNat

/-- R236: the head of a slot. -/
def slotHead (status role mask seq : Nat) : List Byte :=
  leBytes 1 status ++ leBytes 1 0 ++ leBytes 2 role ++ leBytes 4 mask ++ leBytes 8 seq

/-- R237: the lanes whose payload a RING.PUT writes. -/
def RingHead.putMask (h : RingHead) (mk : Mask) : Mask := if h.wide then mk else 1#32 <<< firstLane mk

/-- R237, R240: a claimed slot is filled and marked FULL by a signalled write; a poisoned payload register
makes it POISON, and the instruction then traps. -/
def State.ringFill (m : Marks) (reg : Nat) (k : RingClaim) (s : State) : State :=
  let c := s.cur
  let h := k.head
  let n := k.n
  let p := k.slot
  let mk := h.putMask c.active
  let regs := (List.range h.width).map fun i => reg + i
  let role := (s.wgOf c).linear % 65536
  s.afterRelease (some h.scope) fun s =>
    if decide (1000 < c.hcnt) then s.park .storeRoom
    else match s.cur.poisonedRow mk regs with
      | some r =>
        let s := s.slotWrite false 0 (slotHead 0 role mk.toNat n) p
        (s.slotWrite true 0 [2#8] p).raisePoisonedRow mk r
      | none =>
        let s := s.slotWrite false 0 (slotHead 0 role mk.toNat n ++ c.ringPayload h mk reg) p
        (s.slotWrite true 0 [1#8] p).finishOnce m

/-- The issuing cane has changed a ring: it goes on with what it has found (R240). -/
def State.claims (s : State) (k : RingClaim) : State := s.updCur fun c => { c with stage := 1, claim := some k }

/-- R237: RING.PUT tests CLOSED once, claims the slot that head names, once an earlier FENCE release allows it (R228), then
fills it. -/
def State.ringPut (m : Marks) (reg _va : Nat) (h : RingHead) (g : Seg) (s : State) : State :=
  let c := s.cur
  if h.closed && c.stageArg == 0 then s.raise .illegalEncoding
  else
    let s := s.updCur fun c => { c with stageArg := 1 }
    let p := s.slotAt h h.head
    if s.slotWatched h p then (s.charge 0 1 0).debugPark 2 .watchpoint p.va
    else if s.slotPoisoned 16 p then
      s.raiseLanes .poisonedData [⟨firstLane c.active, .poisonedData, h.stride, 8, p.va⟩]
    else
      let (s, bs) := s.slotRead 16 p
      if leField bs 0 1 ≠ 0 then s.park (.ring (s.slotPlace p) (s.slotPlace p))
      else if !s.pressReady g then s.park (.press 0)
      else s.afterRelease none fun s =>
        let k : RingClaim := ⟨h, g, h.head, p⟩
        (((s.ringCount g 24 (h.head + 1)).slotBusy h true p).claims k).ringFill m reg k

/-- R237: RING.PUT. -/
def execRingPut (m : Marks) (d a : BitVec 7) (s : State) : Out :=
  s.ringAttempt m (addrRegs d) [a.toNat]
    ((s.parksAs 7).withRing m d a.toNat 0 true (State.ringPut m a.toNat) (State.ringFill m a.toNat))

/-- R238: the registers and the predicate of a RING.ACQ in the active lanes. -/
def Cane.ringResult (c : Cane) (reg : Nat) (b : BitVec 3) (r : Nat) (vals : List (Nat × (Nat → Word))) : Cane :=
  let mk := c.active
  (vals.foldl (fun c x => c.setV mk (reg + x.1) x.2) c).setP mk b.toNat
    (if r = 1 then 0xFFFFFFFF#32 else 0)

/-- R238: the payload registers that a slot gives. -/
def ringValues (h : RingHead) (bs : List Byte) : List (Nat × (Nat → Word)) :=
  (List.range h.width).map fun w => (w, fun l =>
    BitVec.ofNat 32 (leField bs (if h.wide then 128 * (w + 1) + 4 * l else 16 + 4 * w) 4))

/-- R238: a claimed slot is acquired, read and marked CLAIMED. -/
def State.ringTake (m : Marks) (reg : Nat) (b : BitVec 3) (k : RingClaim) (s : State) : State :=
  let h := k.head
  let p := k.slot
  let past := match p with
    | .mem _ gs => (sliceSegs 0 16 gs).foldl (fun x g =>
        joinClocks x (s.segPast (dieOfCore s.cur.core) g)) []
    | .fifo _ => []
  if !s.acquirable h.scope past then s.park (.press 0)
  else if decide (1000 < s.cur.hcnt) then s.park .storeRoom
  else
    let s := s.acquireL1 h.scope
    let (s, bs) := s.slotRead h.stride p
    let seq := (h.width, fun (_ : Nat) => BitVec.ofNat 32 (leField bs 8 4))
    let s := s.updCur fun c =>
      if leField bs 0 1 = 1 then c.ringResult reg b 1 (ringValues h bs ++ [seq])
      else c.ringResult reg b 0 [(0, fun _ => BitVec.ofNat 32 (leField bs 2 2)), seq]
    let s := s.slotWrite false 0 [3#8] p
    let far := match p with | .mem _ gs => gs.any Seg.remote | .fifo _ => false
    ((s.updCur fun c => { c with outstanding := c.outstanding + (if far then 1 else 0),
                                 seen := joinClocks c.seen past }).finishOnce m).replaySettle

/-- R238: RING.ACQ claims the oldest unclaimed slot, once an earlier FENCE release allows it (R228). -/
def State.ringAcq (m : Marks) (reg : Nat) (b : BitVec 3) (va : Nat) (h : RingHead) (g : Seg) (s : State) : State :=
  if h.closed && h.tail == h.head then
    let ones := fun (_ : Nat) => 0xFFFFFFFF#32
    (s.updCur fun c => c.ringResult reg b 0 [(0, ones), (h.width, ones)]).finishOnce m
  else
    let p := s.slotAt h h.tail
    if s.slotWatched h p then (s.charge 0 1 0).debugPark 2 .watchpoint p.va
    else if s.slotPoisoned 16 p || (leField (s.slotRead 16 p).2 0 1 == 1 && s.slotPoisoned h.used p) then
      s.raiseLanes .poisonedData [⟨firstLane s.cur.active, .poisonedData, h.stride, 8, p.va⟩]
    else
      let (s, bs) := s.slotRead 16 p
      let full := leField bs 0 1 == 1 || leField bs 0 1 == 2
      if !full || leField bs 8 8 != h.tail then s.park (.ring (s.slotPlace p) g.place)
      else if !s.pressReady g then s.park (.press 0)
      else if !s.gatePasses 3 g.place then s.park (.gate 3 (s.unitPlace g.place))
      else s.afterRelease none fun s =>
        let k : RingClaim := ⟨h, g, h.tail, p⟩
        (((s.ringCount g 32 (h.tail + 1)).granted 3 g.place va).claims k).ringTake m reg b k

/-- R238: RING.ACQ. -/
def execRingAcq (m : Marks) (d a : BitVec 7) (b : BitVec 3) (s : State) : Out :=
  s.ringAttempt m (addrRegs a) [d.toNat]
    ((s.parksAs 7).withRing m a d.toNat 1 false (State.ringAcq m d.toNat b) (State.ringTake m d.toNat b))

/-- R239: released advances at the press. -/
def State.ringReleased (m : Marks) (k : RingClaim) (s : State) : State :=
  if !s.pressReady k.hdr then s.park (.press 0)
  else
    let (s, bs) := s.pressBytes (k.hdr.cut 40 8)
    (s.ringCount k.hdr 40 (leNat bs + 1)).finishOnce m

/-- R239: RING.REL frees the slot of a sequence: its status becomes EMPTY as a signalled write, and
released advances at the press. -/
def State.ringRel (m : Marks) (q _va : Nat) (h : RingHead) (g : Seg) (s : State) : State :=
  let p := s.slotAt h q
  if s.slotWatched h p then (s.charge 0 1 0).debugPark 2 .watchpoint p.va
  else if s.slotPoisoned 16 p then
    s.raiseLanes .poisonedData [⟨firstLane s.cur.active, .poisonedData, h.stride, 8, p.va⟩]
  else
    let (s, bs) := s.slotRead 16 p
    if leField bs 0 1 ≠ 3 || leField bs 8 4 ≠ q then s.raise .illegalEncoding
    else s.afterRelease (some h.scope) fun s =>
      let k : RingClaim := ⟨h, g, q, p⟩
      (((s.slotWrite true 0 [0#8] p).slotBusy h false p).claims k).ringReleased m k

/-- R239: RING.REL. -/
def execRingRel (m : Marks) (d a : BitVec 7) (s : State) : Out :=
  let q := (s.cur.V d.toNat (firstLane s.cur.active)).toNat
  s.ringAttempt m (d.toNat :: addrRegs a) [] ((s.parksAs 7).withRing m a 0 0 true (State.ringRel m q) (State.ringReleased m))

end Sys2Proof.Machine
end

