-- ==== Sys2Proof/Machine/Flights.lean ====
section
/-! DEFINITION. The device's own events of the memory system and of issue: results, writes on their way
(R217, R218, R411), page walks and translation answers (R324, R325), code (R25), soft errors (R207),
and the choice of canes (R150 to R152). -/

namespace Sys2Proof.Machine

/-- An event that names one of n units: a fault when the package has no such unit. -/
def State.unitEvent (s : State) (i n : Nat) (may : Bool) (effect : State) : Out :=
  if i < n then .next (if may then effect else s) else .fault .noSuchUnit

/-! ## Results (R28) -/

/-- R28: an outstanding result of a cane has returned. -/
def Cane.resultBack (c : Cane) : Cane :=
  ({ c with outstanding := c.outstanding - 1, outPower := min c.outPower (c.outstanding - 1) } : Cane).poke

/-- R28, R212: a result of a cane returns, through the inbound FIFO; an arrival of the cane waits for it no more. -/
def State.returnResult (s : State) (c : Cane) : State :=
  let s := (s.inboundBeats c.core 1).updCane c.id Cane.resultBack
  { s with pendingArrivals := s.pendingArrivals.map fun a =>
      if a.cane = c.id then { a with loads := a.loads - 1 } else a }

/-- R28: RESULT_RETURN: an outstanding result of a cane returns: results return in the order of their issue, but a
memory result comes first where both kinds are due (the spec states no order among them: DESIGN CHOICE, log entry
26, seen only in R352's leaves and in what an arrival waits for). A full inbound FIFO holds it back (R377). -/
def execResultReturn (cane : Nat) (s : State) : Out :=
  .next (match s.findCane cane with
    | some c => if c.outstanding = 0 || !s.inboundRoom c.core 1 then s else s.returnResult c
    | none => s)

/-! ## Writes on their way (R217, R218) -/

/-- The flight of a name. -/
def State.flight (s : State) (n : Nat) : Option Flight := s.flights.find? fun f => f.id == n
/-- A flight changed; one with nothing left to do is dropped. -/
def State.updFlight (s : State) (n : Nat) (f : Flight → Flight) : State :=
  { s with flights := (s.flights.map fun x => if x.id == n then f x else x).filter fun x =>
      !(x.acked && x.todo.isEmpty) }

/-- What waits for the order between dies may look again (R217). -/
def State.wakePress (s : State) : State :=
  s.mapCanes fun c => match c.wait with | .press _ => { c with wait := .none } | _ => c

/-- R217, R411: the home may apply a write now: its clock shows the write's past, and the same die's
earlier writes to this home are applied. -/
def State.homeDue (s : State) (f : Flight) : Bool :=
  let o := s.homeDie f.addr
  f.seq.isNone && s.reaches f.terrace f.die o && clockAdmits (s.die o).clock f.stamp (dieNumber f.die)
    && s.flights.all fun g => !(decide (g.id < f.id) && g.die == f.die && g.seq.isNone
      && s.homeDie g.addr == o)

/-- R208: a level that takes a write merges it into granules of some that are poisoned there: each that the write does not
fill whole has one deferred record of the store's lane. -/
def State.mergeRecords (s : State) (f : Flight) (poisoned : List Nat) : State :=
  match (s.flight f.id).bind (·.origin) with
  | none => s
  | some o =>
    let new := (partialGranules poisoned f.addr f.bytes.length).filter fun g => !o.noted.contains g
    let s := s.updFlight f.id fun x => { x with origin := some { o with noted := new ++ o.noted } }
    new.foldl (fun s g => s.deferredOf .poisonedData f.terrace f.parcel
      { o with addr := o.addr / 65536 * 65536 + 32 * g % 65536 }) s

/-- The poisoned granules of a die's copy of a line. -/
def State.copyPoison (s : State) (d line : Nat) : List Nat :=
  ((findL2 (s.die d).l2 line).map fun l => l.poison.map fun g => 4 * line + g).getD []

/-- R237, R294: what waits at a slot that a write reaches looks at it again: a slot is read at its home or its die, and the
wake of its die may come before the home has the write. -/
def Cane.slotWritten (c : Cane) (p : Place) (n : Nat) : Cane :=
  match c.wait with
  | .ring slot hdr => if p.overlaps n slot 128 || p.overlaps n hdr 64 then { c with wait := .none } else c
  | _ => c

/-- R217, R218, R220: the home applies a write and numbers it; another owner die receives it and looks
it up, and the rest of the dies have it to apply. -/
def State.homeApply (s : State) (f : Flight) : State :=
  let line := lineOf f.addr
  let o := s.homeDie f.addr
  let s := s.mergeRecords f (s.poison ++ if o = f.die then [] else s.copyPoison o line)
  let s := s.homeTake f.terrace f.addr f.bytes f.bad f.stamp
  let n := s.seqOf line
  let s :=
    if o = f.die then s
    else
      let s := s.receive o f.addr n f.bytes f.bad
      let od := s.die o
      let s := s.setDie o { od with clock := clockJoin od.clock f.stamp (dieNumber f.die) }
      if f.signalled && !isHost f.addr then s.monitorWake o (.glob f.addr) f.bytes.length else s
  (s.updFlight f.id fun x => { x with seq := some n, todo := otherDies f.leaves [f.die, o] }).wakePress.mapCanes
    fun c => c.slotWritten (.glob f.addr) f.bytes.length

/-- R217: HOME_WRITE_APPLY. -/
def execHomeWriteApply (n : Nat) (s : State) : Out :=
  match s.flight n with
  | some f => .next (if s.homeDue f then s.homeApply f else s)
  | none => .next s

/-- R217: a die may apply a received write, its stamp beat or, outside the rectangle, its count alone (log entry 65). -/
def State.remoteDue (s : State) (f : Flight) (d : Nat) : Bool :=
  f.seq.isSome && f.todo.contains d
    && (!s.inRectangle f.terrace d || s.reaches f.terrace (s.homeDie f.addr) d)
    && clockAdmits (s.die d).clock f.stamp (dieNumber f.die)

/-- R217, R218, R220: a die of the rectangle takes a received write. -/
def State.remoteTake (s : State) (f : Flight) (d : Nat) : State :=
  let s := s.mergeRecords f (s.copyPoison d (lineOf f.addr))
  let s := s.receive d f.addr (f.seq.getD 0) f.bytes f.bad
  if f.signalled && !isHost f.addr then s.monitorWake d (.glob f.addr) f.bytes.length else s

/-- R284: the writes of the press update of which a write is a part, in their order. -/
def State.partsOf (s : State) (f : Flight) : List Flight := s.flights.filter fun g => g.whole == f.whole

/-- R217: a die applies one write or its count. -/
def State.remoteOne (s : State) (d : Nat) (f : Flight) : State :=
  let s := if s.inRectangle f.terrace d then s.remoteTake f d else s
  let dd := s.die d
  let s := s.setDie d { dd with clock := clockJoin dd.clock f.stamp (dieNumber f.die) }
  (s.updFlight f.id fun x => { x with todo := x.todo.filter fun e => e != d }).wakePress

/-- R217, R284: a die applies a write, and with it the whole press update of which it is a part. -/
def State.remoteApply (s : State) (f : Flight) (d : Nat) : State :=
  (s.partsOf f).foldl (fun s g => if g.todo.contains d then s.remoteOne d g else s) s

/-- R217: REMOTE_WRITE_APPLY. -/
def execRemoteWriteApply (n : Nat) (die : Nat) (s : State) : Out :=
  match s.flight n with
  | some f => s.unitEvent die 4 (s.remoteDue f die) (s.remoteApply f die)
  | none => s.unitEvent die 4 false s

/-- R377: the inbound FIFO of the cluster whose cane made a write takes its acknowledgement. -/
def State.ackRoom (s : State) (f : Flight) : Bool := (f.cane.bind s.findCane).all fun c => s.inboundRoom c.core 1

/-- R377: the acknowledgement enters it. -/
def State.ackBeat (s : State) (f : Flight) : State :=
  match f.cane.bind s.findCane with
  | some c => s.inboundBeats c.core 1
  | none => s

/-- R211, R218: an acknowledgement of a write may arrive: the L2's first; then the owning slice's, once
the write is applied at every die (R215; log entry 16). -/
def State.ackDue (s : State) (f : Flight) : Bool :=
  !f.acked && s.ackRoom f && (!f.l2Acked
    || (f.seq.isSome && f.todo.isEmpty && s.reaches f.terrace (s.homeDie f.addr) f.die))

/-- A cane's counters change, with the waits that they end. -/
def State.countDown (s : State) (cane : Option Nat) (f : Cane → Cane) : State :=
  match cane with
  | some id => s.updCane id fun c => (f c).poke
  | none => s

/-- R212: the L2 acknowledges. -/
def State.ackL2 (s : State) (f : Flight) : State :=
  (s.updFlight f.id fun x => { x with l2Acked := true }).countDown f.cane fun c =>
    { c with dcnt := c.dcnt - 1, wcnt := c.wcnt - (if f.inWcnt then 1 else 0) }

/-- R218: the owning slice acknowledges, and the die reinstates the write's bytes where it must. -/
def State.ackHome (s : State) (f : Flight) : State :=
  let s := s.reinstate f.die f.addr (f.seq.getD 0) f.id f.bytes f.bad
  (s.updFlight f.id fun x => { x with acked := true }).countDown f.cane fun c =>
    { c with hcnt := c.hcnt - 1 }

/-- R218: OWN_WRITE_ACK. The endpoint acknowledges a terrace's host writes by HOST_WRITE_ACK. -/
def execOwnWriteAck (n : Nat) (s : State) : Out :=
  match s.flight n with
  | some f =>
    .next (if !s.ackDue f then s
      else if !f.l2Acked then (s.ackBeat f).ackL2 f
      else if isHost f.addr && decide (f.terrace < 16) then s
      else (s.ackBeat f).ackHome f)
  | none => .next s

/-- R402: what a link that goes down loses of a store. -/
inductive LostPart where
  /-- The request to its home. -/
  | request
  /-- A write or stamp beat to another die. -/
  | beat
  /-- The acknowledgement. -/
  | ack
  deriving DecidableEq, Repr

/-- R402: what of a write is lost when the package comes to the state `down`: the request of a cane's store, a beat of any
write to another die, or the acknowledgement of a cane's store or atomic. -/
def State.loses (s down : State) (f : Flight) : Option LostPart :=
  let o := s.homeDie f.addr
  let cut (a b : Nat) : Bool := s.reaches f.terrace a b && !down.reaches f.terrace a b
  if f.seq.isNone then if f.origin.isSome && cut f.die o then some .request else none
  else if f.todo.any fun d => s.inRectangle f.terrace d && cut o d then some .beat
  else if !f.acked && f.cane.isSome && cut o f.die then some .ack else none

/-- R402: a write that a link has lost counts as acknowledged. -/
def State.ackLost (s : State) (f : Flight) : State :=
  if f.acked then s else (if f.l2Acked then s else s.ackL2 f).ackHome f

/-- R402: its request is lost: its target keeps what it holds, and the dies take its count alone (log entry 57). -/
def State.loseRequest (s : State) (f : Flight) : State :=
  let s := (if f.l2Acked then s else s.ackL2 f).countDown f.cane fun c => { c with hcnt := c.hcnt - 1 }
  s.updFlight f.id fun x => { x with bytes := [], signalled := false, bad := [], seq := some 0, acked := true,
                                     todo := otherDies x.leaves [x.die] }

/-- R402: the launch of a parcel completes with status 4. -/
def State.failLaunch (s : State) (parcel : Option Nat) : State :=
  match parcel.bind s.findParcel with
  | none => s
  | some p => { s with parcels := s.parcels.map fun q =>
      if q.id = p.id ∨ (q.launch = p.launch ∧ q.parent.isNone) then { q with faulted := true } else q }

/-- R402: a link has lost a part of a write: one that some die waits for stays pending there, and the launch completes with
status 4, and waits for that write no more; a store's lost request or acknowledgement has a record. -/
def State.loseStore (s : State) (f : Flight) (p : LostPart) : State :=
  let record (s : State) : State := match f.origin with
    | some o => s.deferredOf .protection f.terrace f.parcel o
    | none => s
  match p with
  | .request => record (s.loseRequest f)
  | .ack => record (s.ackLost f)
  | .beat => ((s.ackLost f).failLaunch f.parcel).updFlight f.id fun x => { x with parcel := none }

/-- R411: the host writes that a zero-length read of a function acknowledges. -/
def State.hostAcks (s : State) (vf : Nat) : List Flight :=
  s.flights.filter fun f => isHost f.addr && f.terrace == vf && f.l2Acked && s.ackDue f

/-- R411: HOST_WRITE_ACK. -/
def execHostWriteAck (vf : Nat) (s : State) : Out :=
  s.unitEvent vf 16 true ((s.hostAcks vf).foldl (fun s f => if s.ackRoom f then (s.ackBeat f).ackHome f else s) s)

/-! ## Translation (R324, R325) -/

/-- The canes that wait for a walk. -/
def State.walkers (s : State) (w : Walk) : List Cane :=
  s.canes.filter fun c => c.wait == .walk w.page w.vdev && dieOfCore c.core == w.die
    && (s.wgOf c).terrace == w.terrace

/-- R324: a walk of a die is free, and that of a cane that waits for a page without one begins. -/
def State.nextWalk (s : State) (d : Nat) : State :=
  let wants (c : Cane) : Bool := match c.wait with
    | .walk page v => dieOfCore c.core == d && !((s.die d).walks.any fun w =>
        w.terrace == (s.wgOf c).terrace && w.vdev == v && w.page == page)
    | _ => false
  match s.canes.find? wants with
  | some c => (match c.wait with
    | .walk page v => s.beginWalk c.core (s.wgOf c).terrace v page c.need
    | _ => s)
  | none => s

/-- A walk ends. -/
def State.endWalk (s : State) (w : Walk) : State :=
  let dd := s.die w.die
  (s.setDie w.die { dd with walks := dd.walks.filter fun x => x.id != w.id }).nextWalk w.die

/-- R377: the inbound FIFOs of the clusters that wait for a walk take its answer. -/
def State.walkRoom (s : State) (w : Walk) : Bool := (s.walkers w).all fun c => s.inboundRoom c.core 1

/-- The answer of a walk goes to the clusters that wait for it (R377), and their canes execute their instruction again. -/
def State.wakeWalkers (s : State) (w : Walk) (f : Cane → Cane) : State :=
  let ks := ((s.walkers w).map fun c => clusterOfCore c.core).dedup
  (s.walkers w).foldl (fun s c => s.updCane c.id fun c => f { c with wait := .none })
    (ks.foldl (fun s k => s.inboundBeats (4 * k) 1) s)

/-- R324: a walk that finds a mapping fills the TLBs of the clusters that wait for it. -/
def State.fillTlb (s : State) (w : Walk) (e : TlbEntry) : State :=
  let ks := (clusterOfCore w.core :: (s.walkers w).map fun c => clusterOfCore c.core).dedup
  let s := ks.foldl (fun s k =>
    let c := s.cluster k
    s.setCluster k { c with tlb := (e :: c.tlb.filter fun x => x != e).take 2048 }) s
  (s.wakeWalkers w fun c => c).endWalk w

/-- R317, R330: canes in an exit routine that meet a missing translation overrun, each workgroup once. -/
def State.missInRoutine (s : State) (w : Walk) : State :=
  ((s.walkers w).filter fun c => c.routine == .exit).foldl
    (fun s c => if (s.findCane c.id).isSome then s.overrun c.wg .exitOverrun (some c.id) else s) s

/-- R310: the bytes of a translation entry. -/
def transBytes (access terrace page parcel linear : Nat) : List Byte :=
  leBytes 1 1 ++ leBytes 1 0 ++ leBytes 1 access ++ leBytes 1 terrace ++ leBytes 4 0
    ++ leBytes 8 (page * 65536) ++ leBytes 8 parcel ++ leBytes 4 linear ++ leBytes 4 0

/-- R310, R325: a walk without a mapping queues one entry in queue q (16 is management's), unless one is pending for its
page and access; the canes that wait for it execute again and find the entry. With no room it waits. -/
def State.queueMiss (s : State) (w : Walk) (q : Nat) : State :=
  if s.transEntries.any fun e => e.terrace == w.terrace && e.vdev == w.vdev && e.page == w.page && e.access == w.access then
    (s.wakeWalkers w fun c => c).endWalk w
  else match s.queueRoom q w.die with
  | none => s
  | some (x, f, produced) =>
    let c := (s.walkers w).head?
    let g := c.map fun c => s.wgOf c
    let s := s.queueAppend x f produced (transBytes w.access (if q < 16 then 0 else w.terrace) w.page
      (s.parcelAddr (g.bind (·.parcel))) ((g.map (·.linear)).getD 0xFFFFFFFF))
    let s : State := { s with
      transEntries := s.transEntries ++
        [⟨s.nextId, q, produced, w.terrace, w.vdev, w.page, w.access⟩],
      nextId := s.nextId + 1 }
    (s.wakeWalkers w fun c => c).endWalk w

/-- R311, R325: a miss is answered DENY at once. -/
def State.denyWalk (s : State) (w : Walk) : State :=
  (s.wakeWalkers w fun c => { c with denied := w.page :: c.denied }).endWalk w

/-- R325: a walk ends without a mapping, for queue q. -/
def State.missWalk (s : State) (w : Walk) (q : Nat) : State :=
  let s := s.missInRoutine w
  if (s.walkers w).isEmpty then s.endWalk w
  else if (s.terrace q).faultQueue.isNone then s.denyWalk w
  else s.queueMiss w q

/-- The walk of a name. -/
def State.findWalk (s : State) (id : Nat) : Option Walk :=
  s.dies.findSome? fun d => d.walks.find? fun w => w.id == id

/-- R323: the addresses of the table entries that a walk of one stage reads. -/
def tableReads (rd : Nat → Option Dword) (va : Nat) : Nat → List (Nat × Nat × Nat) → List Nat
  | _, [] => []
  | table, (width, page, _) :: rest =>
    let a := table + 8 * (va / 2 ^ page % 2 ^ width)
    a :: match rd a with
      | some e => if e.getLsbD 0 && e.getLsbD 1 then tableReads rd va ((e.extractLsb' 8 44).toNat * 256) rest else []
      | none => []

/-- R338: the entries that a stage-2 walk of an address reads, each for management. -/
def State.stage2Reads (s : State) (d t ipa : Nat) : List (Nat × Nat) :=
  (tableReads (fun a => some (s.tableEntry d a)) ipa (s.terrace t).part.s2root
    [(22, 30, 12), (9, 21, 8), (5, 16, 0)]).map fun a => (a, mgmt)

/-- R323, R338: the entries that a walk of both stages reads, each with whose request its read is. -/
def State.walkReads (s : State) (d t v va : Nat) : List (Nat × Nat) :=
  match s.decantAt t va, getI none (s.terrace t).roots v with
  | some x, _ => s.stage2Reads d t (x.2.ipa (getI x.2.live x.2.seen d) (va / 65536 * 65536 - x.2.base))
  | none, none => []
  | none, some root =>
    let place (ipa : Nat) : Option Nat := (s.stage2 d t ipa).map fun m => m.pa + (ipa - m.va)
    let rd (ipa : Nat) : Option Dword := (place ipa).map fun pa => s.ownEntry d t pa
    let last : List (Nat × Nat) := match walkStage rd root.base root.l va with
      | .leaf m => s.stage2Reads d t (m.pa + (va - m.va))
      | _ => []
    (tableReads rd va root.base [(root.l, 30, 12), (9, 21, 8), (5, 16, 0)]).flatMap (fun ipa =>
      s.stage2Reads d t ipa ++ ((place ipa).map fun pa => (pa, t)).toList) ++ last

/-- R204, R338: the walk's reads that its die's L2 does not serve go to the cellar. -/
def State.walkTraffic (s : State) (w : Walk) : State :=
  (s.walkReads w.die w.terrace w.vdev (w.page * 65536)).foldl (fun s x =>
    if (s.l2Copy w.die (lineOf x.1)).isSome then s else s.cellarTouch (lineOf x.1) x.2 false) s

/-- R324, R377: PAGE_WALK_COMPLETE. -/
def execPageWalkComplete (walk : Nat) (s : State) : Out :=
  match s.findWalk walk with
  | none => .next s
  | some w =>
    if !s.walkRoom w then .next s
    else
    let s := s.walkTraffic w
    .next (match s.walk w.die w.terrace w.vdev (w.page * 65536) with
      | .ok e => s.fillTlb w e
      | .miss1 => s.missWalk w w.terrace
      | .miss2 => s.missWalk w mgmt
      | .noRoot => s.denyWalk w)

/-- R310, R325: the response byte of a pending entry, as the home of its line holds it once the entry is produced. A
poisoned one is no answer (R207). -/
def State.response (s : State) (e : TransEntry) : Nat :=
  match (s.terrace e.queue).faultQueue with
  | none => 0
  | some f =>
    let x : Ctx := ⟨e.queue, f.vdev, 0, none⟩
    match s.ctxHomeRead x (f.base + 16) 8, s.ctxHomeRead x (f.base + 64 + 32 * (e.index % 2 ^ f.order) + 1) 1 with
    | some produced, some r => if e.index < leField produced 0 8 then leField r 0 1 else 0
    | _, _ => 0

/-- R277: a task that waits for the answer to a dependence counter's page: QUEUED, the first of its queue. -/
def State.awaitsCounter (s : State) (e : TransEntry) (t : Task) : Bool :=
  t.status == .queued && t.terrace == e.terrace && t.vdev == e.vdev && e.access == 0
    && ([40, 56] : List Nat).any (fun i => leField t.record i 8 != 0 && leField t.record i 8 / 65536 == e.page)
    && s.tasks.all fun x => !(x.queue == t.queue && x.die == t.die && x.status == .queued
      && decide (2 ^ 31 ≤ (x.index + 2 ^ 32 - t.index) % 2 ^ 32))

/-- R325: an answer: each waiting instruction executes again; under DENY its page is refused. -/
def State.answerEntry (s : State) (e : TransEntry) (deny : Bool) : State :=
  let s := s.mapCanes fun c =>
    if c.wait = .service e.id then
      { c with wait := .none, denied := if deny then e.page :: c.denied else c.denied }
    else
      let w := s.wgOf c
      let arrived := match c.wait with | .phase | .graft _ => true | _ => false
      if deny && arrived && w.terrace == e.terrace && w.vdev == e.vdev then
        { c with denied := e.page :: c.denied }
      else c
  { s with transEntries := s.transEntries.filter fun x => x.id != e.id,
           tasks := s.tasks.map fun t =>
             if deny && s.awaitsCounter e t then { t with denied := e.page :: t.denied } else t }

/-- R325: TRANSLATION_RESPONSE, when the service has written RETRY or DENY. -/
def execTranslationResponse (terrace entry : Nat) (s : State) : Out :=
  match s.transEntries.find? fun e => e.id == entry && e.queue == terrace with
  | some e =>
    let r := s.response e
    s.unitEvent terrace 17 (r == 1 || r == 2) (s.answerEntry e (r == 2))
  | none => s.unitEvent terrace 17 false s

/-! ## Code (R25) -/

/-- R25, R377: CODE_FETCH_RETURN, through the inbound FIFO. -/
def execCodeFetchReturn (cane : Nat) (s : State) : Out :=
  match s.findCane cane with
  | some c =>
    .next (if c.wait = .fetch && s.inboundRoom c.core 1 then
        ((s.inboundBeats c.core 1).loadCode c).updCane cane fun c => { c with wait := .none }
      else s)
  | none => .next s

/-! ## Soft errors (R207) -/

/-- R207, R365: a corrected error is counted in a die's sample. -/
def State.countEcc (s : State) (d : Nat) : State :=
  let dd := s.die d
  s.setDie d { dd with sample := { dd.sample with ecc := dd.sample.ecc + 1 } }

/-- R365: a POISON slot of a die's core sample names a granule's physical address. -/
def State.poisonSlot (s : State) (d g : Nat) : State := s.sampleEvent d 3 (s.keyOf (32 * g)) 0xFF (leBytes 8 (32 * g))

/-- R207: granule g of a die's copy of its line is poisoned. -/
def State.poisonL2 (s : State) (d g : Nat) : State :=
  let dd := s.die d
  (s.setDie d { dd with l2 := dd.l2.map fun l =>
    if l.line = g / 4 && !l.poison.contains (g % 4) then { l with poison := g % 4 :: l.poison } else l }).poisonSlot d g

/-- R207: granule g of a core's copy of its line is poisoned. -/
def State.poisonL1 (s : State) (core g : Nat) : State :=
  let c := s.core core
  (s.setCore core { c with l1 := c.l1.map fun l =>
    if l.line = g / 4 && !l.poison.contains (g % 4) then { l with poison := g % 4 :: l.poison } else l }).poisonSlot
      (dieOfCore core) g

/-- R207: granule g of a core's FIFO banks is poisoned. -/
def State.poisonFifo (s : State) (core g : Nat) : State :=
  let c := s.core core
  if g < 48 * 1024 && getI 0 c.roles (g / 1024) == 3 && !c.fifoPoison.contains g then
    s.setCore core { c with fifoPoison := g :: c.fifoPoison }
  else s

/-- R207: MEMORY_SOFT_ERROR: 0 a corrected error at die n; 1 a corrected error in the core store of core n
(R354); 2 granule n of memory is poisoned; 3 a register row, 512·cane + 4·register + pass; 4 a scratch
granule, 2^19·workgroup + granule; 5 a granule in an L2, 4·granule + die; 6 one in an L1, 1024·granule + core; 7 one in
FIFO banks, 1024·granule + core; 8 the data of write n on its way (log entry 17). -/
def execMemorySoftError (kind n : Nat) (s : State) : Out :=
  match kind with
  | 0 => s.unitEvent n 4 true (s.countEcc n)
  | 1 =>
    s.unitEvent n 516 true
      ((s.countEcc (dieOfCore n)).setCore n ((s.core n).count 0x024 1))
  | 2 => s.unitEvent n (2 ^ 33) (!s.poison.contains n)
      (({ s with poison := n :: s.poison } : State).poisonSlot (s.homeDie (32 * n)) n)
  | 3 => .next (s.updCane (n / 512) fun c =>
      if n % 512 / 4 < c.nreg && !c.rowPoison.contains (n % 512) then
        { c with rowPoison := n % 512 :: c.rowPoison }
      else c)
  | 4 => .next (s.updWg (n / 2 ^ 19) fun w =>
      if 32 * (n % 2 ^ 19) < w.scrSize && !w.scrPoison.contains (n % 2 ^ 19) then
        { w with scrPoison := n % 2 ^ 19 :: w.scrPoison }
      else w)
  | 5 => .next (if ((s.l2Copy (n % 4) (n / 16)).any fun l => !l.poison.contains (n / 4 % 4)) then
      s.poisonL2 (n % 4) (n / 4)
    else s)
  | 6 =>
    let core := n % 1024
    let g := n / 1024
    s.unitEvent core 516 ((s.core core).l1.any fun l => l.line == g / 4 && !l.poison.contains (g % 4))
      (s.poisonL1 core g)
  | 7 => s.unitEvent (n % 1024) 516 true (s.poisonFifo (n % 1024) (n / 1024))
  | 8 => .next (match s.flight n with
      | some f => if f.seq.isNone && f.bad == [] then
          { s with flights := s.flights.map fun x =>
              if x.id == n then { x with bad := granules x.addr x.bytes.length } else x }
        else s
      | none => s)
  | _ => .fault .noSuchUnit

/-! ## Issue (R150 to R152) -/

/-- R150: a cane is ready: resident, not parked, and owning no pipe. -/
def Cane.ready (c : Cane) : Bool := c.live && c.wait == .none && c.pipe.isNone

/-- R150: the age of a cane. -/
def State.age (s : State) (c : Cane) : Nat := s.cycleOf c.core - c.readyAt

/-- R150: the effective priority of a cane. -/
def State.effective (s : State) (c : Cane) : Nat :=
  if c.aged || decide (4096 ≤ s.age c) then 16 else (s.wgOf c).priority

/-- R150: a ready cane is chosen before another. -/
def State.before (s : State) (c d : Cane) : Bool :=
  let p := s.effective c
  let q := s.effective d
  decide (q < p) || (p == q && (decide (s.age d < s.age c)
    || (s.age c == s.age d && decide (c.slot < d.slot))))

/-- R150: the free pipes of a core, ascending. -/
def State.freePipes (s : State) (core : Nat) : List Nat :=
  ([0, 1, 2, 3] : List Nat).filter fun p => !(s.canes.any fun c => c.core == core && c.pipe == some p)

/-- R150: a free pipe of its core chooses a cane now. -/
def State.chosen (s : State) (c : Cane) : Bool :=
  c.ready && !(s.cluster (clusterOfCore c.core)).issuePaused && !(s.freePipes c.core).isEmpty
    && s.canes.all fun d => !(d.core == c.core && d.ready && d.id != c.id && s.before d c)

/-- A cane becomes the present one. -/
def State.focus (s : State) (c : Cane) : State :=
  if s.cur.id = c.id ∧ s.cur.live then s
  else
    let rest := s.others.filter fun d => d.id != c.id
    { s with cur := c, others := if s.cur.live then rest ++ [s.cur] else rest }

/-- R150: PIPE_SELECT; a cane that owns a pipe already becomes the present one. -/
def execPipeSelect (cane : Nat) (s : State) : Out :=
  match s.findCane cane with
  | none => .next s
  | some c =>
    .next (if c.pipe.isSome then s.focus c
      else if s.chosen c then (s.focus c).updCur fun k => { k with pipe := (s.freePipes c.core).head? }
      else s)

/-- R152: AGE_PRIORITY. -/
def execAgePriority (cane : Nat) (s : State) : Out :=
  match s.findCane cane with
  | none => .next s
  | some c =>
    .next (if c.ready && decide (4096 ≤ s.age c) then s.updCane cane fun c => { c with aged := true } else s)

/-- R151: another ready cane of the core has effective priority 16 and a greater age. -/
def State.mustYield (s : State) : Bool :=
  s.canes.any fun d => d.core == s.cur.core && d.ready && d.id != s.cur.id
    && s.effective d == 16 && decide (s.age s.cur < s.age d)

end Sys2Proof.Machine
end

