-- ==== Sys2Proof/Machine/Launch.lean ====
section
/-! DEFINITION. Placing work (R153, R154, R160, R161, R165, R321), SPAWN and PARCEL.WAIT (R155 to R159,
R195, R196, R399, R431), and the completion of parcels (R171, R172). -/

namespace Sys2Proof.Machine

/-! ## Room on a core (R147, R161) -/

/-- Units of 8 registers of one cane. -/
def TaskType.units (t : TaskType) : Nat := (t.regs + 7) / 8
/-- The banks that a task type's map gives a role. -/
def TaskType.banks (t : TaskType) (role : Nat) : List Nat :=
  (List.range 48).filter fun b => getI 0 t.roles b == role
/-- R94, R195: a task type fits an empty core. -/
def TaskType.fitsEmpty (t : TaskType) : Bool :=
  decide (8 ≤ (t.banks 0).length) && decide (t.canes * t.units ≤ 256)
    && decide (t.scratch ≤ 32768 * (t.banks 1).length)

/-- R147: the stripes of a bank map. -/
def TaskType.stripes (t : TaskType) : List (List Nat) :=
  (List.range ((t.banks 0).length / 8)).map fun i => ((t.banks 0).drop (8 * i)).take 8

/-- R161: no workgroup is on a core. -/
def State.coreEmpty (s : State) (i : Nat) : Bool := !(s.workgroups.any fun w => w.core == i)

/-- R161, R198: an empty core takes the bank map. -/
def Core.prepared (k : Core) (t : TaskType) : Core :=
  { k with roles := t.roles, stripes := t.stripes, l1 := [], fifo := [], slots := [], scr := (t.banks 1).length,
           changed := false }

/-- A run of units holds one. -/
def inRun (r : Nat × Nat) (u : Nat) : Bool := decide (r.1 ≤ u) && decide (u < r.1 + r.2)

/-- R147: a unit of a stripe is part of a cane's extent. -/
def State.unitTaken (s : State) (i st u : Nat) : Bool :=
  s.canes.any fun c => c.core == i && c.stripe == st && (inRun c.ext0 u || inRun c.ext1 u)

/-- The first run of n units of a stripe that is free and outside some runs. -/
def State.freeRun (s : State) (i st n : Nat) (taken : List (Nat × Nat)) : Option Nat :=
  (List.range (257 - n)).find? fun a =>
    (List.range n).all fun j => !s.unitTaken i st (a + j) && !(taken.any fun r => inRun r (a + j))

/-- Free extents for a number of canes of n units each, first fit. -/
def State.freeExtents (s : State) (i st n : Nat) : Nat → List (Nat × Nat) → Option (List (Nat × Nat))
  | 0, got => some got
  | k + 1, got =>
    match s.freeRun i st n got with
    | some a => s.freeExtents i st n k (got ++ [(a, n)])
    | none => none

/-- R198: a stripe takes new extents: all its banks hold REG. -/
def Core.stripeOpen (k : Core) (st : Nat) : Bool := (getI [] k.stripes st).all fun b => getI 0 k.roles b == 0

/-- R161: the lowest stripe that holds the extents of a task type's canes. -/
def State.stripeRoom (s : State) (i : Nat) (k : Core) (t : TaskType) : Option (Nat × List (Nat × Nat)) :=
  (List.range k.stripes.length).findSome? fun st =>
    if k.stripeOpen st then (s.freeExtents i st t.units t.canes []).map fun e => (st, e) else none

/-- The least of some numbers. -/
def leastOf : List Nat → Option Nat
  | [] => none
  | x :: xs => match leastOf xs with
    | some y => some (min x y)
    | none => some x

/-- R147, R149: the bytes of a core's scratch banks. -/
def Core.scratchBytes (k : Core) : Nat := 32768 * min k.scr (k.banks 1).length

/-- R161: the lowest free run of n bytes of a core's scratch banks. -/
def State.scratchRun (s : State) (i : Nat) (k : Core) (n : Nat) : Option Nat :=
  let ws := s.workgroups.filter fun w => w.core == i && w.scrSize != 0
  leastOf ((0 :: ws.map fun w => w.scrBase + w.scrSize).filter fun a =>
    decide (a + n ≤ k.scratchBytes)
      && ws.all fun w => decide (a + n ≤ w.scrBase) || decide (w.scrBase + w.scrSize ≤ a))

/-- The dictionary of a workgroup: its terrace and ordinal. -/
def State.dictOf (s : State) (w : Workgroup) : Option (Nat × Nat) :=
  (((s.image w.terrace).taskType? w.taskType).bind (·.dict)).map fun o => (w.terrace, o)

/-- R161: no resident cane of a core uses the dictionary of a slot. -/
def State.dictFree (s : State) (i : Nat) (d : DictSlot) : Bool :=
  !(s.workgroups.any fun w => w.core == i && d.name.isSome && s.dictOf w == d.name)

/-- R161: the slot that a dictionary is loaded into, when it is in neither. -/
def State.dictRoom (s : State) (i : Nat) (name : Option (Nat × Nat)) : Option (Option Nat) :=
  let k := s.core i
  if name.isNone || k.dict0.name == name || k.dict1.name == name then some none
  else if s.dictFree i k.dict0 then some (some 0)
  else if s.dictFree i k.dict1 then some (some 1)
  else none

/-- What a core offers a workgroup. -/
structure Room where
  stripe : Nat
  exts : List (Nat × Nat)
  scr : Nat
  load : Option Nat
  deriving DecidableEq, Repr

/-- R150: the free slots of a core. -/
def State.freeSlots (s : State) (i : Nat) : List Nat :=
  (List.range 48).filter fun n => !(s.canes.any fun c => c.core == i && c.slot == n)

/-- Two bank maps give every bank one role. -/
def sameRoles (a b : List Nat) : Bool := (List.range 48).all fun i => getI 0 a i == getI 0 b i

/-- R161: the room of a core for a task type of a terrace, but for the budgets. A core whose roles have changed takes
nothing until it is empty (R198). -/
def State.roomOn (s : State) (t i : Nat) (tt : TaskType) : Option Room :=
  let k := if s.coreEmpty i then (s.core i).prepared tt else s.core i
  if k.changed || !sameRoles k.roles tt.roles || decide ((s.freeSlots i).length < tt.canes) then none
  else
    match s.stripeRoom i k tt, s.scratchRun i k tt.scratch, s.dictRoom i (tt.dict.map fun o => (t, o)) with
    | some (st, es), some a, some l => some ⟨st, es, a, l⟩
    | _, _, _ => none

/-! ## Where the distributor searches (R161, R384) -/

/-- A number put into a list that rises by a key. -/
def insertBy (key : Nat → Nat) (x : Nat) : List Nat → List Nat
  | [] => [x]
  | y :: ys => if key x ≤ key y then x :: y :: ys else y :: insertBy key x ys

/-- R334: the clusters that belong to a terrace, in ascending logical number. -/
def State.clustersOf (s : State) (t : Nat) : List Nat :=
  ((List.range 128).filter fun i => (s.cluster i).enabled && (s.cluster i).owner == some t).foldl
    (fun xs i => insertBy (fun j => (s.cluster j).logical) i xs) []

/-- R384, R339: work is placed on a cluster. -/
def Cluster.usable (k : Cluster) : Bool :=
  !(k.budget != 0 && decide (k.budget < k.energy)) && decide (k.hot ≤ k.hotlim) && !k.revoking

/-- R384, R397: a cluster takes work of a terrace's launches: it is on a die that their traffic reaches. -/
def State.takesWork (s : State) (t k : Nat) : Bool := (s.cluster k).usable && s.inRectangle t (k / 32)

/-- R161, R431: the clusters that a terrace's, or management's, work is placed on, in order. -/
def State.searchClusters (s : State) (t : Nat) : List Nat :=
  if t ≥ 16 then [128] else (s.clustersOf t).filter (s.takesWork t)

/-- R161: the cores of some clusters. -/
def State.searchCores (s : State) (t : Nat) : List Nat := (s.searchClusters t).flatMap coresOf

/-- R384: a parcel's share of a cluster's rolling energy, in proportion to the core time that its workgroups have held
there. -/
def Cluster.shareOf (c : Cluster) (p : Nat) : Nat :=
  let time (xs : List (Nat × Nat × Nat)) : Nat := (xs.map fun x => x.2.2).sum
  c.energy * time (c.held.filter fun x => x.2.1 == p) / time c.held

/-- R384: a parcel's rolling share of its clusters' energy over 1 ms, in µJ. -/
def State.energyShare (s : State) (p : Nat) : Nat := (s.clusters.map fun c => c.shareOf p).sum

/-- R161, R155, R384: a parcel's budgets allow work of a task type on some cores more. No energy budget applies to
management's (R431). -/
def State.budgetOk (s : State) (p : Parcel) (tt : TaskType) (cores : List Nat) : Bool :=
  let held := (s.workgroups.filter fun w => w.parcel == some p.id).map (·.core)
  decide ((tt.banks 0).length ≤ p.maxBanks) && decide ((held ++ cores).dedup.length ≤ p.maxCores)
    && decide (tt.scratch ≤ p.maxScratch)
    && !(p.energy != 0 && decide (p.terrace < 16) && decide (p.energy < s.energyShare p.id))

/-- R161: the first core that fits. -/
def State.firstCore (s : State) (p : Parcel) (tt : TaskType) : Option (Nat × Room) :=
  (s.searchCores p.terrace).findSome? fun i =>
    if s.budgetOk p tt [i] then (s.roomOn p.terrace i tt).map fun r => (i, r) else none

/-- Room for each of some cores. -/
def State.roomsOn (s : State) (t : Nat) (tt : TaskType) : List Nat → Option (List (Nat × Room))
  | [] => some []
  | i :: is =>
    match s.roomOn t i tt, s.roomsOn t tt is with
    | some r, some rs => some ((i, r) :: rs)
    | _, _ => none

/-- R154, R421: the cores of a cooperative set of n members in group g, when its clusters exist and take
work. -/
def State.setCores (s : State) (t n g : Nat) : Option (List Nat) :=
  let cs := (List.range n).filterMap fun m =>
    ((s.clusterOfLogical t (4 * g + m / 4)).filter (s.takesWork t)).map fun k =>
      4 * k + m % 4
  if cs.length = n then some cs else none

/-- R154: where a set goes. -/
def State.firstGroup (s : State) (p : Parcel) (tt : TaskType) (n : Nat) : Option (List (Nat × Room)) :=
  (List.range 64).findSome? fun g =>
    (s.setCores p.terrace n g).bind fun cs =>
      if s.budgetOk p tt cs then s.roomsOn p.terrace tt cs else none

/-! ## Starting canes (R19, R153, R165, R170, R321) -/

/-- R19: a cane at the entry of its kernel. -/
def Cane.start (id wg idx core slot stripe : Nat) (ext : Nat × Nat) (nreg priv linear : Nat) (pc : Dword)
    (cycle : Nat) (stamp : List Nat) : Cane :=
  { Cane.zero with
    id := id, live := true, idx := idx, wg := wg, core := core, slot := slot, pc := pc, priv := priv,
    lfsr := 0x9E370000#32 ^^^ BitVec.ofNat 32 (linear % 2048 * 32 + idx), seen := stamp, nreg := nreg,
    stripe := stripe, ext0 := ext, readyAt := cycle }

/-- A cane to place: its number, and what its start differs from R19 in. -/
structure Newcomer where
  idx : Nat
  change : Cane → Cane

/-- Canes of a kernel's entry. -/
def entryCanes (n : Nat) : List Newcomer := (List.range n).map fun i => ⟨i, id⟩

/-- R26, R161, R22, R206: a core takes a workgroup: bank map, dictionary, instruction cache, and the L1 effect
of the acquire its canes start with. -/
def State.prepareCore (s : State) (i : Nat) (tt : TaskType) (r : Room) (t : Nat) (launch : Option Nat) :
    State :=
  let k := if s.coreEmpty i then (s.core i).prepared tt else s.core i
  let d : DictSlot :=
    ⟨tt.dict.map fun o => (t, o), ((tt.dict.bind fun o => (s.image t).dicts[o]?).getD [])⟩
  let k := match r.load with
    | some 0 => { k with dict0 := d }
    | some _ => { k with dict1 := d }
    | none => k
  let k := if k.launch = launch then k else { k with icache := [], launch := launch }
  s.setCore i { k with l1 := [] }

/-- R153: a workgroup is placed on a core with its canes. -/
def State.install (s : State) (i : Nat) (tt : TaskType) (r : Room) (w : Workgroup) (launch : Option Nat)
    (entry : Dword) (cs : List Newcomer) (stamp : List Nat) : State :=
  let slots := s.freeSlots i
  let s := s.prepareCore i tt r w.terrace launch
  let wg := s.nextId
  let w := { w with id := wg, core := i, scrBase := r.scr, scrSize := tt.scratch, ncanes := cs.length }
  let wait : Wait := if r.load.isSome then .fetch else .none
  let new := (cs.zipIdx).map fun x =>
    let c := Cane.start (wg + 1 + x.2) wg x.1.idx i (getI 0 slots x.2) r.stripe
      (getI (0, 0) r.exts x.2) tt.regs tt.priv w.linear entry (s.cycleOf i) stamp
    { x.1.change c with wait := wait }
  { s with nextId := wg + 1 + cs.length, workgroups := s.workgroups ++ [w], others := s.others ++ new }

/-- A workgroup of a parcel before it is placed. -/
def Parcel.workgroup (p : Parcel) (linear taskType : Nat) : Workgroup :=
  { Workgroup.zero with
    terrace := p.terrace, vdev := p.vdev, parcel := some p.id, linear := linear, taskType := taskType,
    priority := p.priority, member := if p.setLog = 0 then none else some (linear % 2 ^ p.setLog),
    setId := p.id * 2 ^ 64 + linear / 2 ^ p.setLog, setLog := p.setLog, entry := p.entry }

/-! ## Records (R163, R164, R316) -/

/-- A phase or exit record as read. -/
structure Record where
  bytes : List Byte
  kind : Nat
  canes : Nat
  region : Nat
  taskType : Nat
  graft : Nat
  carry : BitVec 256
  ranges : List (Nat × Nat)
  deriving DecidableEq, Repr

/-- R163, R164, R316: a record read through a context: its header gives its size. -/
def State.readRecord (s : State) (x : Ctx) (im : LinkedImage) (addr : Nat) (exit : Bool) : Option Record :=
  (s.ctxRead x addr 64).bind fun h =>
    let carry := BitVec.ofNat 256 (leField h 32 28)
    let ranges :=
      if leField h 5 1 = 2 then ((im.grafts[leField h 26 2]?).map (·.ranges)).getD []
      else ((im.regions.find? fun r => r.id == leField h 8 4).map (·.ranges)).getD []
    let n := leField h 6 1
    let size := 64 + n * sectionBytes carry + rangeBytes ranges + (if exit then 272 * n else 0)
    (s.ctxRead x addr size).map fun bs =>
      ⟨bs, leField h 5 1, n, leField h 8 4, leField h 24 2, leField h 26 2, carry, ranges⟩

/-- Section i of a record. -/
def Record.part (r : Record) (i : Nat) : List Byte := r.bytes.drop (64 + i * sectionBytes r.carry)

/-- R164: the bytes [off, off + n) of the scratch that a record carries. -/
def Record.scratch (r : Record) : List Host.Cell :=
  let base := 64 + r.canes * sectionBytes r.carry
  (r.ranges.foldl (fun (x : List Host.Cell × Nat) g =>
    (Memory.writeBytes x.1 g.1 ((r.bytes.drop x.2).take g.2), x.2 + g.2)) ([], base)).1

/-- R316: the control block of section i. -/
def Record.control (r : Record) (i : Nat) : List Byte :=
  r.bytes.drop (64 + r.canes * sectionBytes r.carry + rangeBytes r.ranges + 272 * i)

/-- R164, R165: the carried V and affine registers and LINK of a section. -/
def Cane.takeWords (c : Cane) (carry : BitVec 256) (b : List Byte) : Cane :=
  let nV := countBits carry 0 128
  let nA := countBits carry 128 16
  let c := (List.range 128).foldl (fun (c : Cane) i =>
    if carry.getLsbD i && decide (i < c.nreg) then
      let at_ := 48 + 128 * countBits carry 0 i
      c.setV 0xFFFFFFFF#32 i fun l => BitVec.ofNat 32 (leField b (at_ + 4 * l) 4)
    else c) c
  let c := (List.range 16).foldl (fun (c : Cane) i =>
    if carry.getLsbD (128 + i) then
      let at_ := 48 + 128 * nV + 16 * countBits carry 128 i
      c.setA i ⟨BitVec.ofNat 64 (leField b at_ 8), BitVec.ofNat 32 (leField b (at_ + 8) 4)⟩
    else c) c
  if carry.getLsbD 152 then
    { c with link := BitVec.ofNat 64 (leField b (48 + 128 * nV + 16 * nA) 8) }
  else c

/-- R164: the predicates of a section's head whose bits are set. -/
def headPreds (carry : BitVec 256) (b : List Byte) : List Mask :=
  (List.range 8).map fun i =>
    if i ≠ 0 && carry.getLsbD (143 + i) then BitVec.ofNat 32 (leField b (20 + 4 * (i - 1)) 4) else 0

/-- R164: MODE of a section's head when bit 151 is set. -/
def headMode (carry : BitVec 256) (b : List Byte) : Word :=
  if carry.getLsbD 151 then BitVec.ofNat 32 (leField b 16 4) else 0

/-- R165: a cane of a next phase takes its section. -/
def Cane.takeSection (c : Cane) (carry : BitVec 256) (b : List Byte) : Cane :=
  { c.takeWords carry b with
    mode := headMode carry b, p := headPreds carry b, pc := BitVec.ofNat 64 (leField b 0 8) }

/-- R165, R169: the canes that a phase record places under a task type of n canes. -/
def Record.phaseCanes (r : Record) (n : Nat) : List Newcomer :=
  let secs := ((List.range r.canes).map fun i => r.part i).filter fun b => leField b 13 1 != 2
  if r.kind = 2 then
    (List.range n).map fun i =>
      ⟨i, fun c => match secs.find? fun b => leField b 12 1 == i with
        | some b => c.takeSection r.carry b
        | none => c⟩
  else secs.map fun b => ⟨leField b 12 1, fun c => c.takeSection r.carry b⟩

/-- R315: the lowest affine register outside a carry bitmap. -/
def freeAffine (carry : BitVec 256) : Option Nat := (List.range 16).find? fun i => !carry.getLsbD (128 + i)

/-- R316: the stack of a control block, top first. -/
def controlStack (b : List Byte) : List StackEntry :=
  ((List.range (min 16 (leField b 8 1))).map fun i =>
    ⟨if leField b (16 + 16 * i + 12) 1 = 0 then EntryKind.join else .pending,
     BitVec.ofNat 64 (leField b (16 + 16 * i) 8),
     BitVec.ofNat 32 (leField b (16 + 16 * i + 8) 4)⟩).reverse

/-- R321, R433: what the device holds of a section for EXIT #2. -/
def Record.held (r : Record) (i : Nat) : HeldSection :=
  let b := r.part i
  let k := r.control i
  { cane := leField b 12 1, pc := BitVec.ofNat 64 (leField b 0 8), mode := headMode r.carry b,
    preds := headPreds r.carry b, qmask := BitVec.ofNat 32 (leField k 0 4),
    recon := BitVec.ofNat 32 (leField k 4 4), stack := controlStack k }

/-- R321: the sections of a resumed record that are placed. -/
def Record.doneSections (r : Record) : List Nat :=
  (List.range r.canes).filter fun i => leField (r.part i) 13 1 == 1

/-- R321 step 1: a cane that resumes runs the region's entry routine. -/
def Cane.takeResume (c : Cane) (r : Record) (addr i : Nat) (pc : Dword) : Cane :=
  let c := c.takeWords r.carry (r.part i)
  let c := match freeAffine r.carry with
    | some k => c.setA k ⟨BitVec.ofNat 64 (addr + firstCarried r.carry i), 4#32⟩
    | none => c
  { c with pc := pc, routine := .entry }

/-! ## Items (R160) -/

/-- R313, R340, R343, R344: an item is held from placement. -/
def State.held (s : State) (t v : Nat) (drained : Bool) : Bool :=
  if t ≥ 16 then false
  else
    let tt := s.terrace t
    tt.part.state != .running || drained || tt.usage.quotaHold
      || (tt.part.quantum != 0 && (tt.turnEnding || tt.turn != v))

/-- R157, R240: a ring stage's ring header. -/
def State.stageRing (s : State) (p : Parcel) : Option (RingHead × List Byte) :=
  (s.ctxRead p.ctx p.queue 64).bind fun bs => (ringHead p.queue bs).map fun h => (h, bs)

/-- R157: a ring stage places a workgroup: a FULL slot is unclaimed and fewer than its count are
resident. -/
def State.ringWants (s : State) (p : Parcel) : Bool :=
  match s.stageRing p with
  | none => false
  | some (h, _) =>
    decide ((s.workgroups.filter fun w => w.parcel == some p.id).length < p.count)
      && (List.range (min (h.head - h.tail) (2 ^ h.order))).any fun i =>
        s.ctxRead p.ctx (h.base + (h.tail + i) % 2 ^ h.order * h.stride) 1 == some [1#8]

/-- R154: a cooperative set still has a resident member: what has left it is placed again with the others. -/
def State.setStands (s : State) (p : Parcel) (linear : Nat) : Bool :=
  p.setLog != 0 && s.workgroups.any fun w =>
    w.parcel == some p.id && w.linear / 2 ^ p.setLog == linear / 2 ^ p.setLog

/-- R160: an item is offered now: it is not held, and a ring stage has work to place (R157). -/
def State.offered (s : State) (i : Item) : Bool :=
  match i.kind with
  | .steward t => (s.terrace t).part.state == .running
  | k => match s.findParcel i.parcel with
    | none => false
    | some p => !s.held p.terrace p.vdev p.drained
        && (k.linear.isSome || p.kind != 3 || s.ringWants p)

/-- R160: the head of the highest nonempty queue. -/
def bestItem : List Item → Option Item
  | [] => none
  | i :: is => match bestItem is with
    | some j => some (if i.priority < j.priority then j else i)
    | none => some i

/-- R160: the item that a die's distributor offers. -/
def State.headOf (s : State) (d : Nat) : Option Item := bestItem ((s.die d).queue.filter s.offered)

/-- An item leaves its queue. -/
def State.dequeue (s : State) (d : Nat) (i : Item) : State :=
  let dd := s.die d
  s.setDie d { dd with queue := dd.queue.erase i }

/-- R195, R165: the die of a core has applied what an item's canes start after. -/
def State.startable (s : State) (i : Nat) (stamp : List Nat) : Bool := s.covers (dieOfCore i) stamp

/-- A terrace's task type; a steward's is none of the image's (R342). -/
def noTask : Nat := 0xFFFF

/-- R153, R155: the next linear ids are taken, and the first placement makes the parcel running. -/
def State.takeIds (s : State) (p : Parcel) (n : Nat) : State :=
  let s := s.ctxWrite p.ctx (p.addr + 64) (leBytes 8 (p.nextWg + n)) false
  let s := if p.status = 1 then s.ctxWrite p.ctx (p.addr + 84) (leBytes 4 2) false else s
  s.updParcel p.id fun p => { p with nextWg := p.nextWg + n, status := 2 }

/-- R153, R154: a workgroup or a set of a leaf is placed. -/
def State.placeLeaf (s : State) (d : Nat) (it : Item) (p : Parcel) (tt : TaskType) : Option State :=
  let n := 2 ^ p.setLog
  let places := if p.setLog = 0 then (s.firstCore p tt).map fun x => [x] else s.firstGroup p tt n
  places.bind fun ps =>
    if ps.all fun x => s.startable x.1 it.stamp then
      let s := s.takeIds p n
      let s := (ps.zipIdx).foldl (fun (s : State) x =>
        s.install x.1.1 tt x.1.2 (p.workgroup (p.nextWg + x.2) p.taskType) (some p.launch)
          (BitVec.ofNat 64 p.entry) (entryCanes tt.canes) it.stamp) s
      some (if p.kind = 1 && decide (p.count ≤ p.nextWg + n) then s.dequeue d it else s)
    else none

/-- A workgroup that is placed again, as its item's record or its kernel's entry gives it. -/
structure Plan where
  item : Item
  task : TaskType
  wg : Workgroup
  entry : Nat
  canes : List Newcomer

/-- What an item that places a workgroup again comes to. -/
inductive Planned where
  | place (x : Plan)
  /-- R34: its task type names a level above its creator's. -/
  | refused
  /-- R433: its exit record does not read. -/
  | incomplete
  /-- Its phase record does not read. -/
  | wait

/-- R34: a plan is placed only when its task type's level is at most its creator's. -/
def Plan.ifLevel (x : Plan) : Planned := if x.item.level < x.task.priv then .refused else .place x

/-- The task type that a record names. -/
def Record.task (r : Record) (im : LinkedImage) : Option TaskType := im.taskType? r.taskType

/-- R165, R169: a next phase from its record. -/
def State.planPhase (s : State) (it : Item) (p : Parcel) (linear : Nat) : Planned :=
  let im := s.image p.terrace
  match (s.readRecord p.ctx im (p.phaseRecord linear) false).bind fun r => (r.task im).map fun tt => (r, tt) with
  | none => .wait
  | some (r, tt) =>
    let entry := if r.kind = 2 then ((im.grafts[r.graft]?).map fun g => im.text + g.entry).getD p.entry
      else p.entry
    Plan.ifLevel ⟨it, tt, { p.workgroup linear r.taskType with scratch := r.scratch }, entry, r.phaseCanes tt.canes⟩

/-- R321: a resume item from its exit record. -/
def State.planResume (s : State) (it : Item) (p : Parcel) (linear : Nat) : Planned :=
  let im := s.image p.terrace
  match s.readRecord p.ctx im (p.exitRecord linear) true with
  | none => .incomplete
  | some r =>
    match (im.regions.find? fun g => g.id == r.region).bind (·.entryOff), r.task im with
    | some off, some tt =>
      let is := r.doneSections
      let pc : Dword := BitVec.ofNat 64 (im.text + off)
      let cs := is.map fun i => (⟨leField (r.part i) 12 1, fun c =>
        c.takeResume r (p.exitRecord linear) i pc⟩ : Newcomer)
      Plan.ifLevel ⟨it, tt, { p.workgroup linear r.taskType with
        scratch := r.scratch, resuming := true, held := is.map r.held }, p.entry, cs⟩
    | _, _ => .incomplete

/-- R165, R319, R321: what an item that places a workgroup again comes to. -/
def State.planItem (s : State) (p : Parcel) (it : Item) : Planned :=
  match it.kind with
  | .phase linear => s.planPhase it p linear
  | .resume linear => s.planResume it p linear
  | .restart linear => match (s.image p.terrace).taskType? p.taskType with
    | some tt => Plan.ifLevel ⟨it, tt, p.workgroup linear p.taskType, p.entry, entryCanes tt.canes⟩
    | none => .wait
  | .leaf | .steward _ => .wait

/-- R433: a record that does not read at a resume is treated as INCOMPLETE. A workgroup that is not placed again has
retired (R189). -/
def State.resumeFails (s : State) (d : Nat) (it : Item) (p : Parcel) (linear : Nat) : State :=
  (((s.dequeue d it).ctxWrite p.ctx (p.exitRecord linear + 4) [3#8] false).restart p p.ctx (128 * d) linear it.level true
    ⟨.exitOverrun, 0, 0, 0, ⟨0, 0xFFFFFFFF, 0, false⟩, 0xFFFF, linear, 0xFF⟩).checkBarriers

/-- R34, R189: an item whose task type is refused is placed nowhere, as if its workgroup had retired; its parcel
completes with status 4 (log entry 64). -/
def State.refuseItem (s : State) (d : Nat) (it : Item) (p : Parcel) : State :=
  ((s.dequeue d it).updParcel p.id fun p => { p with faulted := true }).checkBarriers

/-- R154: the items that a parcel places together with one of them: of a cooperative set, those of the whole set. A set
takes the place of its first item in the queue, where its members' items came at different times (DESIGN CHOICE, log
entry 74: R154 and R160 give it no place). -/
def State.together (s : State) (d : Nat) (it : Item) (p : Parcel) : List Item :=
  if p.setLog = 0 then [it]
  else (s.die d).queue.filter fun i => i.parcel == p.id
    && (i.kind.linear.map (· / 2 ^ p.setLog)) == (it.kind.linear.map (· / 2 ^ p.setLog)) && i.kind.linear.isSome

/-- The plans of some items, or the first item that has none, with what it comes to. -/
def State.plansOf (s : State) (p : Parcel) : List Item → Except (Item × Planned) (List Plan)
  | [] => .ok []
  | i :: is =>
    match s.planItem p i with
    | .place x => (s.plansOf p is).map (x :: ·)
    | r => .error (i, r)

/-- Room for some plans, each on its core. -/
def State.planRooms (s : State) (t : Nat) : List (Plan × Nat) → Option (List (Nat × Room))
  | [] => some []
  | (x, i) :: xs =>
    match s.roomOn t i x.task, s.planRooms t xs with
    | some r, some rs => some ((i, r) :: rs)
    | _, _ => none

/-- R154, R161: where some plans of a parcel go: one workgroup on the first core that fits, the members of a set on the
cores of their slots in the first group that takes them all. -/
def State.planPlaces (s : State) (p : Parcel) (xs : List Plan) : Option (List (Nat × Room)) :=
  if p.setLog = 0 then xs.head?.bind fun x => (s.firstCore p x.task).map fun y => [y]
  else (List.range 64).findSome? fun g =>
    (s.setCores p.terrace (2 ^ p.setLog) g).bind fun cs =>
      let at_ := xs.map fun x => getI 0 cs (x.wg.member.getD 0)
      if xs.all fun x => s.budgetOk p x.task at_ then s.planRooms p.terrace (xs.zip at_) else none

/-- One plan is placed, and its item leaves its queue. -/
def State.placePlan (s : State) (d : Nat) (p : Parcel) (x : Plan) (y : Nat × Room) : State :=
  (s.install y.1 x.task y.2 x.wg (some p.launch) (BitVec.ofNat 64 x.entry) x.canes x.item.stamp).dequeue d x.item

/-- R154, R173: a workgroup is placed again; a cooperative set is as a whole, once none of its members is resident. Its
records are read once the parcel's die has applied what was written before the items (R165, R428). -/
def State.placeAgain (s : State) (d : Nat) (it : Item) (p : Parcel) : Option State :=
  let items := s.together d it p
  if (it.kind.linear.any fun n => s.setStands p n) || !(items.all fun i => s.covers p.die i.stamp) then none
  else match s.plansOf p items with
  | .error (i, .refused) => some (s.refuseItem d i p)
  | .error (i, .incomplete) => some (s.resumeFails d i p (i.kind.linear.getD 0))
  | .error _ => none
  | .ok xs => (s.planPlaces p xs).bind fun ys =>
      if (xs.zip ys).all fun z => s.startable z.2.1 z.1.item.stamp then
        some ((xs.zip ys).foldl (fun s z => s.placePlan d p z.1 z.2) s)
      else none

/-- R342: the task type that a steward's record gives, read through both stages under virtual device 0. -/
def State.stewardTask (s : State) (t : Nat) : Option TaskType :=
  (s.terrace t).steward.bind fun v => (s.ctxRead ⟨t, 0, 0, none⟩ v.taskType 48).bind fun b =>
    let roles := (List.range 48).map fun i => leField b 20 12 / 4 ^ i % 4
    let tt : TaskType := ⟨none, leField b 8 2, leField b 10 2, leField b 12 4, leField b 16 1, false, none,
      roles⟩
    let ok := leField b 4 4 == 0xFFFFFFFF && leField b 17 1 == 0 && leField b 18 2 == 0xFFFF
      && leField b 32 16 == 0 && tt.canes == 1 && tt.priv == 1 && tt.regs % 8 == 0
      && decide (8 ≤ tt.regs) && decide (tt.regs ≤ 128) && tt.scratch % 128 == 0 && tt.fitsEmpty
    if ok then some tt else none

/-- R342: a steward is placed on the lowest logical cluster that fits. -/
def State.placeSteward (s : State) (t : Nat) : Option State :=
  match (s.terrace t).steward, s.stewardTask t with
  | some v, some tt =>
    ((((s.clustersOf t).filter fun k => (s.cluster k).usable).flatMap coresOf).findSome? fun i =>
        (s.roomOn t i tt).map fun r => (i, r)).map fun x =>
      s.install x.1 tt x.2 { Workgroup.zero with terrace := t, taskType := noTask, entry := v.entry } none
        (BitVec.ofNat 64 v.entry) (entryCanes 1) []
  | _, _ => none

/-- R160, R161: the item that a distributor offers is placed, when it fits. -/
def State.placeItem (s : State) (d : Nat) (it : Item) : Option State :=
  match it.kind with
  | .steward t => (s.placeSteward t).map fun s => s.dequeue d it
  | k => (s.findParcel it.parcel).bind fun p =>
    match k with
    | .leaf => ((s.image p.terrace).taskType? p.taskType).bind fun tt => s.placeLeaf d it p tt
    | _ => s.placeAgain d it p

/-- R160: what an offer of a die's distributor comes to. -/
def State.offer (s : State) (d : Nat) : Option State := (s.headOf d).bind fun it => s.placeItem d it

/-- R160: DISTRIBUTOR_OFFER. A head that does not fit stays. -/
def execDistributorOffer (die : Nat) (s : State) : Out :=
  s.unitEvent die 4 true
    (match s.offer die with
     | some t => t
     | none => { s with freeCount := s.freeCount + 1 })

/-! ## SPAWN (R155, R156, R159, R195, R399, R431) -/

/-- R155: the fields of a parcel record as a parcel of a terrace. A record of any status that SPAWN takes starts from the
next-workgroup index that it holds: R195 says so for a status 3 or 4, and of a status 0 R155 says only that the index
is 0 (DESIGN CHOICE, log entry 74). -/
def Parcel.ofRecord (bs : List Byte) (id addr pa t v d : Nat) (parent : Option Parcel) (stamp : List Nat) :
    Parcel :=
  { id := id, addr := addr, pa := pa, terrace := t, vdev := v, die := d,
    root := (parent.map (·.root)).getD addr, launch := (parent.map (·.launch)).getD id, parent := parent.map (·.id), kind := leField bs 0 1,
    priority := leField bs 1 1, propagate := (leField bs 2 1).testBit 0,
    restartable := (leField bs 2 1).testBit 1, setLog := leField bs 3 1, taskType := leField bs 4 2,
    entry := leField bs 8 8, counter := leField bs 24 8, area := leField bs 32 8,
    areaSize := leField bs 40 4, maxCores := leField bs 44 2, maxBanks := leField bs 46 2,
    maxScratch := leField bs 48 4, energy := leField bs 52 4, count := leField bs 56 8,
    nextWg := leField bs 64 8, phaseArea := leField bs 72 8, stride := leField bs 80 4, status := 1,
    queue := leField bs 88 8, spawned := false, faulted := false, stamp := stamp, drained := false, retagged := false }

/-- R156: the fields whose override bit is 0 are the parent's; the others are clamped. -/
def Parcel.inherit (p q : Parcel) (ov : Nat) : Parcel :=
  let own (b : Nat) : Bool := ov.testBit b
  { p with
    priority := if own 0 then min p.priority q.priority else q.priority,
    propagate := if own 1 then p.propagate else q.propagate,
    restartable := if own 2 then p.restartable else q.restartable,
    area := if own 3 then p.area else q.area, areaSize := if own 3 then p.areaSize else q.areaSize,
    counter := if own 4 then p.counter else q.counter,
    maxCores := if own 5 then min p.maxCores q.maxCores else q.maxCores,
    maxBanks := if own 6 then min p.maxBanks q.maxBanks else q.maxBanks,
    maxScratch := if own 7 then min p.maxScratch q.maxScratch else q.maxScratch,
    energy := if own 8 then (if q.energy = 0 then p.energy else min p.energy q.energy) else q.energy,
    phaseArea := if own 9 then p.phaseArea else q.phaseArea,
    stride := if own 9 then p.stride else q.stride,
    taskType := if own 10 then p.taskType else q.taskType,
    entry := if own 11 then p.entry else q.entry }

/-- R155: bytes [83:0] of a record with the values that R156 leaves. The parent field takes the parent that R159 gives
(DESIGN CHOICE, log entry 64: R156 lists no such write). -/
def Parcel.fields (p : Parcel) (bs : List Byte) (parent : Nat) : List Byte :=
  let flags := (if p.propagate then 1 else 0) + (if p.restartable then 2 else 0)
  bs.take 1 ++ leBytes 1 p.priority ++ leBytes 1 flags ++ leBytes 1 p.setLog ++ leBytes 2 p.taskType
    ++ (bs.drop 6).take 2 ++ leBytes 8 p.entry ++ leBytes 8 parent ++ leBytes 8 p.counter
    ++ leBytes 8 p.area ++ leBytes 4 p.areaSize ++ leBytes 2 p.maxCores ++ leBytes 2 p.maxBanks
    ++ leBytes 4 p.maxScratch ++ leBytes 4 p.energy ++ leBytes 8 p.count ++ leBytes 8 p.nextWg
    ++ leBytes 8 p.phaseArea ++ leBytes 4 p.stride

/-- R155, R156: a record's own fields break a rule. -/
def recordBad (bs : List Byte) : Bool :=
  decide (3 < leField bs 0 1) || decide (15 < leField bs 1 1) || decide (3 < leField bs 2 1)
    || decide (4 < leField bs 3 1) || decide (4095 < leField bs 6 2) || leField bs 96 32 != 0

/-- R273: a tile-task queue's header, owned by a parcel. -/
def queueHeaderOk (bs : List Byte) (owner : Nat) : Bool :=
  leField bs 0 4 == 0x51545447 && decide (1 ≤ leField bs 4 1) && decide (leField bs 4 1 ≤ 12)
    && decide (2 ≤ leField bs 5 1) && decide (leField bs 5 1 ≤ 5) && decide (leField bs 6 1 ≤ 1)
    && (decide (leField bs 7 1 ≤ 63) || leField bs 7 1 == 255) && leField bs 8 8 == owner
    && leField bs 16 8 % 128 == 0 && leField bs 48 16 == 0

/-- R155, R195: the queue or ring header that a parcel names is in order; a parcel of another kind names none. -/
def State.queueOk (s : State) (p : Parcel) : Bool :=
  match p.kind with
  | 2 => p.queue != 0 && p.queue % 64 == 0 && decide (p.queue < 2 ^ 52)
      && (s.ctxRead p.ctx p.queue 64).any fun bs => queueHeaderOk bs p.addr
  | 3 => p.queue != 0 && p.queue % 64 == 0 && decide (p.queue < 2 ^ 52) && (s.stageRing p).isSome
  | _ => p.queue == 0

/-- R195, R431: a parcel is refused, for a cane of a privilege level. -/
def State.parcelBad (s : State) (p : Parcel) (priv : Nat) : Bool :=
  let tt := (s.image p.terrace).taskType? p.taskType
  (match tt with
   | none => true
   | some t => decide (priv < t.priv) || !t.fitsEmpty
     || ((p.kind == 1 || p.kind == 3) && decide (p.maxScratch < t.scratch)) || (decide (16 ≤ p.terrace) && t.priv != 2))
  || p.maxCores == 0 || decide (480 < p.maxCores) || decide (48 < p.maxBanks) || p.stride % 64 != 0
  || p.area % 32 != 0 || p.phaseArea % 64 != 0
  || (p.kind == 1 && p.count % 2 ^ p.setLog != 0)
  || (decide (16 ≤ p.terrace) && (p.kind == 2 || p.kind == 3 || p.setLog != 0))
  || !s.queueOk p

/-- R344: the virtual device under which a cane's parcel records are translated. -/
def State.recordVdev (s : State) (c : Cane) : Nat :=
  let w := s.wgOf c
  if w.parcel.isNone && decide (w.terrace < 16) then (s.terrace w.terrace).vdev else w.vdev

/-- The context of a cane's parcel records. -/
def State.recordCtx (s : State) (c : Cane) : Ctx :=
  ⟨(s.wgOf c).terrace, s.recordVdev c, dieOfCore c.core, none⟩

/-- R159: whether a spawned parcel is a root, has a parent, or neither. -/
def State.parentOf (s : State) (c : Cane) (field : Nat) : Option (Option Parcel) :=
  let w := s.wgOf c
  let own := w.parcel.bind s.findParcel
  let named := s.parcels.find? fun q => q.addr == field && q.kind == 0 && decide (q.status < 3)
    && q.terrace == w.terrace && q.vdev == s.recordVdev c
    && (match own with | some o => o.root == q.root | none => true)
  if field = 0 && decide (1 ≤ c.priv) then some none
  else match named with
    | some q => if field = 0 then own.map some else some (some q)
    | none => own.map some

/-- R157, R160: an accepted parcel's work enters the queue of its die. -/
def State.queueParcel (s : State) (p : Parcel) : State :=
  if (p.kind == 1 && decide (p.nextWg < p.count)) || p.kind == 3 then
    s.enqueue p.die ⟨p.id, p.priority, .leaf, 2, p.stamp⟩
  else s

/-- R367: the launch of REPLAY.ROOT takes up the mode. -/
def State.replayStart (s : State) (p : Parcel) : State :=
  if p.terrace ≥ 16 || (s.terrace p.terrace).dbg.replayRoot.toNat ≠ p.addr
      || (s.terrace p.terrace).dbg.replayMode = 0 then s
  else s.updDebug p.terrace fun b =>
    { b with replayActive := b.replayMode, replayPos := 0, replayStopped := false, runs := [] }

/-- R273: the die that a queue's tasks are served at; a die of another package counts on from 4. 0xFF is the die of
the cane that enqueues. -/
def servedAt (h : List Byte) (own : Nat) : Nat :=
  let d := leField h 7 1
  if d = 255 then own else (([0, 1, 2, 3] : List Nat).find? fun k => dieNumber k == d).getD (4 + d)

/-- R348: a task read from the QUEUED slot of a queue that a parcel names. The core that enqueued it is no longer known:
its agreement entry stays as it is. -/
def State.slotTask (s : State) (p : Parcel) (qpa slot : Nat) (h r : List Byte) : Task :=
  { id := s.nextId, terrace := p.terrace, vdev := p.vdev, die := servedAt h p.die, queue := qpa, slot := slot,
    scope := leField h 5 1, parcel := some p.id, owner := p.addr, index := leField r 84 4, core := 128 * p.die,
    record := r, status := .queued, progress := leField r 80 4, entries := [], cluster := 0, step := .loadB 0,
    bKey := [], aRow := [], ahead := none, aBlocks := [], sums := [], partials := [], loadFailed := false,
    rowFailed := false, failed := false, stopping := false, cancelled := false, doomed := false, throttled := 0, started := false,
    denied := [], agreement := .clear }

/-- R340, R348: slot i of a queue is served again where memory says that it is QUEUED. -/
def State.serveSlot (s : State) (p : Parcel) (qpa : Nat) (h : List Byte) (i : Nat) : State :=
  let va := leField h 16 8 + 128 * (i % 2 ^ leField h 4 1)
  match s.ctxTranslate p.ctx va needRW, s.ctxRead p.ctx va 128 with
  | some slot, some r =>
    if leField r 1 1 = 1 ∧ leField r 84 4 = i % 2 ^ 32 then
      { s with nextId := s.nextId + 1, tasks := s.tasks ++ [s.slotTask p qpa slot h r] }
    else s
  | _, _ => s

/-- R340, R348: a tile-task leaf's queue is served again: every slot that is QUEUED in memory, in ascending index. -/
def State.serveQueue (s : State) (p : Parcel) : State :=
  match s.ctxTranslate p.ctx p.queue needRW, s.ctxRead p.ctx p.queue 64 with
  | some qpa, some h =>
    let n := 2 ^ leField h 4 1
    let tail := leField h 24 8
    if queueHeaderOk h p.addr then
      (List.range n).foldl (fun s i => if n ≤ tail + i then s.serveSlot p qpa h (tail + i - n) else s) s
    else s
  | _, _ => s

/-- R340: tile tasks that have outlived their owner are served again with the parcel that now stands at its
record's address: a tile-task leaf's as its queue holds them, and those that a compute leaf owns as the device does. -/
def State.reviveTasks (s : State) (p : Parcel) : State :=
  let mine (t : Task) : Bool :=
    t.terrace == p.terrace && t.owner == p.addr && t.parcel.any fun q => (s.findParcel q).isNone
  if p.kind = 2 then ({ s with tasks := s.tasks.filter fun t => !mine t } : State).serveQueue p
  else { s with tasks := s.tasks.map fun t => if mine t then { t with parcel := some p.id } else t }

/-- R195: a parcel is accepted: status 1, and its work is queued. -/
def State.acceptParcel (s : State) (p : Parcel) : State :=
  let s := s.ctxWrite p.ctx (p.addr + 84) (leBytes 4 1) false
  let s := s.updParcel p.id fun p => { p with status := 1 }
  let s := match p.parent with
    | some q => s.updParcel q fun q => { q with spawned := true }
    | none => s.replayStart p
  (s.reviveTasks p).queueParcel p

/-- R195, R399: a parcel is refused: status 4; its counter is incremented as R171 gives. -/
def State.refuseParcel (s : State) (p : Parcel) : State :=
  (s.ctxWrite p.ctx (p.addr + 84) (leBytes 4 4) false).updParcel p.id fun p =>
    { p with status := 4, faulted := true }

/-- R195, R201: a parcel record's page for the issuing cane: its physical address, or what the
instruction does instead. -/
def State.recordPage (s : State) (m : Marks) (r : Nat) (need : Need) : Except State Nat :=
  let c := s.cur
  let w := s.wgOf c
  let l := firstLane c.unguarded
  let fault (s : State) : State :=
    let f : List LaneFault := [⟨l, .protection, 256, 0x0C, r⟩]
    if s.quarantines then ((s.quarantineLanes f).finishOnce m).resumeIfEmpty
    else s.stopLanes f
  if w.terrace < 16 && windowAt r != some .global then .error (fault s)
  else match s.translate c w.terrace (s.recordVdev c) r need with
    | .ok pa => if absentPackage pa || s.pathTo w.terrace (dieOfCore c.core) pa != .arrives then .error (fault s) else .ok pa
    | .miss => .error
        ((s.awaitTranslation w.terrace (s.recordVdev c) r need).updCur fun c => { c with pipe := none })
    | .deny => .error (fault s)

/-- R195: a translation that the queue or ring header of a record still misses. -/
def State.headerMiss (s : State) (p : Parcel) : Bool :=
  (p.kind == 2 || p.kind == 3) && decide (p.queue < 2 ^ 52) && decide (p.terrace < 16)
    && s.translate s.cur p.terrace p.vdev p.queue needR == .miss

/-- R195: a record whose parent is found becomes a parcel, which is accepted, refused, or, a root of a
terrace, waits for the check of its routes. -/
def State.spawnRecord (s : State) (m : Marks) (p : Parcel) (bad : Bool) (bs : List Byte)
    (parent : Option Parcel) : State :=
  if s.headerMiss p then
    (s.awaitTranslation p.terrace p.vdev p.queue needR).updCur fun c => { c with pipe := none }
  else
    let bad := bad || s.parcelBad p s.cur.priv
    let s : State := { s with nextId := s.nextId + 1, parcels := s.parcels ++ [p] }
    if bad then (s.refuseParcel p).finishOnce m
    else
      let s := s.ctxWrite p.ctx p.addr (p.fields bs ((parent.map (·.addr)).getD 0)) false
      if parent.isNone && decide (p.terrace < 16) then
        ((s.updParcel p.id fun p => { p with status := 0 }).updCur fun c =>
          { c with stage := 1, stageArg := p.id }).park .route
      else (s.acceptParcel p).finishOnce m

/-- R195: SPAWN. A poisoned record traps POISONED_DATA (DEDUCED, log entry 30). -/
def execSpawn (m : Marks) (a : BitVec 6) (s : State) : Out :=
  let c := s.cur
  let mk := c.unguarded
  let n := 2 * a.toNat
  let r := (c.uread64 n).toNat
  let w := s.wgOf c
  let d := dieOfCore c.core
  s.attemptReading (operandLanes true mk) [n, n + 1]
    [s.wide, c.beyond [n, n + 1], (c.routine == .exit, .illegalEncoding),
     (mk != 0 && r % 256 != 0, .illegalEncoding)]
    (if mk = 0 then s.finishOnce m
     else if c.stage = 1 then s.finishOnce m
     else if !c.released 5 then s.park (.release 5)
     else
       match s.recordPage m r needRW with
       | .error t => t
       | .ok pa =>
         let bs := s.dieBytes d pa 256
         let st := leField bs 84 4
         if s.poisonedAt d pa 256 then s.raise .poisonedData
         else if st ≠ 0 && st ≠ 3 && st ≠ 4 then s.raise .illegalEncoding
         else
           let make := fun (q : Option Parcel) =>
             Parcel.ofRecord bs s.nextId r pa w.terrace ((q.map (·.vdev)).getD (s.recordVdev c)) d q
               (s.causal d)
           match s.parentOf c (leField bs 16 8) with
           | none => s.spawnRecord m (make none) true bs none
           | some none => s.spawnRecord m (make none) (recordBad bs) bs none
           | some (some q) =>
             s.spawnRecord m ((make (some q)).inherit q (leField bs 6 2)) (recordBad bs) bs (some q))

/-- R399: the tag and the checksum of a die's rows for a terrace are read from the router block. -/
def State.routeTag (s : State) (d t : Nat) : Nat := leNat (Memory.readBytes (s.die d).router (128 * t + 64) 4)

/-- R399: the probes of a route check: along the rows from s to d and back. A die of another package, of which there is
none, answers no probe (log entry 23). -/
def State.routesOk (s : State) (t from_ : Nat) (ok : Nat → Bool) : Bool :=
  let ds := ([0, 1, 2, 3] : List Nat).filter fun d => (s.terrace t).part.nbdie.getLsbD (dieNumber d)
  ds.contains from_
    && (List.range 64).all (fun e => !(s.terrace t).part.nbdie.getLsbD e || ds.any fun d => dieNumber d == e)
    && ds.all (fun d => s.routeTag d t == s.routeTag from_ t && ok d
      && s.routeRow d t (dieNumber d) == 0)
    && ds.all fun d => d == from_ || (s.route t d 15 from_ == .arrives && s.route t from_ 15 d == .arrives)

/-- One bit of a CRC-32C. -/
def crcBit (x : Word) : Word := if x.getLsbD 0 then (x >>> 1) ^^^ 0x82F63B78#32 else x >>> 1
/-- R393, R398: CRC-32C of some bytes. -/
def crc32c (bs : List Byte) : Word :=
  ~~~(bs.foldl (fun x b => (List.range 8).foldl (fun y _ => crcBit y) (x ^^^ b.zeroExtend 32)) 0xFFFFFFFF#32)

/-- R398, R399: the row's checksum register holds the CRC-32C of the row. -/
def State.rowCrcOk (s : State) (d t : Nat) : Bool :=
  leNat (Memory.readBytes (s.die d).router (128 * t + 68) 4)
    == (crc32c (Memory.readBytes (s.die d).router (128 * t) 64)).toNat

/-- R399: a root's cane goes on: its SPAWN retires when it issues again. -/
def State.wakeRoute (s : State) (parcel : Nat) : State :=
  s.mapCanes fun c => if c.wait = .route && c.stageArg == parcel then { c with wait := .none } else c

/-- R399: the ROUTE_CHECK record of a refused root. -/
def State.routeRecord (s : State) (p : Parcel) : State :=
  let c := (s.canes.find? fun c => c.wait == .route && c.stageArg == p.id).getD Cane.zero
  let name := (s.image p.terrace).codeName c.pc.toNat true
  s.recordFault p.terrace p.die c.core (some p.id)
    ⟨.routeCheck, 0, 0, 0, name, 0xFFFF, 0xFFFFFFFF, 0xFF⟩ [] true

/-- R399: ROUTE_CHECK: the routes of a root are checked before its status becomes 1. -/
def execRouteCheck (parcel : Nat) (s : State) : Out :=
  match s.findParcel parcel with
  | none => .next s
  | some p =>
    .next (if p.status ≠ 0 then s
      else if !p.retagged && s.routesOk p.terrace p.die fun d => s.rowCrcOk d p.terrace then
        (s.acceptParcel p).wakeRoute parcel
      else ((s.routeRecord p).refuseParcel p).wakeRoute parcel)

/-! ## PARCEL.WAIT and completion (R171, R196) -/

/-- R196: the end of a PARCEL.WAIT: an acquire at dom scope. -/
def State.parcelWaited (s : State) (m : Marks) (past : List Nat) : State :=
  if !s.acquirable 5 past then (s.parksAs 7).park (.press 0)
  else (s.acquireL1 5).finishOnce m

/-- R196: PARCEL.WAIT. A poisoned status traps POISONED_DATA (DEDUCED, log entry 30). -/
def execParcelWait (m : Marks) (a : BitVec 6) (s : State) : Out :=
  let c := s.cur
  let mk := c.unguarded
  let n := 2 * a.toNat
  let r := (c.uread64 n).toNat
  s.attemptReading (operandLanes true mk) [n, n + 1]
    [s.wide, c.beyond [n, n + 1], (c.routine == .exit, .illegalEncoding),
     (mk != 0 && r % 256 != 0, .illegalEncoding)]
    (if mk = 0 then s.finishOnce m
     else if c.answer.isSome then s.parcelWaited m c.seen
     else
       match (s.parksAs 7).recordPage m r needR with
       | .error t => t
       | .ok pa =>
         let st := leNat ((List.range 4).map fun i => s.homeByte (pa + 84 + i))
         if s.poisoned (pa + 84) 4 then s.raise .poisonedData
         else if (st = 3 || st = 4) && !(s.parcels.any fun p => p.pa == pa) then
           s.parcelWaited m (joinClocks c.seen (s.pastOf (lineOf pa)))
         else s.park (.parcel pa))

/-- R157, R240, R273: a parcel has no more work to place. -/
def State.workPlaced (s : State) (p : Parcel) : Bool :=
  match p.kind with
  | 0 => p.spawned
  | 1 => decide (p.count ≤ p.nextWg)
  | 2 => (s.ctxRead p.ctx p.queue 64).any fun bs =>
      (leField bs 6 1).testBit 0 && leField bs 40 8 == leField bs 24 8
  | _ => match s.stageRing p with
      | some (h, bs) => h.closed && h.head == leField bs 40 8
      | none => false

/-- R171: the conditions under which a parcel completes. -/
def State.parcelDone (s : State) (p : Parcel) : Bool :=
  s.workPlaced p
    && !(s.workgroups.any fun w => w.parcel == some p.id)
    && !(s.tasks.any fun t => t.parcel == some p.id)
    && !(s.dies.any fun d => d.queue.any fun i => i.parcel == p.id && (p.kind != 3 || i.kind != .leaf))
    && !(s.parcels.any fun q => q.parent == some p.id)
    && !(s.flights.any fun f => f.parcel == some p.id)
    && !(s.heldReds.any fun h => h.parcel == some p.id)
    && !(s.posts.any fun q => q.parcel == some p.id)
    && !(s.asyncOps.any fun o => o.parcel == some p.id)

/-- R367: a parcel is the root of its terrace's recorded or replayed launch. -/
def State.replayRoot (s : State) (p : Parcel) : Bool :=
  let b := (s.terrace p.terrace).dbg
  p.parent.isNone && decide (p.terrace < 16) && b.replayActive != 0 && b.replayRoot.toNat == p.addr

/-- R172, R345: a root's completion counts as a launch completed. -/
def State.countLaunch (s : State) (p : Parcel) : State :=
  let tt := s.terrace p.terrace
  if p.parent.isSome then s
  else s.setTerrace p.terrace { tt with usage := { tt.usage with launches := tt.usage.launches + 1 } }

/-- R171: the first part of completion: status 3 or 4. -/
def State.completeStatus (s : State) (p : Parcel) : State :=
  let st := if p.faulted then 4 else 3
  ((s.countLaunch p).ctxWrite p.ctx (p.addr + 84) (leBytes 4 st) false).updParcel p.id fun p => { p with status := st }

/-- R171: the counter may be incremented: every store of the parcel is acknowledged and the counter's
home has applied what its die shows. -/
def State.counterDue (s : State) (p : Parcel) : Bool :=
  !(s.flights.any fun f => f.parcel == some p.id)
    && (p.counter == 0 || (match s.ctxTranslate p.ctx p.counter needRW with
      | some pa => s.reaches p.terrace p.die (s.homeDie pa) && s.clockCovered p.die (s.homeDie pa)
      | none => true))

/-- R171, R196: the second part: the counter's increment, a signalled release at dom scope; the parcel ends
and wakes what waits for it. -/
def State.completeCounter (s : State) (p : Parcel) : State :=
  let s := if p.counter = 0 then s else s.ctxIncrement { p.ctx with parcel := none } p.counter true
  let clock := s.causal p.die
  let s : State := { s with parcels := s.parcels.filter fun q => q.id != p.id,
                            barriers := s.barriers.filter fun b => b.bar.scope == 1
                              || (if b.bar.scope = 2 then b.bar.owner / 2 ^ 64 else b.bar.owner) != p.id,
                            dies := s.dies.map fun d =>
                              { d with queue := d.queue.filter fun i => i.parcel != p.id } }
  s.mapCanes fun c =>
    if c.wait = .parcel p.pa then
      { c with wait := .none, answer := some 1, seen := joinClocks c.seen clock }
    else c

/-- PARCEL_COMPLETE may happen. -/
def State.completeDue (s : State) (p : Parcel) : Bool :=
  if p.status = 0 then false else if p.status < 3 then s.parcelDone p else s.counterDue p

/-- R171, R172, R372: PARCEL_COMPLETE: a root's recording or replay ends, and its chunks are written; the status is
written, and then the counter is incremented. -/
def execParcelComplete (parcel : Nat) (s : State) : Out :=
  match s.findParcel parcel with
  | none => .next s
  | some p =>
    .next (if !s.completeDue p then s
      else if p.status < 3 && s.replayRoot p then s.closeReplay p.terrace
      else if p.status < 3 then s.completeStatus p
      else s.completeCounter p)

end Sys2Proof.Machine
end

