-- ==== Sys2Proof/Machine/Groups.lean ====
section
/-! DEFINITION. The workgroup group but for parcels: barriers (R189 to R191, R422), phase ends (R162 to R165,
R192, R432), register growth (R166, R167, R193), grafts (R168 to R170, R194, R301, R302), and exit-grade
requests as they reach a workgroup (R174, R314). -/

namespace Sys2Proof.Machine

/-! ## Acting for another cane -/

/-- A cane of a name becomes the present one, with its instruction set up, for the time of f. -/
def State.onCane (s : State) (id parcels : Nat) (f : State → State) : State :=
  let old := s.cur
  let iss := s.iss
  match s.findCane id with
  | none => s
  | some c =>
    let at_ (s : State) : State := { s with iss := ⟨c.pc, parcels, none, true⟩ }
    if old.id = id then { f (at_ s) with iss := iss }
    else
      let s : State := { s with cur := c, others := old :: s.others.filter fun d => d.id != id }
      let t := f (at_ s)
      let back := (t.others.find? fun d => d.id == old.id).getD { old with live := false }
      { t with cur := back, iss := iss,
               others := (t.others.filter fun d => d.id != old.id) ++ (if t.cur.live then [t.cur] else []) }

/-- R162, R169, R192: every live cane of a workgroup traps at the instruction it has arrived at. -/
def State.trapAll (s : State) (wg : Nat) (cause : Cause) : State :=
  (s.canesOf wg).foldl (fun s c =>
    s.onCane c.id (c.stageArg - c.pc.toNat) fun s =>
      (s.updCur fun c => { c with wait := .none, stage := 0, stageArg := 0, denied := [] }).trap cause) s

/-- The checks of a workgroup instruction: the limits of R188's table, then, where the cane has a lane at all, that it
runs no exit routine (R317) and the instruction's own traps. -/
def State.groupChecks (s : State) (bad : Bool) (own : List (Bool × Cause)) : List (Bool × Cause) :=
  [s.wide, (bad, .illegalEncoding)]
    ++ if s.cur.unguarded = 0 then [] else (s.cur.routine == .exit, .illegalEncoding) :: own

/-! ## Barriers (R189, R190, R422) -/

/-- R189: the place of a barrier of the issuing cane, if the cane takes part in one. -/
def State.barrierOf (s : State) (scope num : Nat) : Option BarrierId :=
  let c := s.cur
  let w := s.wgOf c
  if scope = 1 then some ⟨1, c.wg, num⟩
  else if scope = 2 then (if w.parcel.isSome && w.member.isSome then some ⟨2, w.setId, num⟩ else none)
  else if scope ≤ 5 then w.parcel.map fun p => ⟨scope, p, num⟩
  else none

/-- A barrier as it stands. -/
def State.barrier (s : State) (b : BarrierId) : Barrier :=
  (s.barriers.find? fun x => x.bar == b).getD ⟨b, 0, [], [], []⟩

/-- R190: a write of a cane is performed at a scope. -/
def Flight.performed (f : Flight) (scope : Nat) : Bool :=
  if scope = 1 then f.l2Acked || !f.inWcnt else if scope ≤ 3 then f.l2Acked else f.acked

/-- R190: the writes of a cane that are not performed at a scope. -/
def State.unperformed (s : State) (cane scope : Nat) : List Nat :=
  (s.flights.filter fun f => f.cane == some cane && !f.performed scope).map (·.id)

/-- R189, R422: a cane's arrival is recorded, with what its die has issued or applied, and a full generation
completes. -/
def State.arrive (s : State) (cane : Cane) (b : BarrierId) : State :=
  let x := s.barrier b
  let clock := s.causal (dieOfCore cane.core)
  let x := { x with arrived := cane.id :: x.arrived, past := joinClocks x.past clock }
  ({ s with barriers := x :: s.barriers.filter fun y => y.bar != b } : State).checkBarriers

/-- R189, R212: the issuing cane arrives: at once when its loads have returned and its writes are performed at the
barrier's scope, or at the wider one of a FENCE release before it (R228), else when they have and are. -/
def State.beginArrival (s : State) (b : BarrierId) : State :=
  let c := s.cur
  let g := (s.barrier b).gen
  let s := s.updCur fun c => { c with arrivals := ⟨b, g⟩ :: c.arrivals.filter fun a => a.bar != b }
  let scope := max b.scope (c.fenceScope.getD 0)
  let ws := s.unperformed c.id scope
  if ws = [] && c.outstanding == 0 then s.arrive c b
  else { s with nextId := s.nextId + 1,
                pendingArrivals := s.pendingArrivals ++ [⟨s.nextId, c.id, b, g, scope, c.outstanding, ws⟩] }

/-- R189: the generation that the issuing cane has arrived in and that has not completed. -/
def State.pendingGen (s : State) (b : BarrierId) : Option Nat :=
  (s.cur.arrivals.find? fun a => a.bar == b && decide ((s.barrier b).gen ≤ a.gen)).map (·.gen)

/-- R189: BAR.ARR. -/
def execBarArr (m : Marks) (c : BitVec 3) (n : BitVec 4) (s : State) : Out :=
  let b := s.barrierOf c.toNat n.toNat
  s.attempt (s.groupChecks (c = 0#3 || decide (5 < c.toNat)) [(b.isNone, .illegalEncoding)])
    (if s.cur.unguarded = 0 then s.finishOnce m
     else match b with
      | none => s.finishOnce m
      | some b =>
        match s.pendingGen b with
        | some g => s.park (.barrier b g)
        | none => (s.beginArrival b).finishOnce m)

/-- R190, R422: the end of a BAR.WAIT: an acquire at the barrier's scope. -/
def State.barrierPassed (s : State) (m : Marks) (b : BarrierId) : State :=
  let past := (s.barrier b).done
  if !s.acquirable b.scope past then (s.parksAs 6).park (.press 0)
  else
    ((s.updCur fun c => { c with arrivals := c.arrivals.filter (fun a => a.bar != b),
                                 seen := joinClocks c.seen past }).acquireL1 b.scope).finishOnce m

/-- R189: BAR.WAIT. -/
def execBarWait (m : Marks) (c : BitVec 3) (n : BitVec 4) (s : State) : Out :=
  let b := s.barrierOf c.toNat n.toNat
  s.attempt (s.groupChecks (c = 0#3 || decide (5 < c.toNat)) [(b.isNone, .illegalEncoding)])
    (if s.cur.unguarded = 0 then s.finishOnce m
     else match b with
      | none => s.finishOnce m
      | some b =>
        let s := if s.cur.arrivals.any fun a => a.bar == b then s else s.beginArrival b
        match s.pendingGen b with
        | some g => s.park (.barrier b g)
        | none => s.barrierPassed m b)

/-- R189: the loads before an arrival have returned, and the writes are performed at its scope. -/
def State.arrivalDue (s : State) (a : PendingArrival) : Bool :=
  a.loads == 0 && a.stores.all fun n => !(s.flights.any fun f => f.id == n && !f.performed a.scope)

/-- R189: BARRIER_ARRIVAL: an arrival is recorded once its release is performed. -/
def execBarrierArrival (n : Nat) (s : State) : Out :=
  match s.pendingArrivals.find? fun a => a.id == n with
  | none => .next s
  | some a =>
    if !s.arrivalDue a then .next s
    else
      let s : State := { s with pendingArrivals := s.pendingArrivals.filter fun x => x.id != n }
      match s.findCane a.cane with
      | none => .next s
      | some c => .next (s.arrive c a.bar)

/-! ## Exit-grade requests (R174, R314) -/

/-- R192, R194: every live cane of a workgroup has arrived at BAR.PHASE or at GRAFT. -/
def State.allArrived (s : State) (wg : Nat) : Bool :=
  let cs := s.canesOf wg
  !cs.isEmpty && ((cs.all fun c => c.wait == .phase)
    || cs.all fun c => match c.wait with | .graft _ => true | _ => false)

/-- R174, R191, R196, R234, R249, R253, R295, R315: what an exit-grade request does to a cane that waits; the
workgroup's arrivals are withdrawn unless all have arrived. -/
def State.releaseWait (s : State) (withdrawn : Bool) (c : Cane) : Cane :=
  let stop := ((s.imageOf c).ordinalAt c.pc.toNat true) != 0xFFFFFFFF
  match c.wait with
  | .phase => if withdrawn then { c with wait := .none, stageArg := 0 } else c
  | .graft _ => if withdrawn then { c with wait := .none, stageArg := 0 } else c
  | .grow _ => { c with wait := .none, stageArg := 1 }
  | .waitAddr _ _ => { c with wait := .none, answer := some 0 }
  | .tags _ _ => { c with wait := .none, answer := some 0 }
  | .batch _ => { c with wait := .none, answer := some 0 }
  | .task _ => { c with wait := .none, answer := some 0 }
  | .parcel _ => if stop then { c with wait := .none } else c
  | .service _ => if stop then { c with wait := .none } else c
  | _ => c

/-- R314: an exit-grade request reaches one workgroup. It has no effect on one already exiting; a drain ends
(R322). -/
def State.exitOne (s : State) (victim requeue : Bool) (wg : Nat) : State :=
  match s.findWg wg with
  | none => s
  | some w =>
    if w.exiting || w.parcel.isNone || decide (16 ≤ w.terrace) || (s.canesOf wg).isEmpty then s
    else
      let dl := (w.pause.map (·.1)).getD s.rtime + (s.terrace w.terrace).part.exitBound
      let all := s.allArrived wg
      let ids := (s.canesOf wg).map (·.id)
      let s := (s.updWg wg fun w => { w with request := some ⟨true, dl, victim, requeue, none⟩ }).unmonitor
        fun c => ids.contains c && !all
      let s := s.mapCanes fun c => if c.live && c.wg == wg then s.releaseWait (!all) c else c
      if (s.canesOf wg).any fun c => c.wait == .fault then s.overrun wg .exitOverrun none else s

/-- R154, R314: a request on a member reaches the whole cooperative set. -/
def State.requestExit (s : State) (victim requeue : Bool) (wg : Nat) : State :=
  match s.findWg wg with
  | none => s
  | some w =>
    if w.member.isSome then
      ((s.workgroups.filter fun x => x.setId == w.setId && x.member.isSome).map (·.id)).foldl
        (fun s i => s.exitOne victim requeue i) s
    else s.exitOne victim requeue wg

/-! ## Writing phase records (R162 to R165, R192, R432) -/

/-- What a phase or graft record is made of. -/
structure RecordPlan where
  kind : Nat
  canes : Nat
  name : CodeName
  pc : Nat
  next : Nat
  graft : Nat
  carry : BitVec 256
  ranges : List (Nat × Nat)
  deriving DecidableEq, Repr

/-- R164: the bytes of a record, but for an exit record's control blocks. -/
def RecordPlan.size (r : RecordPlan) : Nat := 64 + r.canes * sectionBytes r.carry + rangeBytes r.ranges

/-- R163: a record's header. -/
def RecordPlan.header (r : RecordPlan) (status extra : Nat) : List Byte :=
  leBytes 4 0x50534850 ++ leBytes 1 status ++ leBytes 1 r.kind ++ leBytes 1 r.canes ++ leBytes 1 0
    ++ leBytes 4 r.name.region ++ leBytes 4 r.name.ordinal ++ leBytes 8 r.pc ++ leBytes 2 r.next
    ++ leBytes 2 r.graft ++ leBytes 4 (rangeBytes r.ranges) ++ leBytes 28 r.carry.toNat
    ++ leBytes 4 (r.size + extra)

/-- R164: a section's head. -/
def Cane.sectionHead (c : Cane) (pc ordinal state : Nat) : List Byte :=
  leBytes 8 pc ++ leBytes 4 ordinal ++ leBytes 1 c.idx ++ leBytes 1 state ++ leBytes 2 0
    ++ leBytes 4 c.mode.toNat ++ ([1, 2, 3, 4, 5, 6, 7] : List Nat).flatMap fun i =>
      leBytes 4 (c.pred i).toNat

/-- R164: a section's carried words. -/
def Cane.carriedWords (c : Cane) (carry : BitVec 256) : List Byte :=
  ((List.range 128).flatMap fun i =>
      if carry.getLsbD i then lanes.flatMap fun l => leBytes 4 (c.V i l).toNat else [])
    ++ ((List.range 16).flatMap fun i =>
      if carry.getLsbD (128 + i) then
        leBytes 8 (c.aff i).base.toNat ++ leBytes 4 (c.aff i).stride.toNat ++ leBytes 4 0
      else [])
    ++ (if carry.getLsbD 152 then leBytes 8 c.link.toNat else [])

/-- The head of a section of no cane: state 2. -/
def emptySection (idx : Nat) (carry : BitVec 256) : List Byte :=
  leBytes 13 (idx * 256 ^ 12) ++ leBytes 1 2 ++ List.replicate (34 + carriedBytes carry) 0#8

/-- R164: the sections of a record, in ascending cane number; pc is a cane's resume PC and ord its
ordinal. -/
def State.sections (s : State) (wg : Nat) (r : RecordPlan) (pc ord : Cane → Nat) : List Byte :=
  (List.range r.canes).flatMap fun i =>
    match (s.canesOf wg).find? fun c => c.idx == i with
    | some c => c.sectionHead (pc c) (ord c) 0 ++ c.carriedWords r.carry
    | none => emptySection i r.carry

/-- The carried scratch of a workgroup. -/
def Workgroup.carriedScratch (w : Workgroup) (ranges : List (Nat × Nat)) : List Byte :=
  ranges.flatMap fun r => Memory.readBytes w.scratch r.1 r.2

/-- R164: the canes that a workgroup's records have sections for. -/
def State.sectionCount (s : State) (w : Workgroup) : Nat :=
  (((s.image w.terrace).taskType? w.taskType).map (·.canes)).getD w.ncanes

/-- The lowest-numbered live cane of a workgroup. -/
def State.lowestCane (s : State) (wg : Nat) : Option Cane :=
  (List.range 32).findSome? fun i => (s.canesOf wg).find? fun c => c.idx == i

/-- R162, R192: the phase record of a workgroup that has arrived at BAR.PHASE. -/
def State.phasePlan (s : State) (w : Workgroup) : RecordPlan :=
  let im := s.image w.terrace
  let c := (s.lowestCane w.id).getD Cane.zero
  let r := im.regionAt c.pc.toNat
  let next := (((im.taskType? w.taskType).bind (·.next)).getD w.taskType)
  { kind := 0, canes := s.sectionCount w, name := im.codeName c.pc.toNat true, pc := c.stageArg, next := next,
    graft := 0, carry := (r.map (·.carry)).getD 0, ranges := (r.map (·.ranges)).getD [] }

/-- R169: the fallback record of a workgroup that has arrived at GRAFT. -/
def State.graftPlan (s : State) (w : Workgroup) (g : Nat) (gr : Graft) : RecordPlan :=
  let im := s.image w.terrace
  let c := (s.lowestCane w.id).getD Cane.zero
  { kind := 2, canes := s.sectionCount w, name := im.codeName c.pc.toNat true, pc := im.text + gr.entry,
    next := gr.taskType, graft := g, carry := gr.carry, ranges := gr.ranges }

/-- How the pages of a record translate for writing (R432). -/
inductive Pages where
  | ok
  | refused
  /-- A page misses, in stage 1 or (true) stage 2. -/
  | miss (page : Nat) (second : Bool)
  deriving DecidableEq, Repr

/-- R432: one page of a record, for a workgroup's canes. -/
def State.recordPageAt (s : State) (w : Workgroup) (page : Nat) : Pages :=
  let x := w.ctx
  if 2 ^ 52 ≤ page * 65536 then .refused
  else if x.terrace ≥ 16 then .ok
  else if (s.canesOf w.id).any fun c => c.denied.contains page then .refused
  else match s.walk x.die x.terrace x.vdev (page * 65536) with
    | .ok e => if e.admits needW && !s.inUsageLog (e.pa + (page * 65536 - e.va)) then .ok else .refused
    | .noRoot => .refused
    | .miss1 => .miss page false
    | .miss2 => .miss page true

/-- R432: the pages of a record: the first that is not in order. -/
def State.recordPages (s : State) (w : Workgroup) (addr n : Nat) : Pages :=
  let first := addr / 65536
  ((List.range ((addr + n - 1) / 65536 + 1 - first)).map fun i => s.recordPageAt w (first + i)).foldl
    (fun r p => if r = .ok then p else r) .ok

/-- R325, R432: a miss of a record's page is queued once as a translation entry; without a queue it is
refused. -/
def State.postRecordMiss (s : State) (w : Workgroup) (page : Nat) (second : Bool) : State :=
  let q := if second then mgmt else w.terrace
  let pending := s.transEntries.any fun e =>
    e.terrace == w.terrace && e.vdev == w.vdev && e.page == page && e.access == 1
  if pending then s
  else if (s.terrace q).faultQueue.isNone then
    s.mapCanes fun c => if c.live && c.wg == w.id then { c with denied := page :: c.denied } else c
  else match s.queueRoom q (dieOfCore w.core) with
    | none => s
    | some (x, f, produced) =>
      let s := s.queueAppend x f produced (transBytes 1 (if second then w.terrace else 0) page
        (s.parcelAddr w.parcel) w.linear)
      { s with transEntries := s.transEntries ++
                 [⟨s.nextId, q, produced, w.terrace, w.vdev, page, 1⟩],
               nextId := s.nextId + 1 }

/-- R432: the pages of a record and where they lie; a record that has passed its check keeps what it found. -/
def State.pageMap (s : State) (w : Workgroup) (addr n : Nat) : List (Nat × Nat) :=
  w.recordMap.getD ((List.range ((addr + n - 1) / 65536 + 1 - addr / 65536)).filterMap fun i =>
    let page := addr / 65536 + i
    (s.ctxTranslate w.ctx (page * 65536) needW).map fun pa => (page, pa))

/-- Bytes written through the pages of a record. -/
def State.mapWrite (s : State) (x : Ctx) (m : List (Nat × Nat)) (va : Nat) (bytes : List Byte) : State :=
  (splitLines va bytes).foldl (fun s c =>
    match m.find? fun p => p.1 == c.1 / 65536 with
    | some p =>
      let pa := p.2 + c.1 % 65536
      s.issueWrite x.die x.terrace none x.parcel false false pa c.2
    | none => s) s

/-- R162, R432: a record is written whole, and then its status COMPLETE. -/
def State.writeRecord (s : State) (w : Workgroup) (r : RecordPlan) (addr : Nat) (pc ord : Cane → Nat) :
    State :=
  let bytes := r.header 1 0 ++ s.sections w.id r pc ord ++ w.carriedScratch r.ranges
  let m := s.pageMap w addr r.size
  (s.mapWrite w.ctx m addr bytes).mapWrite w.ctx m (addr + 4) [2#8]

/-- R432: how the pages of a workgroup's record stand: a passed check is not made again. -/
def State.recordCheck (s : State) (w : Workgroup) (addr n : Nat) : Pages :=
  if w.recordMap.isSome then .ok else s.recordPages w addr n

/-- R432: the check of a record's pages has passed: it is written with what the check found. -/
def State.keepPages (s : State) (w : Workgroup) (addr n : Nat) : State :=
  let m := s.pageMap w addr n
  s.updWg w.id fun w => { w with recordMap := some m }

/-- R162, R165: after its record, a workgroup leaves and its next phase is queued. -/
def State.leaveForPhase (s : State) (w : Workgroup) (p : Parcel) : State :=
  let stamp := s.causal (dieOfCore w.core)
  ((s.freeWorkgroup w.id).enqueue p.die ⟨p.id, p.priority, .phase w.linear, s.levelOf w, stamp⟩).checkBarriers

/-! ## BAR.PHASE (R162, R192) -/

/-- R192: the checks at a cane's BAR.PHASE or GRAFT that its workgroup and stack make. -/
def State.soloParcel (s : State) : Bool := (((s.wgOf s.cur).parcel.bind s.findParcel).map (·.setLog)) == some 0

/-- R165: the highest carried V register lies below a number. -/
def carryFits (carry : BitVec 256) (regs : Nat) : Bool :=
  (List.range 128).all fun i => !carry.getLsbD i || decide (i < regs)

/-- Every range ends within some bytes. -/
def rangesFit (rs : List (Nat × Nat)) (n : Nat) : Bool := rs.all fun r => decide (r.1 + r.2 ≤ n)

/-- R164, R165, R192: the record fits its stride and the next task type meets R165. -/
def State.phaseOk (s : State) (w : Workgroup) (p : Parcel) : Bool :=
  let im := s.image w.terrace
  let r := s.phasePlan w
  decide (r.size ≤ p.stride) && match im.taskType? r.next with
    | some t => t.canes == r.canes && carryFits r.carry t.regs && rangesFit r.ranges t.scratch && t.fitsEmpty
    | none => false

/-- R192, R194: what the last arrival of a workgroup comes to: a cause for every live cane, or none. -/
def State.lastArrival (s : State) (w : Workgroup) (p : Parcel) : Option Cause :=
  let im := s.image w.terrace
  let cs := s.canesOf w.id
  match cs.head?.map Cane.wait with
  | some .phase =>
    let r := (cs.head?.bind fun c => im.regionAt c.pc.toNat).map (·.id)
    if !(cs.all fun c => c.wait == .phase && ((im.regionAt c.pc.toNat).map (·.id)) == r) then
      some .illegalEncoding
    else if !s.phaseOk w p then some .illegalEncoding else none
  | some (.graft g) =>
    if !(cs.all fun c => c.wait == .graft g) then some .illegalEncoding
    else match (im.grafts[g]?) with
      | none => some .illegalEncoding
      | some gr => match im.taskType? gr.taskType with
        | none => some .illegalEncoding
        | some t =>
          if carryFits gr.carry t.regs && rangesFit gr.ranges t.scratch && t.fitsEmpty then none
          else some .illegalEncoding
  | _ => none

/-- R192, R194: every live cane of a workgroup stands arrived. -/
def State.everyArrived (s : State) (wg : Nat) : Bool :=
  let cs := s.canesOf wg
  !cs.isEmpty && cs.all fun c => match c.wait with | .phase | .graft _ => true | _ => false

/-- R192, R194: the issuing cane arrives; the last live cane's arrival is judged. -/
def State.arriveAt (s : State) (w : Wait) : State :=
  let wg := s.cur.wg
  let s := ((s.charge 0 1 0).updCur fun c => { c with stageArg := s.fall.toNat }).park w
  if !s.everyArrived wg then s
  else match s.findWg wg with
    | none => s
    | some g => match g.parcel.bind s.findParcel with
      | none => s
      | some p => match s.lastArrival g p with
        | some cause => s.trapAll wg cause
        | none => s

/-- R174: a cane arrives, unless an exit-grade request is pending on its workgroup. -/
def State.arriveOrStand (s : State) (w : Wait) : State :=
  if (s.wgOf s.cur).exiting then s.park .withheld else s.arriveAt w

/-- R192: BAR.PHASE. -/
def execBarPhase (m : Marks) (s : State) : Out :=
  let c := s.cur
  s.attempt (s.groupChecks false
    [((s.wgOf c).parcel.isNone, .illegalEncoding), (c.stack != [], .divergeDepth),
     (c.arrivals != [], .illegalEncoding), (!s.soloParcel, .illegalEncoding)])
    (if c.unguarded = 0 then s.finishOnce m else s.arriveOrStand .phase)

/-- R162 step 1, R265: the copies into a workgroup's scratch have completed and its writes are performed at
a scope. -/
def State.settled (s : State) (wg scope : Nat) : Bool :=
  !s.scratchBusy wg && (s.canesOf wg).all fun c => c.released scope

/-- R162, R432: a workgroup at its phase end: pages that miss are queued, a refusal traps, and once the
writes are performed the record is written and the workgroup leaves. -/
def State.phaseEnd (s : State) (w : Workgroup) (p : Parcel) : State :=
  let r := s.phasePlan w
  let addr := p.phaseRecord w.linear
  match s.recordCheck w addr r.size with
  | .refused => s.trapAll w.id .protection
  | .miss page second => s.postRecordMiss w page second
  | .ok =>
    if !s.settled w.id 5 then s.keepPages w addr r.size
    else
      let im := s.image w.terrace
      (s.writeRecord w r addr (·.stageArg) fun c => im.ordinalAt c.pc.toNat true).leaveForPhase w p

/-- R162: PHASE_END. -/
def execPhaseEnd (wg : Nat) (s : State) : Out :=
  match s.findWg wg with
  | none => .next s
  | some w => match w.parcel.bind s.findParcel with
    | none => .next s
    | some p =>
      .next (if !s.everyArrived wg then s
        else match s.lastArrival w p with
          | some cause => s.trapAll wg cause
          | none => if (s.canesOf wg).all (fun c => c.wait == .phase) then s.phaseEnd w p else s)

/-! ## GROW, GROW.TRY, SHRINK (R166, R167, R193) -/

/-- R166: k units more for a cane: its extent 1 grown in place, or created. -/
def State.growRoom (s : State) (c : Cane) (k : Nat) : Option (Nat × Nat) :=
  let core := s.core c.core
  if !core.stripeOpen c.stripe then none
  else if c.ext1.2 = 0 then (s.freeRun c.core c.stripe k []).map fun a => (a, k)
  else
    let a := c.ext1.1 + c.ext1.2
    if a + k ≤ 256 && (List.range k).all fun j => !s.unitTaken c.core c.stripe (a + j) then
      some (c.ext1.1, c.ext1.2 + k)
    else none

/-- Registers at and above a number are 0 and hold no poison. -/
def Cane.clearAbove (c : Cane) (n : Nat) : Cane :=
  { c with v := c.v.take n, rowPoison := c.rowPoison.filter fun r => decide (r / 4 < n) }

/-- R166: a cane's window grows into an extent; the new registers are 0. -/
def Cane.grown (c : Cane) (k : Nat) (ext : Nat × Nat) : Cane :=
  { c.clearAbove c.nreg with ext1 := ext, nreg := c.nreg + 8 * k }

/-- R193: the window would pass 128 registers. -/
def Cane.growBad (c : Cane) (k : Nat) : Bool × Cause :=
  (c.answer.isNone && decide (128 < c.nreg + 8 * k), .illegalEncoding)

/-- R166, R174: GROW: it is granted at once, or parks; one whose parked request an exit-grade request has abandoned, or
that would park under one, stands unissued. -/
def execGrow (m : Marks) (k : BitVec 4) (s : State) : Out :=
  s.attempt (s.groupChecks (k = 0#4) [s.cur.growBad k.toNat])
    (if s.cur.unguarded = 0 then s.finishOnce m
     else if s.cur.answer.isSome then s.finishOnce m
     else if (s.wgOf s.cur).exiting && s.cur.stageArg != 0 then (s.parksAs 8).park .withheld
     else match s.growRoom s.cur k.toNat with
      | some e => (s.updCur fun c => c.grown k.toNat e).finishOnce m
      | none => (s.parksAs 8).park (if (s.wgOf s.cur).exiting then .withheld else .grow k.toNat))

/-- R166: GROW.TRY. -/
def execGrowTry (m : Marks) (d : BitVec 3) (k : BitVec 4) (s : State) : Out :=
  let mk := s.cur.unguarded
  s.attempt (s.groupChecks (k = 0#4) [s.cur.growBad k.toNat])
    (if mk = 0 then s.finishOnce m
     else match s.growRoom s.cur k.toNat with
      | some e => (s.updCur fun c => (c.grown k.toNat e).setP mk d.toNat 0xFFFFFFFF#32).finishOnce m
      | none => (s.updCur fun c => c.setP mk d.toNat 0).finishOnce m)

/-- R166: the top k units are freed, from extent 1 first, and scrubbed. -/
def Cane.shrunk (c : Cane) (k : Nat) : Cane :=
  let n := c.nreg - 8 * k
  let a := min k c.ext1.2
  { c.clearAbove n with nreg := n, ext1 := (c.ext1.1, c.ext1.2 - a), ext0 := (c.ext0.1, c.ext0.2 - (k - a)) }

/-- R166, R193: SHRINK. -/
def execShrink (m : Marks) (k : BitVec 4) (s : State) : Out :=
  let c := s.cur
  s.attempt (s.groupChecks (k = 0#4) [(decide (c.nreg < 8 + 8 * k.toNat), .illegalEncoding)])
    (if c.unguarded = 0 then s.finishOnce m
     else (s.updCur fun c => c.shrunk k.toNat).finishOnce m)

/-- The units a cane parked in GROW asks for. -/
def Cane.growAsk (c : Cane) : Option Nat :=
  match c.wait with
  | .grow k => some k
  | _ => none

/-- R166: a parked request can be granted now. -/
def State.grantable (s : State) (c : Cane) : Option (Nat × Nat) := c.growAsk.bind fun k => s.growRoom c k

/-- R166: GROW_GRANT: parked requests of a core that can be granted are, in the order of R150. -/
def execGrowGrant (cane : Nat) (s : State) : Out :=
  match s.findCane cane with
  | none => .next s
  | some c =>
    .next (match s.grantable c with
      | none => s
      | some e =>
        if s.canes.all fun d => !(d.core == c.core && d.id != c.id && (s.grantable d).isSome && s.before d c) then
          s.updCane cane fun c => { c.grown ((c.growAsk).getD 0) e with wait := .none, answer := some 1 }
        else s)

/-- R167: the workgroup that a core gives up: the lowest priority, and then the one placed last; one already
exiting is skipped (R322). -/
def lowestLast : List Workgroup → Option Workgroup
  | [] => none
  | w :: ws => match lowestLast ws with
    | some v => some (if w.priority < v.priority || (w.priority == v.priority && decide (v.id < w.id)) then w
        else v)
    | none => some w

/-- R167: every resident cane of a core is parked in GROW and none can be granted. -/
def State.growStuck (s : State) (core : Nat) : Bool :=
  let cs := s.canes.filter fun c => c.core == core
  !cs.isEmpty && cs.all fun c => c.growAsk.isSome && (s.grantable c).isNone

/-- R167: the victim is pre-empted at exit grade; the only workgroup of a core is not queued again, and its
fault domain receives the record. The record of a victim that is queued again stands in the core sample alone (DESIGN
CHOICE, log entry 64). -/
def State.growVictim (s : State) (w : Workgroup) (only : Bool) : State :=
  let c := (s.lowestCane w.id).getD Cane.zero
  let name := (s.image w.terrace).codeName c.pc.toNat true
  (s.recordFault w.terrace (dieOfCore w.core) w.core w.parcel
    ⟨.growVictim, 0, 0, c.active, name, c.idx, w.linear, c.slot⟩ [] only).requestExit true (!only) w.id

/-- R167: GROW_VICTIM_SELECT. -/
def execGrowVictimSelect (core : Nat) (s : State) : Out :=
  let here := s.workgroups.filter fun w => w.core == core && !(s.canesOf w.id).isEmpty
  s.unitEvent core 512 (s.growStuck core)
    (match lowestLast (here.filter fun w => !w.exiting && w.parcel.isSome) with
     | some w => s.growVictim w (decide (here.length = 1))
     | none => s)

/-! ## GRAFT (R168 to R170, R194, R301, R302) -/

/-- R194: GRAFT. -/
def execGraft (m : Marks) (g : BitVec 13) (s : State) : Out :=
  let c := s.cur
  let im := s.imageOf c
  let gr := im.grafts[g.toNat]?
  let priv := ((gr.bind fun x => im.taskType? x.taskType).map (·.priv)).getD 0
  s.attempt (s.groupChecks false
    [((s.wgOf c).parcel.isNone, .illegalEncoding), (gr.isNone, .illegalEncoding), (c.stack != [], .divergeDepth),
     (c.arrivals != [] || !s.soloParcel, .illegalEncoding), (decide (c.priv < priv), .privilege)])
    (if c.unguarded = 0 then s.finishOnce m else s.arriveOrStand (.graft g.toNat))

/-- R147: the extents of a cane, up to two. -/
abbrev Extents := (Nat × Nat) × (Nat × Nat)

/-- The runs of some units in ascending order. -/
def runsOf : List Nat → List (Nat × Nat)
  | [] => []
  | u :: us => match runsOf us with
    | (a, n) :: rs => if a = u + 1 then (u, n + 1) :: rs else (u, 1) :: (a, n) :: rs
    | [] => [(u, 1)]

/-- Some runs without the first n units of one of them. -/
def takeUnits (rs : List (Nat × Nat)) (r : Nat × Nat) (n : Nat) : List (Nat × Nat) :=
  if r.2 = n then rs.erase r else rs.map fun q => if q = r then (r.1 + n, r.2 - n) else q

/-- R147: the extents that a cane of n units may have at the starts of some runs, in one run or in two, each with what it
leaves of them. -/
def extentChoices (n : Nat) (rs : List (Nat × Nat)) : List (Extents × List (Nat × Nat)) :=
  (rs.filter fun r => decide (n ≤ r.2)).map (fun r => (((r.1, n), (0, 0)), takeUnits rs r n))
  ++ rs.flatMap fun r => (List.range (min n (r.2 + 1))).flatMap fun a =>
    if a = 0 then []
    else (rs.filter fun q => q != r && decide (n - a ≤ q.2)).map fun q =>
      (((r.1, a), (q.1, n - a)), takeUnits (takeUnits rs r a) q (n - a))

/-- The extents of k canes of n units each over some runs, such that what they leave serves what follows. -/
def layOut {α : Type} (n : Nat) (after : List Extents → Option α) : Nat → List (Nat × Nat) → List Extents → Option α
  | 0, _, es => after es
  | k + 1, rs, es =>
    if (rs.map (·.2)).sum < n * (k + 1) then none
    else (extentChoices n rs).findSome? fun x => layOut n after k x.2 (es ++ [x.1])

/-- A unit lies in a cane's extents. -/
def inExtents (e : Extents) (u : Nat) : Bool := inRun e.1 u || inRun e.2 u

/-- R169: the units that the successors of n canes with a predecessor and of m without one take in a stripe: the first in
the predecessor's rows with the free rows adjacent to them, the others in any free rows that are left. Of the layouts
that fit, one within the predecessor's rows is preferred (DESIGN CHOICE, log entry 74: R169 chooses none). -/
def State.graftRows (s : State) (w : Workgroup) (stripe units n m : Nat) : Option (List Extents × List Extents) :=
  let all := List.range 256
  let own (u : Nat) : Bool := (s.canesOf w.id).any fun c => inExtents (c.ext0, c.ext1) u
  let open_ (u : Nat) : Bool := own u || !s.unitTaken w.core stripe u
  let near (u : Nat) : Bool := all.any fun o => own o && (List.range (max u o + 1 - min u o)).all fun i => open_ (min u o + i)
  if !(s.core w.core).stripeOpen stripe then none
  else
    let rest (es : List Extents) : Option (List Extents × List Extents) :=
      layOut units (fun fs => some (es, fs)) m (runsOf (all.filter fun u => open_ u && !(es.any fun e => inExtents e u))) []
    (layOut units rest n (runsOf (all.filter own)) []).orElse fun _ => layOut units rest n (runsOf (all.filter near)) []

/-- R170: a successor cane takes what it inherits from its predecessor, with the counters of the stores that
stay on their way. -/
def Cane.inherit (c p : Cane) (carry : BitVec 256) : Cane :=
  let c := (List.range 128).foldl (fun (c : Cane) i =>
    if carry.getLsbD i then { c with v := setI [] c.v i (p.row i) } else c) c
  let c := (List.range 16).foldl (fun (c : Cane) i =>
    if carry.getLsbD (128 + i) then c.setA i (p.aff i) else c) c
  { c with
    p := (List.range 8).map fun i => if i ≠ 0 && carry.getLsbD (143 + i) then p.pred i else 0,
    mode := if carry.getLsbD 151 then p.mode else 0, link := if carry.getLsbD 152 then p.link else 0,
    rowPoison := p.rowPoison.filter fun r => carry.getLsbD (r / 4), seen := p.seen, id := p.id,
    wcnt := p.wcnt, dcnt := p.dcnt, hcnt := p.hcnt, outstanding := p.outstanding,
    outPower := p.outPower }

/-- R170: a cane of a successor at its entry, in a slot with its extents. -/
def State.graftCane (s : State) (w : Workgroup) (t : TaskType) (entry : Dword) (stripe id idx slot : Nat) (e : Extents)
    (seen : List Nat) : Cane :=
  { Cane.start id w.id idx w.core slot stripe e.1 t.regs t.priv w.linear entry (s.cycleOf w.core) seen with ext1 := e.2 }

/-- R370: the canes of a workgroup beyond a count depart: a replay checks them. -/
def State.surplusRetired (s : State) (w : Workgroup) (n : Nat) : State :=
  ((s.canesOf w.id).filter fun c => decide (n ≤ c.idx)).foldl State.replayRetired s

/-- R170: the canes of a workgroup beyond a count leave their core. -/
def State.dropSurplus (s : State) (w : Workgroup) (n : Nat) : State :=
  let gone (c : Cane) : Bool := c.wg == w.id && decide (n ≤ c.idx)
  { s with cur := if gone s.cur then { s.cur with live := false } else s.cur,
           others := s.others.filter fun c => !gone c }

/-- R169, R170: the successor's canes, when the predecessor's stripe and the core's slots hold them: each predecessor
cane of a number below the target's count goes on as its successor's, the surplus leaves, and the rest are new. -/
def State.graftCanes (s : State) (w : Workgroup) (t : TaskType) (carry : BitVec 256) (entry : Dword) (stripe : Nat) :
    Option State :=
  let heirs := (List.range t.canes).filterMap fun i => (s.canesOf w.id).find? fun c => c.idx == i
  let fresh := (List.range t.canes).filter fun i => !((s.canesOf w.id).any fun c => c.idx == i)
  (s.graftRows w stripe t.units heirs.length fresh.length).bind fun rows =>
    let s := (s.surplusRetired w t.canes).dropSurplus w t.canes
    let slots := s.freeSlots w.core
    if slots.length < fresh.length then none
    else
      let next (c : Cane) : Cane := match (heirs.zip rows.1).find? fun x => x.1.id == c.id with
        | some x => (s.graftCane w t entry stripe c.id c.idx c.slot x.2 c.seen).inherit c carry
        | none => c
      let new := ((fresh.zip rows.2).zipIdx).map fun x =>
        s.graftCane w t entry stripe (s.nextId + x.2) x.1.1 (getI 0 slots x.2) x.1.2 []
      let s := s.mapCanes fun c => if c.live && c.wg == w.id then next c else c
      some { s with nextId := s.nextId + new.length, others := s.others ++ new }

/-- R169: where a successor's scratch lies: in its predecessor's with free bytes after it, or, without one,
in the first free run. -/
def State.graftScratch (s : State) (w : Workgroup) (n : Nat) : Option Nat :=
  let k := s.core w.core
  if w.scrSize = 0 then s.scratchRun w.core k n
  else if n ≤ w.scrSize then some w.scrBase
  else
    let lo := w.scrBase + w.scrSize
    let hi := w.scrBase + n
    if hi ≤ k.scratchBytes && s.workgroups.all fun x =>
        x.id == w.id || x.core != w.core || x.scrSize == 0
          || decide (hi ≤ x.scrBase) || decide (x.scrBase + x.scrSize ≤ lo) then some w.scrBase
    else none

/-- R170: the tensor ids of a workgroup outside a graft record's bitmap are cleared. -/
def State.clearTids (s : State) (w : Workgroup) (keep : BitVec 256) : State :=
  { s with dies := s.dies.map fun d =>
      { d with tensors := d.tensors.filter fun e => e.owner != w.owner || keep.getLsbD e.tid } }

/-- R168 steps 4 to 6: the graft in place, when R169 allows it. -/
def State.graftInPlace (s : State) (w : Workgroup) (gr : Graft) (t : TaskType) : Option State :=
  let im := s.image w.terrace
  let k := s.core w.core
  let name := t.dict.map fun o => (w.terrace, o)
  let stripe := ((s.lowestCane w.id).map (·.stripe)).getD 0
  let entry : Dword := BitVec.ofNat 64 (im.text + gr.entry)
  if !sameRoles k.roles t.roles then none
  else match s.graftScratch w t.scratch, s.dictRoom w.core name with
    | some base, some load =>
      (s.graftCanes w t gr.carry entry stripe).map fun s =>
        let keep (a : Nat) : Bool := gr.ranges.any fun r => decide (r.1 ≤ a) && decide (a < r.1 + r.2)
        let orphan (o : AsyncOp) : AsyncOp := if o.wg = w.id then { o with cane := none } else o
        let s : State := { s with asyncOps := s.asyncOps.map orphan }
        let r : Room := ⟨stripe, [], base, load⟩
        let l1 := (s.core w.core).l1
        let launch := (s.core w.core).launch
        let s := s.prepareCore w.core t r w.terrace launch
        let s := s.setCore w.core { s.core w.core with icache := [], l1 := l1 }
        let s := s.updWg w.id fun x =>
          { x with taskType := gr.taskType, ncanes := t.canes, scrBase := base, scrSize := t.scratch,
                   scratch := x.scratch.filter fun c => keep c.1,
                   scrPoison := x.scrPoison.filter fun g => keep (32 * g), entry := im.text + gr.entry }
        let wait : Wait := if load.isSome then .fetch else .none
        (s.mapCanes fun c => if c.live && c.wg == w.id then { c with wait := wait } else c).clearTids w gr.tids
    | _, _ => none

/-- R169, R432: the graft falls back to a phase record of kind 2. -/
def State.graftFallback (s : State) (w : Workgroup) (p : Parcel) (g : Nat) (gr : Graft) : State :=
  let r := s.graftPlan w g gr
  let addr := p.phaseRecord w.linear
  let im := s.image w.terrace
  if p.stride < r.size then s.trapAll w.id .illegalEncoding
  else match s.recordCheck w addr r.size with
    | .refused => s.trapAll w.id .protection
    | .miss page second => s.postRecordMiss w page second
    | .ok =>
      if !s.settled w.id 5 then s.keepPages w addr r.size
      else
        let s := s.surplusRetired w (((im.taskType? gr.taskType).map (·.canes)).getD 0)
        ((s.writeRecord w r addr (fun _ => im.text + gr.entry) fun c =>
          im.ordinalAt c.pc.toNat true).clearTids w gr.tids).leaveForPhase w p

/-- R168: a graft whose canes have all arrived: once the stores are released at wg scope and the copies on
the workgroup's scratch have completed, in place or by fallback. A fallback whose record's pages have passed stands. -/
def State.graftExecute (s : State) (w : Workgroup) (p : Parcel) (g : Nat) : State :=
  let im := s.image w.terrace
  match im.grafts[g]? with
  | none => s
  | some gr => match im.taskType? gr.taskType with
    | none => s
    | some t =>
      if !s.settled w.id 1 then s
      else match (if w.recordMap.isSome then none else s.graftInPlace w gr t) with
        | some s => s.checkBarriers
        | none => s.graftFallback w p g gr

/-- R168: GRAFT_EXECUTE. -/
def execGraftExecute (wg : Nat) (s : State) : Out :=
  match s.findWg wg with
  | none => .next s
  | some w => match w.parcel.bind s.findParcel, (s.lowestCane wg).map Cane.wait with
    | some p, some (.graft g) =>
      .next (if !s.everyArrived wg then s
        else match s.lastArrival w p with
          | some cause => s.trapAll wg cause
          | none => s.graftExecute w p g)
    | _, _ => .next s

end Sys2Proof.Machine
end

