-- ==== Sys2Proof/Machine/Exits.lean ====
section
/-! DEFINITION. Pre-emption (R313 to R322): drain-grade requests, vectoring into exit routines, the decision
on an exit, and its overruns. -/

namespace Sys2Proof.Machine

/-! ## Vectoring (R315, R316, R433) -/

/-- R315: the issuing cane stands at a stop point at which it is vectored. -/
def State.vectorDue (s : State) : Bool :=
  let c := s.cur
  let w := s.wgOf c
  match (s.imageOf c).regionAt c.pc.toNat with
  | none => false
  | some r =>
    w.exiting && c.live && s.iss.stop && c.pc == s.iss.addr && c.wait == .none && c.stage == 0
      && c.answer.isNone && c.routine == .none && !c.vectored && c.arrivals == [] && !r.routine
      && (match w.exitRec with | some e => e.region == r.id | none => true)

/-- R316: a cane's control block. -/
def Cane.controlBlock (c : Cane) : List Byte :=
  let entry (e : StackEntry) : List Byte :=
    leBytes 8 e.pc.toNat ++ leBytes 4 e.mask.toNat ++ leBytes 1 (if e.kind = .join then 0 else 1)
      ++ leBytes 3 0
  let body := c.stack.reverse.flatMap entry
  leBytes 4 c.qmask.toNat ++ leBytes 4 c.recon.toNat ++ leBytes 1 c.stack.length ++ leBytes 7 0
    ++ body ++ List.replicate (256 - body.length) 0#8

/-- R315: what an exit record's header says. -/
def State.exitPlan (s : State) (w : Workgroup) (r : Region) (pc : Nat) : RecordPlan :=
  { kind := 1, canes := s.sectionCount w, name := { (s.image w.terrace).codeName pc true with region := r.id },
    pc := 0, next := w.taskType, graft := 0, carry := r.carry, ranges := r.ranges }

/-- R433: every page of a record reads and writes. -/
def State.recordOpen (s : State) (w : Workgroup) (addr n : Nat) : Bool :=
  decide (addr + n ≤ 2 ^ 52) && s.ctxPagesOk w.ctx addr n needRW

/-- R315: the header of an exit record, and every section's state 2. -/
def State.beginRecord (s : State) (w : Workgroup) (p : Parcel) (r : Region) (pc : Nat) : State :=
  let plan := s.exitPlan w r pc
  let addr := p.exitRecord w.linear
  let s := s.ctxWrite w.ctx addr (plan.header 1 (272 * plan.canes)) false
  let s := (List.range plan.canes).foldl (fun s i =>
    s.ctxWrite w.ctx (addr + 64 + i * sectionBytes r.carry + 13) [2#8] false) s
  s.updWg w.id fun w => { w with exitRec := some ⟨addr, r.id, plan.canes, r.carry, r.ranges, [], false⟩ }

/-- R315: the issuing cane writes its section head and control block and enters its exit routine; a restart
region, or one that carries every affine register, overruns. -/
def State.enterExit (s : State) (w : Workgroup) (r : Region) (e : ExitRec) : State :=
  let c := s.cur
  let im := s.image w.terrace
  let size := 64 + e.canes * sectionBytes e.carry + rangeBytes e.ranges
  let s := s.ctxWrite w.ctx (e.addr + 64 + c.idx * sectionBytes e.carry)
    (c.sectionHead c.pc.toNat (im.ordinalAt c.pc.toNat true) 0) false
  let s := s.ctxWrite w.ctx (e.addr + size + 272 * c.idx) c.controlBlock false
  match freeAffine r.carry, r.exitOff with
  | some k, some off =>
    if r.restart then s.overrun w.id .exitOverrun none
    else s.updCur fun c =>
      { c.setA k ⟨BitVec.ofNat 64 (e.addr + firstCarried e.carry c.idx), 4#32⟩ with
        mode := 0, recon := 0xFFFFFFFF#32, routine := .exit, pc := BitVec.ofNat 64 (im.text + off) }
  | _, _ => s.overrun w.id .exitOverrun none

/-- R315, R330: the issuing cane is vectored at its stop point. -/
def State.markVectored (s : State) : State :=
  let c := s.cur
  (s.updWg c.wg fun w => { w with request := w.request.map fun q =>
    { q with first := some (q.first.getD ⟨c.idx, c.slot, c.pc, c.recon⟩) } }).updCur fun c =>
      { c with vectored := true, vecPc := c.pc, vecRecon := c.recon, pipe := none, stageArg := 0, claim := none, parkLeaf := none, saccSeen := none, entered := 0, noted := false,
               passBreak := false, passBkpt := false, passWatch := false }

/-- R364: the trace unit records the vectoring of the issuing cane at its stop point. -/
def State.traceVector (s : State) (w : Workgroup) : State :=
  let c := s.cur
  let name := (s.image w.terrace).codeName c.pc.toNat true
  s.traceEvent w.terrace (dieOfCore c.core) c.core c.slot 5 0 name name.offset

/-- R315, R316, R330: vectoring of the issuing cane; where its record does not fit or does not translate, or its
region has no exit routine, it overruns as the cane that was vectored. -/
def State.vector (s : State) : State :=
  let s := s.markVectored
  let w := s.wgOf s.cur
  match w.parcel.bind s.findParcel, (s.image w.terrace).regionAt s.cur.pc.toNat with
  | some p, some r =>
    let n := s.sectionCount w
    let size := exitBytes n r.carry r.ranges
    if (w.exitRec.isNone && decide (p.stride < size)) || !s.recordOpen w (p.exitRecord w.linear) size then
      s.overrun w.id .exitOverrun none
    else
      let s := s.traceVector w
      let s := if w.exitRec.isNone then s.beginRecord w p r s.cur.pc.toNat else s
      match (s.wgOf s.cur).exitRec with
      | some e => s.enterExit w r e
      | none => s
  | _, _ => s

/-- R315: EXIT_VECTOR. A breakpoint at the same stop point comes first (R357). -/
def execExitVector (cane : Nat) (s : State) : Out :=
  .next (if s.cur.id == cane && s.vectorDue && !s.breakpointDue then s.vector else s)

/-! ## The decision (R318, R320) -/

/-- R318: every live cane of an exiting workgroup has executed EXIT #1. -/
def State.exitsDone (s : State) (w : Workgroup) : Bool :=
  let cs := s.canesOf w.id
  w.exiting && !cs.isEmpty && cs.all fun c => c.routine == .exit && c.routineDone

/-- R318 step 3: the carried words of every section of state 1 are written, and nothing else of the
record. -/
def State.exitTrusted (s : State) (w : Workgroup) (e : ExitRec) : Bool :=
  !e.spoiled && (s.canesOf w.id).all fun c =>
    (List.range (carriedBytes e.carry / 4)).all fun i => e.words.contains (firstCarried e.carry c.idx + 4 * i)

/-- R318 step 4: the record is COMPLETE, and the workgroup leaves; its resume item is queued, but for a
GROW victim that is not (R167). -/
def State.exitComplete (s : State) (w : Workgroup) (p : Parcel) (e : ExitRec) : State :=
  let s := s.ctxWrite w.ctx (e.addr + 4) [2#8] false
  let tt := s.terrace w.terrace
  let s := s.setTerrace w.terrace
    { tt with usage := { tt.usage with preemptions := tt.usage.preemptions + 1 } }
  let stamp := s.causal (dieOfCore w.core)
  let s := (s.freeWorkgroup w.id).breakReplay w.terrace (some p.root)
  (if w.returns then s.enqueue p.die ⟨p.id, p.priority, .resume w.linear, s.levelOf w, stamp⟩ else s).checkBarriers

/-- R318: EXIT_DECISION: once the stores are performed and the engines are done with the scratch, the carried
scratch is copied and the record is judged. -/
def execExitDecision (wg : Nat) (s : State) : Out :=
  match s.findWg wg with
  | none => .next s
  | some w => match w.parcel.bind s.findParcel, w.exitRec with
    | some p, some e =>
      .next (if !s.exitsDone w || !s.settled wg 5 then s
        else if !s.recordOpen w e.addr (exitBytes e.canes e.carry e.ranges) then
          s.overrun wg .exitOverrun none
        else
          let s := s.ctxWrite w.ctx (e.addr + 64 + e.canes * sectionBytes e.carry)
            (w.carriedScratch e.ranges) false
          if s.exitTrusted w e then s.exitComplete w p e else s.overrun wg .exitUntrusted none)
    | _, _ => .next s

/-! ## Bounds (R313, R314, R319) -/

/-- R314, R174, R322, R359: the exit bound of a workgroup may expire. -/
def State.boundDue (s : State) (w : Workgroup) : Bool :=
  w.exiting && !s.exitsDone w && !s.allArrived w.id && !s.debugHeld w.id

/-- The reference timer reaches a bound. -/
def State.reach (s : State) (w : Workgroup) : State :=
  s.passTime ((w.request.map (·.deadline)).getD 0 - s.rtime)

/-- R319: EXIT_BOUND_EXPIRY. -/
def execExitBoundExpiry (wg : Nat) (s : State) : Out :=
  match s.findWg wg with
  | none => .next s
  | some w => .next (if s.boundDue w then (s.reach w).overrun wg .exitOverrun none else s)

/-- R313: a drain-grade request on some parcels: nothing more of them is placed, their running MATMULs stop
at their boundaries, and each running workgroup has one exit bound. -/
def State.drain (s : State) (on : Parcel → Bool) : State :=
  let ids := (s.parcels.filter on).map (·.id)
  let hit (p : Option Nat) : Bool := p.any ids.contains
  let bound (w : Workgroup) : Nat := (w.pause.map (·.1)).getD s.rtime + (s.terrace w.terrace).part.exitBound
  let stop (t : Task) : Task :=
    if hit t.parcel && t.status == .running && t.isMatmul then { t with stopping := true } else t
  let ask (w : Workgroup) : Workgroup :=
    if hit w.parcel && w.request.isNone && !(s.canesOf w.id).isEmpty then
      { w with request := some ⟨false, bound w, false, false, none⟩ }
    else w
  { s with parcels := s.parcels.map fun p => if on p then { p with drained := true } else p,
           tasks := s.tasks.map stop, workgroups := s.workgroups.map ask }

/-- R313: the hold that a drain-grade request puts on some parcels ends. -/
def State.undrain (s : State) (on : Parcel → Bool) : State :=
  { s with parcels := s.parcels.map fun p => if on p then { p with drained := false } else p }

/-- R313: the drain bound of a workgroup may expire. -/
def State.drainDue (s : State) (w : Workgroup) : Bool :=
  (w.request.any fun r => !r.exitGrade) && !s.debugHeld w.id && !s.allArrived w.id

/-- R313: DRAIN_ESCALATION: the request becomes one of exit grade, under a fresh bound. -/
def execDrainEscalation (wg : Nat) (s : State) : Out :=
  match s.findWg wg with
  | none => .next s
  | some w => .next (if s.drainDue w then (s.reach w).requestExit false false wg else s)

end Sys2Proof.Machine
end

