-- ==== Sys2Proof/Machine/Engines.lean ====
section
/-! DEFINITION. The copy and gather engines (R244 to R258, R263 to R265), tags, batches, and decant
buffers (R259 to R262). -/

namespace Sys2Proof.Machine

/-! ## Checks at issue (R245) -/

/-- R245, R410: the form of an engine's source. -/
def engineSource (align : Nat) (admits : Window → Bool) : MemForm :=
  { need := needR, align := align, admits := admits, kind := 0x09, reads := true, writes := false,
    host := true, posted := true }
/-- R245, R410: the form of an engine's destination. -/
def engineDest (align : Nat) (admits : Window → Bool) (host : Bool) : MemForm :=
  { need := needW, align := align, admits := admits, kind := 0x0A, reads := false, writes := true,
    host := host, posted := true }
/-- The global window alone. -/
def globalOnly : Window → Bool := fun w => w == .global
/-- The scratch window alone. -/
def scratchOnly : Window → Bool := fun w => w == .scratch
/-- The remote scratch window alone. -/
def remoteOnly : Window → Bool := fun w => w == .remote

/-- What an engine instruction asks of its lanes: the forms and bytes of its two addresses, and what a lane
reads besides, by its source (R257). -/
structure EngineForm where
  src : MemForm
  dst : MemForm
  srcBytes : Nat
  dstBytes : Nat
  rowBytes : Nat
  rows : State → LaneAcc → List (Nat × Nat)

/-- Accesses that end in the management blocks, which no engine reaches. -/
def LaneAcc.hitsBlocks (a : LaneAcc) : Bool := a.segs.any fun g => match g with | .mmio _ _ => true | _ => false

/-- The lanes of one check that an engine refuses: those judged faulty, and those that meet a management
block. -/
def engineFaults (f : MemForm) (n : Nat) (accs : List LaneAcc) (faults : List LaneFault) : List LaneFault :=
  faults ++ (accs.filter LaneAcc.hitsBlocks).map fun a => ⟨a.lane, .protection, n, f.kind, a.addr⟩

/-- R245: source, destination and rows of the lanes (lane, source, destination) are checked in that order;
the lanes that pass take effect. -/
def State.engineAccess (s : State) (m : Marks) (f : EngineForm) (ls : List (Nat × Nat × Nat))
    (effect : State → List (LaneAcc × LaneAcc) → State) : State :=
  let srcs := ls.map fun x => (x.1, x.2.1)
  let dsts := ls.map fun x => (x.1, x.2.2)
  match s.judge f.src f.srcBytes srcs, s.judge f.dst f.dstBytes dsts with
  | .miss va, _ => s.waitPage va f.src.need
  | .lanes _ _, .miss va => s.waitPage va f.dst.need
  | .lanes sa sf, .lanes da df =>
    let sf := engineFaults f.src f.srcBytes sa sf
    let df := engineFaults f.dst f.dstBytes da df
    let row : MemForm := engineSource 1 globalOnly
    let good := sa.filter fun a => !(sf.any fun x => x.lane == a.lane)
    match s.judge row f.rowBytes (good.flatMap (f.rows s)) with
    | .miss va => s.waitPage va needR
    | .lanes ra rf =>
      let rf := engineFaults row f.rowBytes ra rf
      let hit (l : Nat) : Option LaneAcc :=
        (sa.find? fun a => a.lane == l && s.watched s.cur true false a.addr f.srcBytes).orElse
          fun _ => da.find? fun a => a.lane == l && s.watched s.cur false true a.addr f.dstBytes
      match ls.findSome? fun x => hit x.1 with
      | some a => (s.charge 0 1 0).debugPark 2 .watchpoint a.addr
      | none =>
        let faults := ls.filterMap fun x => (sf ++ df ++ rf).find? fun y => y.lane == x.1
        let ok := good.filterMap fun a =>
          if faults.any fun y => y.lane == a.lane then none
          else (da.find? fun b => b.lane == a.lane).map fun b => (a, b)
        let s := (s.touchLanes f.srcBytes srcs).touchLanes f.dstBytes dsts
        if faults ≠ [] && !s.quarantines then s.stopLanes faults
        else if faults = [] then effect s ok
        else
          let s := s.quarantineLanes faults
          if ok = [] then (s.finishOnce m).resumeIfEmpty else effect s ok

/-! ## Acceptance (R245, R246, R248, R252) -/

/-- Where an element of a lane's access lies: in a decant buffer the backing is chosen when the access is
performed (R260). -/
def State.elementPlace (s : State) (need : Need) (va : Nat) (g : Seg) : Place :=
  let w := s.wgOf s.cur
  match windowAt va with
  | some .global =>
    (match s.decantAt w.terrace va with
     | some (h, e) => .decant w.terrace h (va - e.base)
     | none => match s.translate s.cur w.terrace w.vdev va need with
       | .ok pa => .glob pa
       | _ => .glob 0)
  | _ => match g with
    | .scr wg off _ => .scratch wg off
    | _ => .glob 0

/-- The w-byte elements of n bytes of a lane's access. -/
def State.elementPlaces (s : State) (need : Need) (w n : Nat) (a : LaneAcc) : List Place :=
  (List.range (n / w)).map fun i =>
    s.elementPlace need (a.addr + w * i) (((sliceSegs (w * i) w a.segs).head?).getD (.reg 0 0))

/-- What an instruction's operations have in common. -/
structure OpPlan where
  kind : OpKind
  tag : Nat
  size : Nat
  strict : Bool
  base : Nat
  stride : Nat
  rows : Nat
  targets : List Nat
  /-- Bytes read in elements of 4, and written in elements of so many. -/
  srcBytes : Nat
  dstBytes : Nat
  dstElem : Nat

/-- One element of a source as it stands now, for the addresses that it names. -/
def State.peek (s : State) : Place → Nat
  | .glob pa => leNat (s.dieBytes (dieOfCore s.cur.core) pa 4)
  | .scratch wg off => leNat (Memory.readBytes (s.scratchOf wg) off 4)
  | .decant t h off =>
    let e := getI .zero (s.terrace t).decants h
    (match s.decantWalk (dieOfCore s.cur.core) t (e.base + off) e with
     | .ok x => leNat (s.dieBytes (dieOfCore s.cur.core) (x.pa + (e.base + off - x.va)) 4)
     | _ => 0)
  | .fifo _ _ => 0

/-- R245, R257: the elements that a lane's index list names now, for the translation of their pages. -/
def gatherRows (n base stride rows : Nat) (s : State) (a : LaneAcc) : List (Nat × Nat) :=
  (s.elementPlaces needR 4 n a).filterMap fun p =>
    let x := s.peek p
    if x < rows then some (a.lane, base + x * stride) else none

/-- R257: where the pages lie that the rows of a lane's gather touch, of size bytes each. -/
def State.rowPages (s : State) (n base stride rows size : Nat) (a : LaneAcc) : List (Nat × Place) :=
  ((gatherRows n base stride rows s a).flatMap fun r => (pageRuns r.2 size).map fun x => x.1 / 65536).dedup.map fun k =>
    (k, s.elementPlace needR (65536 * k) (.reg 0 0))

/-- R245: the operations that the copy or the gather engine of a core's cluster holds. -/
def State.engineLoad (s : State) (core : Nat) (gather : Bool) : Nat :=
  (s.asyncOps.filter fun o => clusterOfCore o.core == clusterOfCore core && (o.kind == .gather) == gather).length

/-- A tag of a core. -/
def Core.tag (c : Core) (t : Nat) : TagState := getI ⟨0, false, false⟩ c.tags t
/-- A tag changed. -/
def Core.updTag (c : Core) (t : Nat) (f : TagState → TagState) : Core :=
  { c with tags := setI ⟨0, false, false⟩ c.tags t (f (c.tag t)) }

/-- The operation of one lane. -/
def State.laneOp (s : State) (u : Bool) (p : OpPlan) (group id : Nat) (x : LaneAcc × LaneAcc) : AsyncOp :=
  let c := s.cur
  let w := s.wgOf c
  let name := (s.image w.terrace).codeName s.iss.addr.toNat s.iss.stop
  let src := s.elementPlaces needR 4 p.srcBytes x.1
  { id := id, group := group, kind := p.kind, cane := some c.id, idx := c.idx, wg := c.wg, linear := w.linear,
    core := c.core, terrace := w.terrace, vdev := w.vdev, parcel := w.parcel,
    lane := if u then 0 else x.1.lane, tag := p.tag, batch := c.sealCount,
    src := src, dst := s.elementPlaces needW p.dstElem p.dstBytes x.2,
    stale := c.unfenced.filter fun u => src.contains (.scratch c.wg u.1),
    pages := if p.kind = .gather then s.rowPages p.srcBytes p.base p.stride p.rows p.size x.1 else [],
    srcVa := x.1.addr, dstVa := x.2.addr, size := p.size, strict := p.strict, base := p.base,
    stride := p.stride, rows := p.rows, targets := p.targets, data := [], bad := false, done := 0,
    failed := none, code := (name.region, name.ordinal, name.offset, name.long) }

/-- R247: source elements in scratch that an earlier plain store of the cane, not yet fenced, wrote. -/
def State.unfencedReads (s : State) (o : AsyncOp) : Nat :=
  (o.src.filter fun p => match p with
    | .scratch wg off => wg == s.cur.wg && s.cur.unfenced.any fun x => x.1 == off
    | _ => false).length

/-- R245, R246: the lanes' operations are accepted whole, or the instruction parks until they fit. -/
def State.acceptOps (m : Marks) (p : OpPlan) (regs : List Nat) (s : State) (ok : List (LaneAcc × LaneAcc)) :
    State :=
  let c := s.cur
  let n := ok.length
  let room := if p.kind = .gather then 1024 else 4096
  if room < s.engineLoad c.core (p.kind == .gather) + n then s.park .engineRoom
  else
    let ops := (ok.zipIdx).map fun x => s.laneOp m.u p s.nextId (s.nextId + x.2) x.1
    let late := (ops.map s.unfencedReads).sum
    let k := ((s.core c.core).updTag p.tag fun t => { t with count := t.count + n, used := true }).count
      0x020 late
    let s := { s.setCore c.core k with asyncOps := s.asyncOps ++ ops, nextId := s.nextId + n }
    ((s.chargeVec m.u c.active [regs]).updCur fun c =>
      { c with openPending := c.openPending + n, openUsed := true }).finish m

/-- An engine instruction: its checks, and its operations on the active lanes. -/
def State.engineOp (s : State) (m : Marks) (d a : BitVec 7) (desc : List Nat) (checks : List (Bool × Cause))
    (f : EngineForm) (p : OpPlan) : Out :=
  let c := s.cur
  let mk := c.active
  let regs := addrRegs d ++ addrRegs a ++ desc
  let ls := (if m.u then [firstLane mk] else lanesOf mk).map fun l =>
    (l, (c.baseAt a l).toNat, (c.baseAt d l).toNat)
  s.attemptReading (operandLanes m.u mk) (addrRegs d ++ addrRegs a) (c.beyond regs :: checks)
    (if mk = 0 then (s.chargeVec m.u mk [regs]).finish m
     else s.afterRelease none fun s => s.engineAccess m f ls (State.acceptOps m p regs)) (operandLanes true mk, desc)

/-- Nothing beside the source is read. -/
def noRows : State → LaneAcc → List (Nat × Nat) := fun _ _ => []

/-- R246: a copy of n bytes. -/
def State.copyOp (s : State) (m : Marks) (n : Nat) (d a : BitVec 7) (tag : BitVec 6) : Out :=
  s.engineOp m d a [] []
    { src := engineSource n sharedWindows, dst := engineDest n sharedWindows true, srcBytes := n,
      dstBytes := n, rowBytes := 1, rows := noRows }
    { kind := .copy, tag := tag.toNat, size := n, strict := false, base := 0, stride := 0, rows := 0,
      targets := [], srcBytes := n, dstBytes := n, dstElem := 4 }

/-- R246: CP4. -/
def execCp4 (m : Marks) (d a : BitVec 7) (b : BitVec 6) (s : State) : Out := s.copyOp m 4 d a b
/-- R246: CP8. -/
def execCp8 (m : Marks) (d a : BitVec 7) (b : BitVec 6) (s : State) : Out := s.copyOp m 8 d a b
/-- R246: CP16. -/
def execCp16 (m : Marks) (d a : BitVec 7) (b : BitVec 6) (s : State) : Out := s.copyOp m 16 d a b

/-- R256: PULL. -/
def execPull (m : Marks) (d a : BitVec 7) (b : BitVec 6) (s : State) : Out :=
  s.engineOp m d a [] []
    { src := engineSource 16 remoteOnly, dst := engineDest 16 scratchOnly false, srcBytes := 16,
      dstBytes := 16, rowBytes := 1, rows := noRows }
    { kind := .pull, tag := b.toNat, size := 16, strict := false, base := 0, stride := 0, rows := 0,
      targets := [], srcBytes := 16, dstBytes := 16, dstElem := 4 }

/-- R255: the mask of a multicast names what the issuer's set does not allow. -/
def State.mcastBad (s : State) (mask : Nat) : Bool :=
  let w := s.wgOf s.cur
  let n := 2 ^ w.setLog
  w.member.isNone || n == 1 || decide (2 ^ n ≤ mask) || (decide (n ≤ 4) && mask != 2 ^ w.member.getD 0)

/-- R254, R255: the workgroups of the members a mask names; 0, the name of no workgroup, stands for one that has
retired or departed, whose delivery is dropped. -/
def State.mcastTargets (s : State) (mask : Nat) : List Nat :=
  ((List.range 16).filter fun i => mask.testBit i).map fun i => ((s.setMember s.cur i).map (·.id)).getD 0

/-- R254: MCAST. -/
def execMcast (m : Marks) (d a b : BitVec 7) (s : State) : Out :=
  let mk := s.cur.active
  let desc := s.cur.V b.toNat (firstLane mk)
  let mask := bitsAt desc 0 16
  s.engineOp m d a [b.toNat]
    [(mk != 0 && (bitsAt desc 22 10 != 0 || mask == 0), .illegalEncoding),
     (mk != 0 && s.mcastBad mask, .mcastTarget)]
    { src := engineSource 16 globalOnly, dst := engineDest 16 scratchOnly false, srcBytes := 16,
      dstBytes := 16, rowBytes := 1, rows := noRows }
    { kind := .mcast, tag := bitsAt desc 16 6, size := 16, strict := false, base := 0, stride := 0, rows := 0,
      targets := s.mcastTargets mask, srcBytes := 16, dstBytes := 16, dstElem := 4 }

/-! ## Gather (R257) -/

/-- R270: the tensor entry of a terrace on a die. -/
def State.tensor (s : State) (d t tid : Nat) : Option TensorEntry :=
  (s.die d).tensors.find? fun e => e.terrace == t && e.tid == tid
/-- R270: an entry's fields. -/
def TensorEntry.outer (e : TensorEntry) : Nat := leField e.image 8 4
/-- R270: its stride. -/
def TensorEntry.stride (e : TensorEntry) : Nat := leField e.image 16 8
/-- R270: its base. -/
def TensorEntry.base (e : TensorEntry) : Nat := leField e.image 24 8

/-- R257: GATHER. -/
def execGather (m : Marks) (d a b : BitVec 7) (s : State) : Out :=
  let mk := s.cur.active
  let desc := s.cur.V b.toNat (firstLane mk)
  let log := bitsAt desc 16 4
  let n := bitsAt desc 20 8
  let e := 2 ^ log
  let t := s.tensor (dieOfCore s.cur.core) (s.wgOf s.cur).terrace (bitsAt desc 0 8)
  let base := (t.map TensorEntry.base).getD 0
  let stride := (t.map TensorEntry.stride).getD 0
  let rows := (t.map TensorEntry.outer).getD 0
  s.engineOp m d a [b.toNat]
    [(mk != 0 && (desc.getLsbD 15 || decide (log < 2) || decide (7 < log) || n == 0 || bitsAt desc 28 4 != 0),
      .illegalEncoding),
     (mk != 0 && t.isNone, .tensorId)]
    { src := engineSource 4 sharedWindows, dst := engineDest e sharedWindows false, srcBytes := 4 * n,
      dstBytes := e * n, rowBytes := e, rows := gatherRows (4 * n) base stride rows }
    { kind := .gather, tag := bitsAt desc 8 6, size := e, strict := desc.getLsbD 14, base := base,
      stride := stride, rows := rows, targets := [], srcBytes := 4 * n, dstBytes := e * n, dstElem := e }

/-! ## Failures (R263, R264) -/

/-- An operation changed. -/
def State.updOp (s : State) (id : Nat) (f : AsyncOp → AsyncOp) : State :=
  { s with asyncOps := s.asyncOps.map fun o => if o.id == id then f o else o }
/-- The issuing cane of an operation changed, where it still stands. -/
def State.updIssuer (s : State) (o : AsyncOp) (f : Cane → Cane) : State :=
  match o.cane with
  | some id => s.updCane id f
  | none => s
/-- The operation of a name. -/
def State.findOp (s : State) (id : Nat) : Option AsyncOp := s.asyncOps.find? fun o => o.id == id

/-- R264: the record of a failed operation. -/
def State.failureRecord (s : State) (o : AsyncOp) (kind va : Nat) : State :=
  let by_ := o.cane.bind s.findCane
  let head : RecordHead :=
    ⟨.asyncFailure, if by_.isNone then 1 else 0, 1, laneMask [o.lane],
      ⟨o.code.1, o.code.2.1, o.code.2.2.1, o.code.2.2.2⟩, o.idx, o.linear,
      (by_.map (·.slot)).getD 0xFF⟩
  s.recordFault o.terrace (dieOfCore o.core) o.core o.parcel head
    (laneEntry (o.tag + 64 + o.batch % 256 * 256) ⟨o.lane, .asyncFailure, o.size, kind, va⟩) true

/-- R263: an operation fails; its first failure writes its record. -/
def State.failOp (s : State) (o : AsyncOp) (kind va : Nat) : State :=
  if o.failed.isSome then s
  else (s.updOp o.id fun o => { o with failed := some (kind, va) }).failureRecord o kind va

/-! ## Reads and writes of an engine (R246, R247, R260) -/

/-- R260: the physical address of a place for an engine's read, at its die. -/
def State.readAddress (s : State) (d : Nat) : Place → Option Nat
  | .glob pa => some pa
  | .decant t h off =>
    let e := getI .zero (s.terrace t).decants h
    (match s.decantWalk d t (e.base + off) e with
     | .ok x => if x.r then some (x.pa + (e.base + off - x.va)) else none
     | _ => none)
  | _ => none

/-- R260: the physical address of a place for an engine's write: in a decant buffer, the shadow copy at the
home. -/
def State.writeAddress (s : State) (d : Nat) : Place → Option Nat
  | .glob pa => some pa
  | .decant t h off =>
    let e := getI .zero (s.terrace t).decants h
    let ipa := e.ipa (!e.live) off
    if e.valid then
      (s.stage2 d t ipa).bind fun x =>
        let pa := x.pa + (ipa - x.va)
        if x.w && !s.inUsageLog pa then some pa else none
    else none
  | _ => none

/-- n bytes that a requester of a key id reads at a die. -/
def State.bytesFor (s : State) (t d a n : Nat) : List Byte := (List.range n).map fun i => s.byteFor t d (a + i)
/-- R207, R210: a granule of [a, a + n) is poisoned as a requester of a key id reads it at a die. -/
def State.poisonFor (s : State) (t d a n : Nat) : Bool := (granules a n).any (s.granulePoison t d)

/-- A run of global memory read at a die's L2 or beyond, and whether it is poisoned; none when the path to
its home fails. -/
def State.readAtDie (s : State) (d t pa n : Nat) : Option (State × List Byte × Bool) :=
  if s.pathTo t d pa = .arrives then
    let s := (linesOf pa n).foldl (fun s line => s.allocL2 d line t) s
    some (s, s.bytesFor t d pa n, s.poisonFor t d pa n)
  else if s.heldAt d pa n then some (s, s.bytesFor t d pa n, s.poisonFor t d pa n)
  else none

/-- R207: a workgroup's scratch is poisoned in a range. -/
def State.scratchPoisoned (s : State) (wg off n : Nat) : Bool :=
  (((s.findWg wg).map (·.scrPoison)).getD []).any fun g =>
    decide (32 * g < off + n) && decide (off < 32 * g + 32)

/-- R377: an engine's request and its answer pass the FIFOs of its cluster. -/
def State.exchange (s : State) (core : Nat) : State := (s.beats core 1).inboundBeats core 1

/-- The die of the core that holds a workgroup's scratch. -/
def State.scratchDie (s : State) (wg : Nat) : Nat := dieOfCore (((s.findWg wg).map (·.core)).getD 0)

/-- R247: an element of scratch as an operation reads it: as it stands, or as it stood before one of the plain stores of its
cane that no fence orders before it; a free choice. -/
def State.unfencedRead (s : State) (o : AsyncOp) (wg off n : Nat) : State × List Byte :=
  let now := Memory.readBytes (s.scratchOf wg) off n
  let old := if wg = o.wg then (o.stale.filter fun x => x.1 == off).map (·.2) else []
  if old = [] then (s, now)
  else ({ s with freeCount := s.freeCount + 1 }, getI now (now :: old) (Config.staleStore s.freeCount % (old.length + 1)))

/-- R247, R256, R397: n bytes of a source element; none where no path leads to where it lies. -/
def State.engineRead (s : State) (o : AsyncOp) (p : Place) (n : Nat) : Option (State × List Byte × Bool) :=
  match p with
  | .scratch wg off =>
    if s.reaches o.terrace (dieOfCore o.core) (s.scratchDie wg) then
      let r := s.unfencedRead o wg off n
      some (if wg = o.wg then r.1 else r.1.exchange o.core, r.2, s.scratchPoisoned wg off n)
    else none
  | _ => match s.readAddress (dieOfCore o.core) p with
    | some pa => (s.exchange o.core).readAtDie (dieOfCore o.core) o.terrace pa n
    | none => none

/-- R318: an engine's store into an exit record spoils it. -/
def State.noteEngine (s : State) (t v a n : Nat) : State :=
  { s with workgroups := s.workgroups.map fun w =>
      if w.terrace = t ∧ w.vdev = v then { w with exitRec := w.exitRec.map fun e => e.noteStore none a n }
      else w }

/-- R203, R207: an engine's write to a workgroup's scratch; the bytes of these offsets are poisoned. -/
def State.scratchDeliver (s : State) (wg off : Nat) (bytes : List Byte) (bad : List Nat) : State :=
  s.updWg wg fun w =>
    { w with scratch := Memory.writeBytes w.scratch off bytes,
             scrPoison := markPoison w.scrPoison off bytes.length (bad.map fun i => (off + i) / 32).dedup }

/-- R247, R260: bytes of a destination element are written and performed, those of some offsets poisoned; none when the
path to its home fails. -/
def State.engineWrite (s : State) (o : AsyncOp) (p : Place) (va : Nat) (bytes : List Byte) (bad : List Nat) :
    Option State :=
  match p with
  | .scratch wg off => some (s.scratchDeliver wg off bytes bad)
  | _ => match s.writeAddress (dieOfCore o.core) p with
    | none => none
    | some pa =>
      if s.pathTo o.terrace (dieOfCore o.core) pa = .arrives then
        let s := (s.exchange o.core).pressWrite (dieOfCore o.core) o.terrace none o.parcel false false pa bytes
          (bad.map fun i => (pa + i) / 32).dedup
        some (s.noteEngine o.terrace o.vdev va bytes.length)
      else none

/-- R217: the home of an element has applied what the issuing die's clock shows. -/
def State.elementReady (s : State) (o : AsyncOp) (p : Place) : Bool :=
  match s.writeAddress (dieOfCore o.core) p with
  | some pa => s.clockCovered (dieOfCore o.core) (s.homeDie pa)
  | none => true

/-- The bytes of an element of an operation's destination. -/
def AsyncOp.elem (o : AsyncOp) : Nat := if o.kind = .gather then o.size else 4

/-- R246: a lower lane's operation of the same instruction has yet to write to a place. -/
def State.lowerLane (s : State) (o : AsyncOp) (p : Place) : Bool :=
  s.asyncOps.any fun x => x.group == o.group && decide (x.id < o.id)
    && (x.dst.drop x.done).any fun q => p.overlaps o.elem q x.elem

/-- A place that the core reaches through the die fabric. -/
def Place.beyond : Place → Bool
  | .glob _ => true
  | .decant _ _ _ => true
  | _ => false

/-- R377: the requests of the next element, each with its answer: a gather's data lies in two lines at most. -/
def AsyncOp.beats (o : AsyncOp) (p : Place) : Nat :=
  let far : Bool := match o.src[o.done]? with
    | some (.scratch wg _) => wg != o.wg
    | some q => q.beyond
    | none => false
  (if far then 1 else 0) + (if p.beyond then 1 else 0) + (if o.kind = .gather then 2 else 0)

/-- The element an operation stands before may be performed now, with room in the FIFOs of its cluster (R377). -/
def State.elementDue (s : State) (o : AsyncOp) : Bool :=
  match o.dst[o.done]? with
  | none => false
  | some p =>
    s.outboundRoom o.core (o.beats p) && s.inboundRoom o.core (o.beats p)
      && (o.kind == .mcast || (!s.lowerLane o p && s.elementReady o p))

/-! ## Performing (R246, R254, R258) -/

/-- R264: the access kind of a failed read. -/
def OpKind.readKind : OpKind → Nat
  | .pull => 0x15
  | .gather => 0x12
  | _ => 0x10

/-- The next element of a copy or a pull. -/
def State.copyElement (s : State) (o : AsyncOp) (p q : Place) : State :=
  let i := o.done
  let s := s.updOp o.id fun o => { o with done := i + 1 }
  match s.engineRead o p 4 with
  | none => s.failOp o o.kind.readKind (o.srcVa + 4 * i)
  | some (s, bytes, bad) =>
    match s.engineWrite o q (o.dstVa + 4 * i) bytes (if bad then [0] else []) with
    | none => s.failOp o 0x11 (o.dstVa + 4 * i)
    | some s => if bad then s.failOp o o.kind.readKind (o.srcVa + 4 * i) else s

/-- R254: a multicast reads its source once. A read that fails has kind 0x10, as R264 names no other for it (DESIGN CHOICE,
log entry 75). -/
def State.mcastRead (s : State) (o : AsyncOp) (p : Place) : State :=
  match s.engineRead o p 16 with
  | none => (s.updOp o.id fun o => { o with done := o.dst.length, targets := [] }).failOp o 0x10 o.srcVa
  | some (s, bytes, bad) =>
    let s := s.updOp o.id fun o => { o with done := o.dst.length, data := bytes, bad := bad }
    if bad then s.failOp o 0x10 o.srcVa else s

/-- R246: ASYNC_OPERATION_PERFORM. -/
def execAsyncOperationPerform (op : Nat) (s : State) : Out :=
  match s.findOp op with
  | none => .next s
  | some o =>
    .next (if !s.elementDue o || o.kind == .gather then s
      else match o.src[o.done]?, o.dst[o.done]? with
        | some p, some q => if o.kind == .mcast then s.mcastRead o p else s.copyElement o p q
        | _, _ => s)

/-- R258: an element that a gather writes; without data of its own it is zeros. -/
def State.gatherWrite (s : State) (o : AsyncOp) (q : Place) (i : Nat) (bytes : List Byte) (bad : List Nat) : State :=
  match s.engineWrite o q (o.dstVa + o.size * i) bytes bad with
  | some s => s
  | none => s.failOp o 0x11 (o.dstVa + o.size * i)

/-- A place n bytes further on. -/
def Place.shift (n : Nat) : Place → Place
  | .glob pa => .glob (pa + n)
  | .decant t h off => .decant t h (off + n)
  | .scratch wg off => .scratch wg (off + n)
  | .fifo core off => .fifo core (off + n)

/-- R257, R260: where a byte of a gather's data lies: on the page that its issue translated, or, for an index that has
changed since, where its page lies now. -/
def State.dataAddress (s : State) (o : AsyncOp) (va : Nat) : Option Nat :=
  let d := dieOfCore o.core
  match o.pages.find? fun x => x.1 == va / 65536 with
  | some x => s.readAddress d (x.2.shift (va % 65536))
  | none => s.ctxTranslate ⟨o.terrace, o.vdev, d, o.parcel⟩ va needR

/-- R258, R263: the data of an in-range index. An index that has changed since the issue, to a row that is not mapped, fails
as a path does (DESIGN CHOICE, log entry 75: R263 has no case for it). -/
def State.gatherData (s : State) (o : AsyncOp) (q : Place) (i x : Nat) : State :=
  let va := o.base + x * o.stride
  let d := dieOfCore o.core
  match (List.range o.size).mapM fun j => s.dataAddress o (va + j) with
  | none => s.failOp o 0x13 va
  | some spots =>
    if spots.all fun a => s.pathTo o.terrace d a == .arrives || s.heldAt d a 1 then
      let bad := (List.range o.size).filter fun j => s.granulePoison o.terrace d (getI 0 spots j / 32)
      let bytes := spots.map (s.byteFor o.terrace d)
      let s := ((spots.map lineOf).dedup).foldl (fun s line => (s.exchange o.core).allocL2 d line o.terrace) s
      let s := s.gatherWrite o q i bytes bad
      if bad = [] then s else s.failOp o 0x13 va
    else s.failOp o 0x13 va

/-- R258: the next index of a gather. -/
def State.gatherElement (s : State) (o : AsyncOp) (p q : Place) : State :=
  let i := o.done
  let s := s.updOp o.id fun o => { o with done := i + 1 }
  match s.engineRead o p 4 with
  | none => s.failOp o 0x12 (o.srcVa + 4 * i)
  | some (s, bytes, bad) =>
    let x := leNat bytes
    if bad then s.failOp o 0x12 (o.srcVa + 4 * i)
    else if x = 0xFFFFFFFF then s
    else if x < o.rows then s.gatherData o q i x
    else
      let s := s.gatherWrite o q i (List.replicate o.size 0#8) []
      if o.strict then s.failOp o 0x12 (o.srcVa + 4 * i)
      else s.updIssuer o fun c => { c with gfm := c.gfm ||| (1#32 <<< o.lane) }

/-- R258: GATHER_PERFORM. -/
def execGatherPerform (op : Nat) (lane : Nat) (s : State) : Out :=
  match s.findOp op with
  | none => .next s
  | some o =>
    .next (if !s.elementDue o || o.kind != .gather || o.lane != lane then s
      else match o.src[o.done]?, o.dst[o.done]? with
        | some p, some q => s.gatherElement o p q
        | _, _ => s)

/-- R254: a multicast may be delivered to a workgroup now: it has been read, and a lower lane's delivery to
the same bytes has been made (R246). -/
def State.deliveryDue (s : State) (o : AsyncOp) (member : Nat) : Bool :=
  o.kind == .mcast && decide (o.dst.length ≤ o.done) && o.targets.contains member
    && !(s.asyncOps.any fun x => x.group == o.group && decide (x.id < o.id) && x.targets.contains member
      && x.dst.any fun q => o.dst.any fun p => p.overlaps 4 q 4)

/-- R254, R255, R397: a delivery is written, or dropped when the member has departed; one that no path leads to fails (R263,
R264). -/
def State.deliverCopy (s : State) (o : AsyncOp) (member : Nat) : State :=
  let s := s.updOp o.id fun o => { o with targets := o.targets.erase member }
  if (s.findWg member).isNone || (s.canesOf member).isEmpty then s.setCore o.core ((s.core o.core).count 0x021 1)
  else if !s.reaches o.terrace (dieOfCore o.core) (s.scratchDie member) then s.failOp o 0x14 o.dstVa
  else match o.dst with
    | .scratch _ off :: _ => s.scratchDeliver member off o.data (if o.bad then [0] else [])
    | _ => s

/-- R254: MCAST_DELIVERY; a member is named by its workgroup. -/
def execMcastDelivery (op : Nat) (member : Nat) (s : State) : Out :=
  match s.findOp op with
  | none => .next s
  | some o => .next (if s.deliveryDue o member then s.deliverCopy o member else s)

/-! ## Completion (R247 to R253) -/

/-- R247: the lines that an operation has written are dropped from its core's L1. -/
def State.dropWritten (s : State) (o : AsyncOp) : State :=
  let spots (p : Place) : List Nat := match p with
    | .glob pa => linesOf pa o.elem
    | .decant t h off =>
      let e := getI .zero (s.terrace t).decants h
      [true, false].flatMap fun b =>
        ((s.stage2 (dieOfCore o.core) t (e.ipa b off)).toList).flatMap fun x =>
          linesOf (x.pa + (e.ipa b off - x.va)) o.elem
    | _ => []
  let lines := o.dst.flatMap spots
  let c := s.core o.core
  s.setCore o.core { c with l1 := c.l1.filter fun x => !lines.contains x.line }

/-- R252: an operation of a batch of the cane has completed. -/
def Cane.batchDone (c : Cane) (batch : Nat) (err : Bool) : Cane :=
  if c.sealCount = batch then { c with openPending := c.openPending - 1, openErr := c.openErr || err }
  else
    let bs := c.batches.map fun b =>
      if b.serial = batch then { b with pending := b.pending - 1, err := b.err || err } else b
    let ended := bs.filter fun b => b.pending == 0
    { c with batches := bs.filter fun b => b.pending != 0,
             waitErr := c.waitErr || ended.any fun b => b.err && c.waitSet.contains b.serial }

/-- R249: the tags of a mask that are used and have nothing outstanding. -/
def Core.doneTags (k : Core) (mask : Nat) : Nat := k.tagWord &&& mask
/-- R249: r of a tag wait: 1 unless a done tag of the mask carries an error. -/
def Core.tagResult (k : Core) (mask : Nat) : Nat :=
  if (List.range 64).any fun t => (k.doneTags mask).testBit t && (k.tag t).err then 0 else 1
/-- R249: the condition of TAG.WANY (any) and TAG.WALL. -/
def Core.tagsMet (k : Core) (any : Bool) (mask : Nat) : Bool :=
  if any then k.doneTags mask != 0 else k.doneTags mask == mask
/-- R251: no operation of the mask's tags is outstanding. -/
def Core.tagsClear (k : Core) (mask : Nat) : Bool :=
  (List.range 64).all fun t => !mask.testBit t || (k.tag t).count == 0

/-- R249, R251, R253: a wait on tags or batches that has its condition ends. -/
def Cane.pollTags (c : Cane) (k : Core) : Cane :=
  match c.wait with
  | .tags any mask => if k.tagsMet any mask then { c with wait := .none, answer := some (k.tagResult mask) } else c
  | .batch n =>
    if c.batches.length ≤ n then { c with wait := .none, answer := some (if c.waitErr then 0 else 1) } else c
  | .tagClear mask => if k.tagsClear mask then { c with wait := .none } else c
  | .engineRoom => { c with wait := .none }
  | _ => c

/-- The canes of a core look at its tags again. -/
def State.pollCore (s : State) (core : Nat) : State :=
  let k := s.core core
  s.mapCanes fun c => if c.live && c.core == core then c.pollTags k else c

/-- R245: the canes of a core's cluster that wait for room in an engine try again. -/
def State.pollEngine (s : State) (core : Nat) : State :=
  s.mapCanes fun c =>
    if c.live && clusterOfCore c.core == clusterOfCore core && c.wait == .engineRoom then { c with wait := .none } else c

/-- An operation's own writes are all performed. -/
def AsyncOp.performed (o : AsyncOp) : Bool := decide (o.dst.length ≤ o.done) && o.targets.isEmpty

/-- The launch's root of a parcel. -/
def State.parcelRoot (s : State) (p : Option Nat) : Option Nat := (p.bind s.findParcel).map (·.root)

/-- R369: under replay a tag's completion, the last of its operations', passes the gate of its workgroup. -/
def State.tagGate (s : State) (o : AsyncOp) : Bool :=
  match s.parcelRoot o.parcel with
  | none => true
  | some root =>
    ((s.core o.core).tag o.tag).count != 1 || !s.underReplay o.terrace (some root) 2
      || s.gateOpen o.terrace root 4 (.glob o.linear) o.tag 0

/-- R368, R369: the grant of a tag's completion. -/
def State.tagGranted (s : State) (o : AsyncOp) : State :=
  match s.parcelRoot o.parcel with
  | none => s
  | some root =>
    if ((s.core o.core).tag o.tag).count != 1 then s
    else if s.underReplay o.terrace (some root) 1 then
      s.updDebug o.terrace fun b => b.grant 4 (.glob o.linear) o.linear ⟨o.tag, 0, 0, 0, 0⟩
    else if s.underReplay o.terrace (some root) 2 then
      s.gateGrant o.terrace root 4 (.glob o.linear) ⟨o.tag, 0, 0, 0, 0⟩
    else s

/-- R247: an operation may complete. -/
def State.opDone (s : State) (o : AsyncOp) : Bool := o.performed && s.tagGate o

/-- R247, R248, R252, R265: an operation completes. -/
def State.completeOp (s : State) (o : AsyncOp) : State :=
  let err := o.failed.isSome
  let s := (s.tagGranted o).dropWritten o
  let k := (s.core o.core).updTag o.tag fun t =>
    { t with count := t.count - 1, err := t.err || (err && t.used) }
  let s := (s.setCore o.core k).updIssuer o fun c => c.batchDone o.batch err
  ((({ s with asyncOps := s.asyncOps.filter fun x => x.id != o.id } : State).sweep).pollCore o.core).pollEngine o.core

/-- R247: ASYNC_OPERATION_COMPLETE. -/
def execAsyncOperationComplete (op : Nat) (s : State) : Out :=
  match s.findOp op with
  | none => .next s
  | some o => .next (if s.opDone o then s.completeOp o else s)

/-! ## Tags (R249 to R251) -/

/-- R249: a wait's result goes to p[MODE.GP], and the instruction completes. -/
def State.tagEnd (s : State) (m : Marks) (r : Nat) : State :=
  (s.updCur fun c => c.setP c.unguarded c.gp (if r = 0 then 0 else 0xFFFFFFFF#32)).finishOnce m

/-- R249, R317: checks of a tag wait. -/
def Cane.tagChecks (c : Cane) (regs : List Nat) : List (Bool × Cause) :=
  [c.beyond regs, (c.routine == .exit, .illegalEncoding)]

/-- R249: TAG.WANY and TAG.WALL on a mask. -/
def State.tagWait (s : State) (m : Marks) (any : Bool) (regs : List Nat) (mask : Nat) : Out :=
  let c := s.cur
  let k := s.core c.core
  s.attemptReading (operandLanes true c.unguarded) regs (c.tagChecks regs)
    (match c.answer with
     | some r => s.tagEnd m r
     | none =>
       if any && mask = 0 then s.tagEnd m 0
       else if k.tagsMet any mask then s.tagEnd m (k.tagResult mask)
       else if (s.wgOf c).exiting then s.tagEnd m 0
       else s.park (.tags any mask))

/-- R249: the mask of a register form. -/
def Cane.maskPair (c : Cane) (d : BitVec 6) : Nat := (c.uread64 (2 * d.toNat)).toNat
/-- The registers of a pair. -/
def pairRegs (d : BitVec 6) : List Nat := [2 * d.toNat, 2 * d.toNat + 1]

/-- R249: TAG.WANY with an immediate mask. -/
def execTagWanyImm (m : Marks) (i : BitVec 14) (s : State) : Out := s.tagWait m true [] (s.imm i).toNat
/-- R249: TAG.WANY with a mask in a pair. -/
def execTagWanyReg (m : Marks) (d : BitVec 6) (s : State) : Out :=
  s.tagWait m true (pairRegs d) (s.cur.maskPair d)
/-- R249: TAG.WALL with an immediate mask. -/
def execTagWallImm (m : Marks) (i : BitVec 14) (s : State) : Out := s.tagWait m false [] (s.imm i).toNat
/-- R249: TAG.WALL with a mask in a pair. -/
def execTagWallReg (m : Marks) (d : BitVec 6) (s : State) : Out :=
  s.tagWait m false (pairRegs d) (s.cur.maskPair d)

/-- R250: TAG.FFR. -/
def execTagFfr (m : Marks) (d : BitVec 7) (a : BitVec 6) (s : State) : Out :=
  let c := s.cur
  let done := (s.core c.core).doneTags (c.maskPair a)
  let r : Word := match (List.range 64).find? fun t => done.testBit t with
    | some t => BitVec.ofNat 32 t
    | none => 0xFFFFFFFF#32
  s.attemptReading (operandLanes true c.unguarded) (pairRegs a) [c.beyond (d.toNat :: pairRegs a)]
    ((s.updCur fun c => c.setV c.unguarded d.toNat fun _ => r).finishOnce m)

/-- R251: TAG.CLR on a mask. -/
def State.tagClr (s : State) (m : Marks) (regs : List Nat) (mask : Nat) : Out :=
  let c := s.cur
  let k := s.core c.core
  s.attemptReading (operandLanes true c.unguarded) regs (c.tagChecks regs)
    (if k.tagsClear mask then
       let k := (List.range 64).foldl (fun (k : Core) t =>
         if mask.testBit t then k.updTag t fun x => { x with used := false, err := false } else k) k
       ((s.setCore c.core k).pollCore c.core).finishOnce m
     else s.park (.tagClear mask))

/-- R251: TAG.CLR with an immediate mask. -/
def execTagClrImm (m : Marks) (i : BitVec 14) (s : State) : Out := s.tagClr m [] (s.imm i).toNat
/-- R251: TAG.CLR with a mask in a pair. -/
def execTagClrReg (m : Marks) (d : BitVec 6) (s : State) : Out := s.tagClr m (pairRegs d) (s.cur.maskPair d)

/-! ## Batches (R252, R253) -/

/-- R252: the open batch is sealed; one whose operations have all completed finishes with it. -/
def Cane.seal (c : Cane) : Cane :=
  { c with batches := if c.openPending = 0 then c.batches else c.batches ++ [⟨c.sealCount, c.openPending, c.openErr⟩],
           sealCount := c.sealCount + 1, openPending := 0, openUsed := false, openErr := false }

/-- R252: CP.SEAL. -/
def execCpSeal (m : Marks) (s : State) : Out :=
  let c := s.cur
  .next (if !c.openUsed then s.finishOnce m
    else if 15 ≤ c.batches.length then s.park .engineRoom
    else (s.updCur Cane.seal).finishOnce m)

/-- R253: CP.WAITB. -/
def execCpWaitb (m : Marks) (n : BitVec 4) (s : State) : Out :=
  let c := s.cur
  s.attempt [s.wide, (c.routine == .exit, .illegalEncoding)]
    (match c.answer with
     | some r => s.tagEnd m r
     | none =>
       if c.batches.length ≤ n.toNat then s.tagEnd m 1
       else if (s.wgOf c).exiting then s.tagEnd m 0
       else (s.updCur fun c =>
         { c with waitSet := c.batches.map (·.serial), waitErr := false }).park (.batch n.toNat))

/-! ## Decant buffers (R259 to R262) -/

/-- A decant entry of a terrace. -/
def State.decantEntry (s : State) (t h : Nat) : DecantEntry := getI .zero (s.terrace t).decants h
/-- A decant entry changed. -/
def State.updDecant (s : State) (t h : Nat) (f : DecantEntry → DecantEntry) : State :=
  let tt := s.terrace t
  s.setTerrace t { tt with decants := setI .zero tt.decants h (f (s.decantEntry t h)) }

/-- R259: the home of an entry as it becomes valid: the die that owns the first line of backing 0 (log entry 63 says
which where stage 2 does not map it). -/
def State.decantHome (s : State) (d t : Nat) (e : DecantEntry) : Nat :=
  match s.stage2 d t (e.ipa false 0) with
  | some x => s.homeDie (x.pa + (e.ipa false 0 - x.va))
  | none => 0

/-- An engine operation writes to a decant buffer. -/
def AsyncOp.writesBuffer (o : AsyncOp) (t h : Nat) : Bool :=
  o.dst.any fun p => match p with | .decant u g _ => u == t && g == h | _ => false

/-- R259, R282: a line on its way from a task lies in a decant buffer: of its C, its E or a collective. -/
def State.lineInBuffer (s : State) (t h : Nat) (p : Partial) : Bool :=
  (s.tasks.any fun x => x.id == p.task && x.terrace == t) && (s.decantAt t p.va).any fun x => x.1 == h

/-- R261: the writes to a buffer that are accepted now. -/
def State.acceptedWrites (s : State) (t h : Nat) : List Nat × List Nat :=
  ((s.asyncOps.filter fun o => o.writesBuffer t h && !o.performed).map (·.id),
   (s.partials.filter (s.lineInBuffer t h)).map (·.id))

/-- R261: DECANT issues: the writes that its flip waits for are those accepted now. -/
def State.beginFlip (s : State) (t h : Nat) : State :=
  let c := s.cur
  let w := s.acceptedWrites t h
  let o : DecantOp :=
    { id := s.nextId, terrace := t, handle := h, die := dieOfCore c.core, cane := c.id, ops := w.1, lines := w.2,
      asked := false, flipped := false, seq := 0, live := false, stamp := [], todo := [] }
  ({ s with nextId := s.nextId + 1, decantOps := s.decantOps ++ [o] } : State).updCur fun c =>
    { c with stage := 1, stageArg := o.id }

/-- R261: the release before the flip is done: the flip is asked for, and the cane parks. -/
def State.askFlip (s : State) : State :=
  let id := s.cur.stageArg
  ({ s with decantOps := s.decantOps.map fun o => if o.id == id then { o with asked := true } else o } : State).updCur
    fun c => { c with stage := 2, wait := .decant id, pipe := none }

/-- R261: DECANT. -/
def execDecant (m : Marks) (d : BitVec 3) (a : BitVec 7) (s : State) : Out :=
  let c := s.cur
  let mk := c.unguarded
  let h := (c.uread a.toNat).toNat
  let t := (s.wgOf c).terrace
  s.attemptReading (operandLanes true mk) [a.toNat]
    [c.beyond [a.toNat], (c.routine == .exit, .illegalEncoding),
     (mk != 0 && c.stage == 0 && (decide (d.toNat < 2) || decide (5 < d.toNat) || decide (255 < h) || !(s.decantEntry t h).valid),
      .illegalEncoding)]
    (if mk = 0 || c.stage = 2 then s.finishOnce m
     else ((if c.stage = 0 then s.beginFlip t h else s).parksAs 5).afterRelease (some d.toNat) State.askFlip)

/-- The flip of a name. -/
def State.findFlip (s : State) (id : Nat) : Option DecantOp := s.decantOps.find? fun o => o.id == id

/-- R262: an earlier flip of the buffer is still to be applied at a die. -/
def State.flipBefore (s : State) (o : DecantOp) (d : Nat) : Bool :=
  s.decantOps.any fun x => x.terrace == o.terrace && x.handle == o.handle && x.id != o.id && x.flipped
    && (!o.flipped || decide (x.seq < o.seq)) && x.todo.contains d

/-- R261, R262, R217: a flip may be made at its home: the issuing die has applied the buffer's earlier ones. -/
def State.flipDue (s : State) (o : DecantOp) : Bool :=
  o.asked && !o.flipped && o.ops.all (fun id => (s.findOp id).all AsyncOp.performed)
    && o.lines.all (fun id => !(s.partials.any fun p => p.id == id))
    && s.reaches o.terrace o.die (s.decantEntry o.terrace o.handle).home
    && !s.flipBefore o o.die && s.clockCovered o.die (s.decantEntry o.terrace o.handle).home

/-- R261, R262: a die applies a flip: the L1 lines of both backings leave its cores, its live copy changes,
and the first word of the buffer is looked up in either backing. -/
def State.applyFlip (s : State) (o : DecantOp) (live : Bool) (d : Nat) : State :=
  let e := s.decantEntry o.terrace o.handle
  let phys (b : Bool) (off : Nat) : Option Nat :=
    (s.stage2 d o.terrace (e.ipa b off)).map fun x => x.pa + (e.ipa b off - x.va)
  let bases := (List.range (e.size / 65536)).flatMap fun i => [true, false].filterMap fun b => phys b (65536 * i)
  let drop (c : Core) : Core :=
    { c with l1 := c.l1.filter fun x => !(bases.any fun a => decide (a ≤ 128 * x.line) && decide (128 * x.line < a + 65536)) }
  let s := (List.range 128).foldl (fun s i => s.setCore (128 * d + i) (drop (s.core (128 * d + i)))) s
  let s := s.updDecant o.terrace o.handle fun e => { e with seen := setI e.live e.seen d live }
  [true, false].foldl (fun s b => match phys b 0 with
    | some a => s.monitorWake d (.glob a) 8
    | none => s) s

/-- A flip changed; one that every die has applied is dropped. -/
def State.updFlip (s : State) (id : Nat) (f : DecantOp → DecantOp) : State :=
  { s with decantOps := (s.decantOps.map fun o => if o.id == id then f o else o).filter fun o =>
      !(o.flipped && o.todo.isEmpty) }

/-- R261: the home flips the live bit as a signalled write of the cane's die, which applies it and lets the
cane go on; other dies have it to apply. -/
def State.flip (s : State) (o : DecantOp) : State :=
  let e := s.decantEntry o.terrace o.handle
  let home := e.home
  let me := dieNumber o.die
  let live := !e.live
  let old := [0, 1, 2, 3].map fun d => getI e.live e.seen d
  let dd := s.die o.die
  let out := home != o.die || ([0, 1, 2, 3] : List Nat).any fun e => e != o.die && s.inRectangle o.terrace e
  let clock := if out then setI 0 dd.clock me (getI 0 dd.clock me + 1) else dd.clock
  let stamp := if dd.filled = [] then clock else joinClocks clock dd.filled
  let s := s.setDie o.die { dd with clock := clock }
  let hd := s.die home
  let s := s.setDie home { hd with clock := clockJoin hd.clock clock me }
  let s := s.updDecant o.terrace o.handle fun e => { e with live := live, flips := (e.flips + 1) % 2 ^ 64, seen := old }
  let s := s.applyFlip o live o.die
  let s := if home = o.die then s else s.applyFlip o live home
  let s := s.updFlip o.id fun x => { x with flipped := true, seq := e.flips + 1, live := live, stamp := stamp,
                                            todo := otherDies out [o.die, home] }
  (s.updCane o.cane fun c => if c.wait == .decant o.id then { c with wait := .none } else c).wakePress

/-- R261: DECANT_FLIP. -/
def execDecantFlip (op : Nat) (s : State) : Out :=
  match s.findFlip op with
  | none => .next s
  | some o => .next (if s.flipDue o then s.flip o else s)

/-- R262, R217: a die may apply a flip: its clock admits it, and the buffer's earlier flips are applied
there. -/
def State.flipApplyDue (s : State) (o : DecantOp) (d : Nat) : Bool :=
  let home := (s.decantEntry o.terrace o.handle).home
  o.flipped && o.todo.contains d && (!s.inRectangle o.terrace d || s.reaches o.terrace home d)
    && clockAdmits (s.die d).clock o.stamp (dieNumber o.die)
    && !s.flipBefore o d

/-- R262: another die applies a flip. -/
def State.flipAt (s : State) (o : DecantOp) (d : Nat) : State :=
  let dd := s.die d
  let s := s.setDie d { dd with clock := clockJoin dd.clock o.stamp (dieNumber o.die) }
  ((s.applyFlip o o.live d).updFlip o.id fun x =>
    { x with todo := x.todo.filter fun e => e != d }).wakePress

/-- R262: DECANT_FLIP_APPLY. -/
def execDecantFlipApply (op : Nat) (die : Nat) (s : State) : Out :=
  match s.findFlip op with
  | none => s.unitEvent die 4 false s
  | some o => s.unitEvent die 4 (s.flipApplyDue o die) (s.flipAt o die)

end Sys2Proof.Machine
end

