-- ==== Sys2Proof/Machine/Matrix.lean ====
section
/-! DEFINITION. The arithmetic of the matrix engine (R67 to R77, R268, R269, R282, R285, R286): aligned
blocks, exact block sums, their one rounding, accumulation, the press, and emission. -/

namespace Sys2Proof.Machine

/-! ## Tensor formats (R270) -/

/-- R270: the bits of an element of a format. -/
def formatBits : Nat → Nat
  | 0 => 32 | 1 => 16 | 2 => 16 | 3 => 8 | 4 => 8 | 5 => 8 | 6 => 4 | _ => 128
/-- R68, R270: the bytes of n contiguous elements. -/
def spanBytes (fmt n : Nat) : Nat := (n * formatBits fmt + 7) / 8
/-- R270: the floating-point layout of a format code. -/
def floatFormat : Nat → Option FFmt
  | 0 => some fmt32 | 1 => some fmt16 | 2 => some fmtB16 | 3 => some fmtE4M3 | 4 => some fmtE5M2
  | _ => none
/-- R73, R274: the layout of an accumulator code. -/
def accFormat : Nat → FFmt
  | 0 => fmt32 | 1 => fmt16 | _ => fmtB16
/-- The elements of a run of bytes that starts at an element boundary (R68). -/
def unpack (fmt n : Nat) (bs : List Byte) : List Nat :=
  (List.range n).map fun k =>
    if fmt = 6 then (getI 0 bs (k / 2)).toNat / 16 ^ (k % 2) % 16
    else leField bs (k * (formatBits fmt / 8)) (formatBits fmt / 8)
/-- R69: an I8 byte as a signed integer. -/
def signed8 (x : Nat) : Int := if x < 128 then x else (x : Int) - 256

/-! ## Aligned blocks (R71, R268) -/

/-- An element's value: a float's, or an integer byte's. -/
def elementValue (fmt x : Nat) : FVal :=
  match floatFormat fmt with
  | some f => decodeF f x
  | none => .fin (decide (signed8 x < 0)) (signed8 x).natAbs 0

/-- R71: the exponent of a nonzero element; a subnormal counts as the smallest normal. -/
def elementExp (fmt : Nat) : FVal → Option Int
  | .fin _ m e =>
    if m = 0 then none
    else
      let x := e + (bitLen m : Int) - 1
      some (match floatFormat fmt with | some f => max x f.emin | none => x)
  | _ => none

/-- The largest of some exponents. -/
def largestExp : List (Option Int) → Option Int
  | [] => none
  | x :: xs => match x, largestExp xs with
    | none, r => r
    | some a, none => some a
    | some a, some b => some (max a b)

/-- R71: one element at an exponent and a width. -/
def alignOne (e : Int) (p : Nat) : FVal → Int
  | .fin neg m q =>
    let t := (roundUnits .rne 0 ⟨neg, m, q, false⟩ (e - p + 2)).1
    if neg then -(t : Int) else if t = 2 ^ (p - 1) then (2 ^ (p - 1) : Nat) - 1 else t
  | _ => 0

/-- R71: a block of A; an infinity or a NaN makes it bad. -/
def alignBlock (fmt p : Nat) (xs : List Nat) : ABlock :=
  if fmt = 5 ∧ p = 8 then ⟨xs.map signed8, 6, false⟩
  else
    let vs := xs.map (elementValue fmt)
    let bad := vs.any fun v => match v with | .fin _ _ _ => false | _ => true
    match largestExp (vs.map (elementExp fmt)) with
    | none => ⟨xs.map fun _ => 0, 0, bad⟩
    | some e => ⟨vs.map (alignOne e p), e, bad⟩

/-- R268: a block of B in the macros, from its elements, its block scale code and its group scale. -/
def weightBlock (fmt : Nat) (xs : List Nat) (q : Nat) (g : Word) : WBlock :=
  if fmt = 2 then
    let b := alignBlock 2 16 xs
    ⟨b.m, b.e, 255, 0x3F800000#32, b.bad⟩
  else ⟨xs.map (if fmt = 6 then nq4Value else signed8), 0, q, g, false⟩

/-! ## Block sums and their scaling (R72, R269, R285) -/

/-- R285: the exact sums of a block's products by sign, with the counts of nonzero ones. -/
def blockSum (a : ABlock) (w : WBlock) : BlockSum :=
  let ps := List.zipWith (· * ·) a.m w.w
  let up := ps.filter fun x => decide (0 < x)
  let down := ps.filter fun x => decide (x < 0)
  ⟨up.sum, -down.sum, up.length, down.length, a.bad || w.bad⟩

/-- A block's exact contribution for an integer sum (R72, R269). A contribution of 0 is +0, whatever the sign of G: the
spec gives its real value alone (DESIGN CHOICE, log entry 68). -/
def scaled (fmtB p : Nat) (a : ABlock) (w : WBlock) (dot : Int) : FReal :=
  let e0 := a.e - p + 2
  if fmtB = 2 then .real ⟨decide (dot < 0), dot.natAbs, e0 + w.eb - 14, false⟩
  else match decodeF fmt32 w.g.toNat with
    | .nan _ => .nan false
    | .inf n => if dot = 0 then .nan false else .inf (n != decide (dot < 0))
    | .fin n m e =>
      let k := dot.natAbs * (w.q + 1) * m
      .real ⟨decide (k ≠ 0) && (n != decide (dot < 0)), k, e + e0 - 14, false⟩

/-- An exact result rounded by RNE to a format; the engine keeps no flags (R72, R74). -/
def engineRound (f : FFmt) (x : FReal) : Nat := (deliverF f .rne false false 0 x).bits
/-- R74: an accumulator addition. -/
def accAdd (f : FFmt) (a b : Nat) : Nat :=
  engineRound f (addReal .rne (decodeF f a).toReal (decodeF f b).toReal)
/-- An element of a format is a NaN. -/
def isNan (f : FFmt) (x : Nat) : Bool := match decodeF f x with | .nan _ => true | _ => false

/-- R72, R76: one output element of a row: its blocks' contributions, each rounded once, added in ascending
order. The first contribution is the partial that the others are added to: the spec names no accumulator of +0 before it,
which would show only where contributions are −0 (DESIGN CHOICE, log entry 68). -/
def rowElement (acc fmtB p : Nat) (bs : List (ABlock × WBlock × BlockSum)) : Accum :=
  let f := accFormat acc
  let terms := bs.map fun x =>
    if x.2.2.bad then f.nanBits else engineRound f (scaled fmtB p x.1 x.2.1 (x.2.2.pos - x.2.2.neg))
  match terms with
  | [] => ⟨0, 0, 0, 0⟩
  | t :: ts => ⟨ts.foldl (accAdd f) t, 0, 0, 0⟩

/-- R285: the sign of a group scale: none for a zero or a NaN. -/
def scaleSign (w : WBlock) : Option Bool :=
  match decodeF fmt32 w.g.toNat with
  | .nan _ => none
  | .inf n => some n
  | .fin n m _ => if m = 0 then none else some n

/-- R285: the sums and counts of a block as the sign of G turns them. -/
def signedSum (w : WBlock) (b : BlockSum) : BlockSum :=
  match scaleSign w with
  | none => ⟨0, 0, 0, 0, b.bad⟩
  | some false => b
  | some true => ⟨b.neg, b.pos, b.cn, b.cp, b.bad⟩

/-- R75: a count with saturation. -/
def addCount (a b : Nat) : Nat := min (a + b) 0xFFFFFF

/-- R285: one block added to a split element. -/
def splitAdd (fmtB p : Nat) (c : Accum) (x : ABlock × WBlock × BlockSum) : Accum :=
  let w := { x.2.1 with g := x.2.1.g &&& 0x7FFFFFFF#32 }
  let s := signedSum x.2.1 x.2.2
  let term (n : Int) : Nat := if s.bad then fmt32.nanBits else engineRound fmt32 (scaled fmtB p x.1 w n)
  ⟨accAdd fmt32 c.p (term s.pos), accAdd fmt32 c.n (term s.neg), addCount c.cp (if s.bad then 0 else s.cp),
    addCount c.cn (if s.bad then 0 else s.cn)⟩

/-- R285: one split output element of a row. -/
def splitElement (fmtB p : Nat) (bs : List (ABlock × WBlock × BlockSum)) : Accum :=
  let c := bs.foldl (splitAdd fmtB p) ⟨0, 0, 0, 0⟩
  if isNan fmt32 c.p || isNan fmt32 c.n then { c with p := fmt32.nanBits, n := fmt32.nanBits } else c

/-- R291: the element that a failed row drains. -/
def nanElement (split : Bool) (acc : Nat) : Accum :=
  if split then ⟨fmt32.nanBits, fmt32.nanBits, 0, 0⟩ else ⟨(accFormat acc).nanBits, 0, 0, 0⟩

/-! ## The press (R75, R282) -/

/-- The bytes of an element of C. -/
def accSize (split : Bool) (acc : Nat) : Nat := if split then 16 else if acc = 0 then 4 else 2
/-- R75: a split element's bytes read. -/
def readSplit (bs : List Byte) : Accum := ⟨leField bs 0 4, leField bs 4 4, leField bs 8 3, leField bs 11 3⟩
/-- R75: a split element's bytes. -/
def Accum.bytes (c : Accum) : List Byte := leBytes 4 c.p ++ leBytes 4 c.n ++ leBytes 3 c.cp ++ leBytes 3 c.cn ++ leBytes 2 0
/-- R282: an element of C with a partial added. -/
def pressElement (split : Bool) (acc : Nat) (old : List Byte) (x : Accum) : List Byte :=
  if split then
    let c := readSplit old
    (⟨accAdd fmt32 c.p x.p, accAdd fmt32 c.n x.n, addCount c.cp x.cp, addCount c.cn x.cn⟩ : Accum).bytes
  else leBytes (accSize false acc) (accAdd (accFormat acc) (leNat old) x.p)

/-! ## Emission (R286) -/

/-- IEEE division of exact reals, with its sticky bit. -/
def divReal : FReal → FReal → FReal
  | .nan i, _ => .nan i
  | _, .nan i => .nan i
  | .inf _, .inf _ => .nan true
  | .inf a, .real y => .inf (a != y.neg)
  | .real x, .inf b => .real ⟨x.neg != b, 0, 0, false⟩
  | .real x, .real y =>
    if y.m = 0 then (if x.m = 0 then .nan true else .inf (x.neg != y.neg))
    else
      let k := bitLen y.m + 64
      let n := x.m * 2 ^ k
      .real ⟨x.neg != y.neg, n / y.m, x.e - y.e - k, decide (n % y.m ≠ 0)⟩

/-- A real as a value to compare. -/
def FReal.value : FReal → FVal
  | .nan s => .nan s
  | .inf n => .inf n
  | .real x => .fin x.neg x.m x.e

/-- What emission gives for one element: its bits, whether it is gated, zero or saturated, and alpha rounded
down to FP16 when it counts. -/
structure Emitted where
  bits : Nat
  gated : Bool
  zero : Bool
  sat : Bool
  alpha : Option Nat
  deriving DecidableEq, Repr

/-- R286: the emission of one element under a drain mode and a threshold. -/
def emitElement (acc mode tau : Nat) (c : Accum) : Emitted :=
  let f := accFormat acc
  let p := decodeF fmt32 c.p
  let n := decodeF fmt32 c.n
  let less := compareF p n == some .lt
  let lo := if less then p else n
  let hi := if less then n else p
  let bad := isNan fmt32 c.p || isNan fmt32 c.n
  let zero := !bad && (match hi with | .fin _ m _ => m == 0 | _ => false)
  let rho := if zero then 0 else if bad then fmt16.nanBits else engineRound fmt16 (divReal lo.toReal hi.toReal)
  let nan := bad || isNan fmt16 rho
  let alpha := addReal .rne (.real ⟨false, 1, 0, false⟩) (decodeF fmt16 rho).toReal.negate
  let diff := engineRound f (addReal .rne p.toReal n.toReal.negate)
  let gated := !nan && mode == 2 && compareF alpha.value (decodeF fmt16 tau) == some .lt
  { bits := if nan then f.nanBits else if gated then 0
      else if mode = 1 then engineRound f (decodeF fmt16 rho).toReal else diff,
    gated := gated, zero := zero, sat := c.cp == 0xFFFFFF || c.cn == 0xFFFFFF,
    alpha := if zero || nan then none else some (deliverF fmt16 .rdn false false 0 alpha).bits }

/-- R287: an element joins what a task has emitted; valid says that an alpha has been seen. -/
def Agreement.join (a : Agreement) (x : Emitted) : Agreement :=
  let least := match x.alpha with
    | none => a.alpha
    | some v => if a.valid && compareF (decodeF fmt16 v) (decodeF fmt16 a.alpha) != some .lt then a.alpha else v
  { a with count := a.count + 1, gated := a.gated + (if x.gated then 1 else 0),
           zero := a.zero + (if x.zero then 1 else 0), sat := a.sat + (if x.sat then 1 else 0),
           alpha := least, valid := a.valid || x.alpha.isSome }

end Sys2Proof.Machine
end

