-- ==== Sys2Proof/Machine/Tiles.lean ====
section
/-! DEFINITION. Tensor ids, tile-task queues and records, the tile-task instructions, and the task scheduler
(R270 to R278, R281, R287, R292 to R300, R302, R403). -/

namespace Sys2Proof.Machine

/-! ## Records (R267, R274, R275) -/

/-- A byte of a task's record. -/
def Task.u8 (t : Task) (i : Nat) : Nat := leField t.record i 1
/-- A 16-bit field of a task's record. -/
def Task.u16 (t : Task) (i : Nat) : Nat := leField t.record i 2
/-- A 32-bit field of a task's record. -/
def Task.u32 (t : Task) (i : Nat) : Nat := leField t.record i 4
/-- A 64-bit field of a task's record. -/
def Task.u64 (t : Task) (i : Nat) : Nat := leField t.record i 8
/-- ORDERED. -/
def Task.ordered (t : Task) : Bool := (t.u8 2).testBit 0
/-- SPLIT. -/
def Task.split (t : Task) : Bool := (t.u8 2).testBit 1
/-- EMIT. -/
def Task.emits (t : Task) : Bool := (t.u8 2).testBit 2
/-- P of R71: 16 under A16, else 8. -/
def Task.width (t : Task) : Nat := if (t.u8 2).testBit 3 then 16 else 8
/-- The fault policy is STOP. -/
def Task.stops (t : Task) : Bool := t.u8 6 == 0
/-- The split index. -/
def Task.part (t : Task) : Nat := t.u16 36
/-- M. -/
def Task.rows (t : Task) : Nat := t.u32 24
/-- N. -/
def Task.cols (t : Task) : Nat := t.u32 28
/-- K. -/
def Task.depth (t : Task) : Nat := t.u32 32
/-- The captured entry of a role: 0 A, 1 B, 2 C, 3 E. -/
def Task.entry (t : Task) (role : Nat) : List Byte := getI [] t.entries role
/-- R270: a captured entry's format. -/
def Task.format (t : Task) (role : Nat) : Nat := leField (t.entry role) 0 1
/-- Its inner extent. -/
def Task.inner (t : Task) (role : Nat) : Nat := leField (t.entry role) 4 4
/-- Its outer extent. -/
def Task.outer (t : Task) (role : Nat) : Nat := leField (t.entry role) 8 4
/-- R270: the address of element (i, o) of a captured entry, i at a byte boundary. -/
def Task.element (t : Task) (role i o : Nat) : Nat :=
  leField (t.entry role) 24 8 + o * leField (t.entry role) 16 8 + spanBytes (t.format role) i

/-- R267: Kspan. -/
def kSpan (arrangement : Nat) : Nat := 1024 / 2 ^ arrangement
/-- R267: Nspan for a column factor. -/
def nSpan (arrangement factor : Nat) : Nat := 256 * 2 ^ arrangement / factor
/-- R267: the macro columns for an output column. -/
def Task.factor (t : Task) : Nat := (if t.format 1 = 2 then 2 else 1) * (if t.split then 2 else 1)

/-- R275: what TT.ENQ refuses in an image. -/
def tileRecordBad (r : List Byte) : Bool :=
  let flags := leField r 2 1
  let arr := leField r 3 1
  let m := leField r 24 4
  let n := leField r 28 4
  let k := leField r 32 4
  let count := leField r 38 2
  let split := flags.testBit 1
  decide (4 < leField r 0 1) || decide (2 < arr) || decide (2 < leField r 4 1) || decide (2 < leField r 5 1)
    || decide (1 < leField r 6 1) || decide (31 < flags) || leField r 7 1 != 0 || leField r 102 2 != 0
    || leField r 112 16 != 0 || m == 0 || n == 0 || k == 0 || decide (count ≤ leField r 36 2)
    || decide (4096 < count) || (leField r 5 1 != 0 && !split) || (flags.testBit 2 && !split)
    || (flags.testBit 2 && decide (1 < count) && !flags.testBit 0)
    || (if leField r 0 1 = 0 then
          decide (nSpan arr (if split then 2 else 1) < n) || decide (kSpan arr < k)
            || leField r 20 4 % 64 != 0 || k % 64 != 0
        else leField r 110 1 == 0 || leField r 111 1 == 0 || decide (8 < leField r 108 1 + leField r 110 1)
          || decide (8 < leField r 109 1 + leField r 111 1))

/-! ## Queue operands (R273, R293) -/

/-- R293, R306: the form of a queue access. -/
def queueForm (align : Nat) (need : Need) : MemForm :=
  { need := need, align := align, admits := globalOnly, kind := 0x0C, reads := true, writes := need.w,
    host := false, posted := false, view := .home }

/-- R293: the queue address of the issuing cane is checked, and its header read at the press; a poisoned one traps
POISONED_DATA (R209; log entry 30), and a bad one ILLEGAL_ENCODING. A release (rel) whose header cannot be accessed is one
at dom (R329; DESIGN CHOICE, log entry 70). -/
def State.withQueue (s : State) (m : Marks) (need : Need) (rel : Bool) (addr : Dword)
    (effect : State → Nat → List Byte → State) : State :=
  let l := firstLane s.cur.unguarded
  s.access m { queueForm 64 need with release := if rel then some 5 else none } 64 true [(l, addr.toNat)] fun s accs =>
    match accs.head?.bind (·.segs.head?) with
    | some (.glob pa _) =>
      let h := (List.range 64).map fun i => s.homeByte (pa + i)
      if queueHeaderOk h (leField h 8 8) then effect s pa h else s.raise .illegalEncoding
    | _ => s.raise .illegalEncoding

/-- R273: the order, scope and slot base of a header. -/
def headerOrder (h : List Byte) : Nat := leField h 4 1
/-- R273: the scope. -/
def headerScope (h : List Byte) : Nat := leField h 5 1
/-- R273: the address of a slot. -/
def headerSlot (h : List Byte) (i : Nat) : Nat := leField h 16 8 + 128 * (i % 2 ^ headerOrder h)

/-- R294: every slot page is translated: the slots' bytes, for the issuing cane, which reads and writes a slot (R377). A release (rel)
is so at the queue's scope (R329). -/
def State.withSlots (s : State) (m : Marks) (need : Need) (rel : Bool) (h : List Byte) (effect : State → List Seg → State) :
    State :=
  let l := firstLane s.cur.unguarded
  let f : MemForm :=
    { queueForm 1 need with reads := false, writes := false, leaves := false,
                            release := if rel then some (headerScope h) else none }
  s.access m f (128 * 2 ^ headerOrder h) false
    [(l, leField h 16 8)] fun s accs => match accs with
      | a :: _ => s.enter 3 fun s => effect s a.segs
      | [] => s

/-- The physical address of slot i. -/
def queueSlot (h : List Byte) (segs : List Seg) (i : Nat) : Nat :=
  match (sliceSegs (128 * (i % 2 ^ headerOrder h)) 128 segs).head? with
  | some (.glob pa _) => pa
  | _ => 0

/-- The decode checks of the queue instructions, and no effect when no lane is left (R293, R317). -/
def State.queueAttempt (s : State) (regs fields : List Nat) (effect : State) : Out :=
  let c := s.cur
  s.attemptReading (operandLanes true c.unguarded) regs [c.beyond (regs ++ fields), (c.routine == .exit, .illegalEncoding)] effect

/-! ## TT.ENQ (R294) -/

/-- The 128 bytes of a V register, lane by lane. -/
def Cane.image (c : Cane) (reg : Nat) : List Byte := lanes.flatMap fun l => leBytes 4 (c.V reg l).toNat

/-- R273, R294: the owner of an enqueued task: none when the header names a parcel that the cane's terrace does
not have. -/
def State.queueOwner (s : State) (owner : Nat) : Option (Option Parcel) :=
  let w := s.wgOf s.cur
  if owner = 0 then some (w.parcel.bind s.findParcel)
  else (s.parcels.find? fun p => p.addr == owner && p.terrace == w.terrace).map some

/-- R273: the die that a task of the issuing cane is served at. -/
def State.queueDie (s : State) (h : List Byte) : Nat :=
  servedAt h (dieOfCore s.cur.core)

/-- R299: a TT.ENQ captures SACC.CFG as it issues. -/
def State.noteSacc (s : State) : State :=
  s.updCur fun c => { c with saccSeen := some (c.saccSeen.getD (s.core c.core).sacc) }

/-- R294: the record as the slot holds it. -/
def State.slotImage (s : State) (r : List Byte) (status tail : Nat) : List Byte :=
  let c := s.cur
  let name := (s.imageOf c).codeName s.iss.addr.toNat s.iss.stop
  r.take 1 ++ leBytes 1 status ++ (r.drop 2).take 78 ++ leBytes 4 0 ++ leBytes 4 tail
    ++ leBytes 4 (c.saccSeen.getD (s.core c.core).sacc).toNat ++ leBytes 4 name.region ++ leBytes 4 name.ordinal
    ++ leBytes 2 name.offset ++ (r.drop 102).take 26

/-- R287: at the enqueue of an emitting task its agreement entry turns invalid. -/
def Core.claimAgreement (k : Core) (task index : Nat) : Core :=
  let e := getI .clear k.agreement (index % 16)
  { k with agreement := setI .clear k.agreement (index % 16) { e with owner := task, valid := false } }

/-- R294: the task of a claimed tail position. -/
def State.newTask (s : State) (p : Option Parcel) (qpa slot tail : Nat) (h image : List Byte) : Task :=
  let c := s.cur
  let w := s.wgOf c
  { id := s.nextId, terrace := w.terrace, vdev := w.vdev, die := s.queueDie h, queue := qpa, slot := slot,
    scope := headerScope h, parcel := p.map (·.id), owner := (p.map (·.addr)).getD 0, index := tail % 2 ^ 32,
    core := c.core, record := image, status := .queued, progress := 0, entries := [], cluster := 0,
    step := .loadB 0, bKey := [], aRow := [], ahead := none, aBlocks := [], sums := [], partials := [], loadFailed := false,
    rowFailed := false, failed := false, stopping := false, cancelled := false, doomed := false, throttled := 0,
    started := false, denied := [], agreement := .clear }

/-- R294: the slot is written, its status last as a signalled write, and the task is queued. -/
def State.fillSlot (s : State) (m : Marks) (a : BitVec 7) (p : Option Parcel) (qpa slot tail : Nat)
    (h r : List Byte) : State :=
  let c := s.cur
  let w := s.wgOf c
  let d := dieOfCore c.core
  let image := s.slotImage r (s.homeByte (slot + 1)).toNat tail
  let t := s.newTask p qpa slot tail h image
  let s := { s with nextId := s.nextId + 1, tasks := s.tasks ++ [t] }
  let s := s.launchWrite d w.terrace (some c.id) w.parcel false false slot image
  let s := s.launchWrite d w.terrace (some c.id) w.parcel true false (slot + 1) [1#8]
  let s := if t.isMatmul && t.split && t.emits then
      s.setCore c.core ((s.core c.core).claimAgreement t.id t.index) else s
  (s.updCur fun c => c.setV (1#32 <<< 21) a.toNat fun _ => BitVec.ofNat 32 tail).finishOnce m

/-- R294: TT.ENQ with its header read and its slots translated: the tail is claimed at the press, and the slot
filled after a release. CLOSED and the record are checked once, before it first waits for its slot. -/
def State.enqueueTask (s : State) (m : Marks) (a : BitVec 7) (qpa : Nat) (h : List Byte) (segs : List Seg)
    (p : Option Parcel) : State :=
  let c := s.cur
  let w := s.wgOf c
  let r := c.image a.toNat
  let tail := if c.stage = 1 then c.stageArg else leField h 24 8
  let slot := queueSlot h segs tail
  let status := (s.homeByte (slot + 1)).toNat
  let release (s : State) : State := s.afterRelease (some (headerScope h)) fun s =>
    if 1021 < s.cur.hcnt then s.park .storeRoom else s.fillSlot m a p qpa slot tail h r
  if c.stage = 1 then release s
  else if s.poisoned (slot + 1) 1 then s.raise .poisonedData
  else if status = 1 ∨ status = 2 then
    (s.updCur fun c => { c with stageArg := 1 }).park (.ring (.glob slot) (.glob slot))
  else if !s.clockCovered (dieOfCore c.core) (s.homeDie qpa) then s.park (.press qpa)
  else
    let s := s.pressWrite (dieOfCore c.core) w.terrace none w.parcel false false (qpa + 24)
      (leBytes 8 ((tail + 1) % 2 ^ 64)) []
    release (s.updCur fun c => { c with stage := 1, stageArg := tail })

/-- R294: TT.ENQ. -/
def execTtEnq (m : Marks) (d a b : BitVec 7) (s : State) : Out :=
  let c := s.cur
  let mk := c.unguarded
  s.queueAttempt (addrRegs d ++ voffRegs b) [a.toNat]
    (if mk = 0 then s.finishOnce m
     else match c.poisonedRow 0xFFFFFFFF#32 [a.toNat] with
      | some r => s.raisePoisonedRow 0xFFFFFFFF#32 r
      | none => (s.noteSacc.parksAs 7).withQueue m needRW true (s.addrAt d b (firstLane mk)) fun s qpa h =>
        match s.queueOwner (leField h 8 8) with
        | none => s.raise .illegalEncoding
        | some p =>
          if s.cur.stage = 0 ∧ s.cur.stageArg = 0 ∧ ((leField h 6 1).testBit 0 ∨ tileRecordBad (s.cur.image a.toNat)) then
            s.raise .illegalEncoding
          else s.withSlots m needRW true h fun s segs => s.enqueueTask m a qpa h segs p)

/-! ## TT.WAIT (R295) -/

/-- R295: the wait on task i by what its slot holds: none while it lasts, else r. -/
def waitResult (status index i : Nat) : Option Nat :=
  let ahead := (index + 2 ^ 32 - i) % 2 ^ 32
  if index = i ∧ 3 ≤ status then some (if status = 3 then 1 else 0)
  else if 1 ≤ ahead ∧ ahead < 2 ^ 31 then some 0 else none

/-- R295: r goes to p[D]. -/
def State.ttResult (s : State) (m : Marks) (d : BitVec 3) (r : Nat) : State :=
  (s.updCur fun c => c.setP c.unguarded d.toNat (if r = 0 then 0 else 0xFFFFFFFF#32)).finishOnce m

/-- R295: TT.WAIT at its slot. -/
def State.waitSlot (s : State) (m : Marks) (d : BitVec 3) (scope slot i : Nat) : State :=
  let c := s.cur
  let k := dieOfCore c.core
  let t := (s.wgOf c).terrace
  let s := s.allocL2 k (lineOf slot) t
  let bs := s.bytesFor t k slot 128
  if s.poisonFor t k (slot + 1) 1 || s.poisonFor t k (slot + 84) 4 then s.raise .poisonedData
  else match waitResult (leField bs 1 1) (leField bs 84 4) i with
  | none => if (s.wgOf c).exiting then s.ttResult m d 0 else s.park (.task (.glob slot))
  | some r =>
    let past := ((s.l2Copy k (lineOf slot)).map (·.past)).getD (s.pastOf (lineOf slot))
    if !s.acquirable scope past then s.park (.press slot)
    else ((s.updCur fun c => { c with seen := joinClocks c.seen past }).acquireL1 scope).ttResult m d r

/-- R295: TT.WAIT. -/
def execTtWait (m : Marks) (d : BitVec 3) (a b : BitVec 7) (s : State) : Out :=
  let c := s.cur
  let mk := c.unguarded
  let i := (c.uread b.toNat).toNat
  s.queueAttempt (addrRegs a ++ [b.toNat]) []
    (if mk = 0 then s.finishOnce m
     else match c.answer with
      | some r => s.ttResult m d r
      | none => (s.parksAs 7).withQueue m needR false (s.addrOnly a (firstLane mk)) fun s _ h =>
        s.withSlots m needR false h fun s segs => s.waitSlot m d (headerScope h) (queueSlot h segs i) i)

/-! ## Tasks and groups -/

/-- A task changed. -/
def State.updTask (s : State) (id : Nat) (f : Task → Task) : State :=
  { s with tasks := s.tasks.map fun t => if t.id == id then f t else t }
/-- The task of a name. -/
def State.findTask (s : State) (id : Nat) : Option Task := s.tasks.find? fun t => t.id == id
/-- The context in which the device acts for a task. -/
def Task.ctx (t : Task) : Ctx := ⟨t.terrace, t.vdev, t.die, t.parcel⟩
/-- R283: what identifies a task's ORDERED group within its queue. -/
def Task.groupName (t : Task) : List Nat := [t.u8 10, t.u32 12, t.u32 16, t.rows, t.cols, t.u16 38]
/-- R283: a task's ORDERED group as far as it has come. -/
def State.groupOf (s : State) (t : Task) : OrderedGroup :=
  (s.groups.find? fun g => g.queue == t.queue && g.name == t.groupName).getD ⟨t.queue, t.groupName, [], [], []⟩
/-- A group changed; one whose members have all retired is gone. -/
def State.updGroup (s : State) (t : Task) (f : OrderedGroup → OrderedGroup) : State :=
  if !t.isMatmul || !t.ordered then s
  else
    let g := f (s.groupOf t)
    let rest := s.groups.filter fun x => !(x.queue == t.queue && x.name == t.groupName)
    { s with groups := if t.u16 38 ≤ g.left.length then rest else g :: rest }

/-- R291: the record of a task's failure. -/
def State.taskRecord (s : State) (t : Task) (cause : Cause) (kind addr : Nat) : State :=
  let head : RecordHead := ⟨cause, 1, 1, 0, ⟨t.u32 92, t.u32 96, t.u16 100, false⟩, 0xFFFF, 0xFFFFFFFF, 0xFF⟩
  s.recordFault t.terrace t.die t.core t.parcel head (laneEntry t.index ⟨0, cause, 0, kind, addr⟩) true

/-- R364: a tile task has been issued or has retired: the trace unit of its die records its status, at the core and the
place of its TT.ENQ. -/
def State.traceTask (s : State) (t : Task) (status : Nat) : State :=
  s.traceEvent t.terrace t.die t.core 0xFF 6 status ⟨t.u32 92, t.u32 96, t.u16 100, false⟩ (t.u16 100)

/-- R291: a failure of a task. -/
def State.failTask (s : State) (t : Task) (cause : Cause) (kind addr : Nat) : State :=
  (s.updTask t.id fun t => { t with failed := true }).taskRecord t cause kind addr

/-- The homes of some lines have applied what a die's clock shows (R217). -/
def State.homesReady (s : State) (d : Nat) (pas : List Nat) : Bool :=
  pas.all fun a => s.clockCovered d (s.homeDie a)

/-- The device writes into a task's slot. -/
def State.taskWrite (s : State) (t : Task) (signalled : Bool) (pa : Nat) (bytes : List Byte) : State :=
  s.launchWrite t.die t.terrace none t.parcel signalled false pa bytes
/-- R273: head or done of a task's queue, at an offset of its header, advances at the press. -/
def State.countQueue (s : State) (t : Task) (off : Nat) : State :=
  let n := leNat ((List.range 8).map fun i => s.homeByte (t.queue + off + i))
  s.pressWrite t.die t.terrace none t.parcel false false (t.queue + off) (leBytes 8 ((n + 1) % 2 ^ 64)) []

/-! ## Collective keys (R288) -/

/-- R288: the key of a collective task. -/
def State.collKey (s : State) (t : Task) : CollKey :=
  (s.keys.find? fun k => k.terrace == t.terrace && k.key == t.u32 104).getD ⟨t.terrace, t.u32 104, false, false, 0⟩
/-- R288: how many members a task's key has. -/
def Task.ranks (t : Task) : Nat := t.u8 110 * t.u8 111
/-- A key changed; one whose members have all retired is free. -/
def State.updKey (s : State) (t : Task) (f : CollKey → CollKey) : State :=
  let k := f (s.collKey t)
  let rest := s.keys.filter fun x => !(x.terrace == t.terrace && x.key == t.u32 104)
  { s with keys := if t.ranks ≤ k.retired then rest else k :: rest }
/-- R288: the members of a task's key that have been issued, have not failed and have not retired. -/
def State.members (s : State) (t : Task) : List Task :=
  s.tasks.filter fun x => x.terrace == t.terrace && !x.isMatmul && x.u32 104 == t.u32 104
    && x.status == .running && !x.doomed

/-- A member of a key ends with an error. -/
def State.endMember (s : State) (x : Task) : State :=
  let s := s.updTask x.id fun t => { t with doomed := true, step := .ended }
  { s with partials := s.partials.filter fun p => p.task != x.id }

/-- R288: a member's failure: its own record, every other member's, and all of them end with an error. -/
def State.failKey (s : State) (t : Task) (cause : Cause) (kind addr : Nat) : State :=
  let others := (s.members t).filter fun x => x.id != t.id
  let s := (s.failTask t cause kind addr).endMember t
  let s := others.foldl (fun s x => (s.failTask x .asyncFailure 0x24 (t.u32 104)).endMember x) s
  s.updKey t fun k => { k with failed := true }

/-- R288, R292: a member is cancelled: every other member ends with an error. -/
def State.cancelKey (s : State) (t : Task) : State :=
  ((s.members t).foldl State.endMember s).updKey t fun k => { k with cancelled := true }

/-! ## TT.CANCEL (R292, R296) -/

/-- R292: a task is cancelled: whether that changes its status, and the state. -/
def State.cancelTask (s : State) (t : Task) : State :=
  match t.status with
  | .queued =>
    let s := s.updTask t.id fun t => { t with status := .cancelled, step := .ended }
    if t.isMatmul then s else s.cancelKey t
  | .running =>
    if t.isMatmul then s.updTask t.id fun t => { t with stopping := true, cancelled := true } else s.cancelKey t
  | _ => s

/-- R292: a task that is QUEUED or RUNNING, and does not already end with an error. -/
def Task.cancellable (t : Task) : Bool :=
  t.status == .queued
    || (t.status == .running && (t.step != .ended || (!t.doomed && !(t.isMatmul && t.failed && t.stops))))

/-- R296: TT.CANCEL on a task of a queue. -/
def State.cancelAt (s : State) (m : Marks) (d : BitVec 3) (qpa i : Nat) : State :=
  match s.tasks.find? fun t => t.queue == qpa && t.index == i && t.cancellable with
  | none => s.ttResult m d 0
  | some t =>
    let s := s.cancelTask t
    if t.isMatmul && t.status == .running then s.park (.cancel t.id) else s.ttResult m d 1

/-- R296: TT.CANCEL. -/
def execTtCancel (m : Marks) (d : BitVec 3) (a b : BitVec 7) (s : State) : Out :=
  let c := s.cur
  let mk := c.unguarded
  let i := (c.uread b.toNat).toNat
  s.queueAttempt (addrRegs a ++ [b.toNat]) []
    (if mk = 0 then s.finishOnce m
     else match c.answer with
      | some r => s.ttResult m d r
      | none => (s.parksAs 5).withQueue m needRW true (s.addrOnly a (firstLane mk)) fun s qpa h =>
        s.afterRelease (some (headerScope h)) fun s => s.cancelAt m d qpa i)

/-! ## Tensor ids (R297, R298) -/

/-- R297: what TID.SET refuses in an image for a terrace. -/
def State.tensorBad (s : State) (t : Nat) (e : List Byte) : Bool :=
  let fmt := leField e 0 1
  let flags := leField e 1 1
  let inner := leField e 4 4
  let outer := leField e 8 4
  let stride := leField e 16 8
  let base := leField e 24 8
  let tau := leField e 48 2
  let span := spanBytes fmt inner
  let scaled := flags.testBit 0
  let k := inner / 64
  let buf := getI .zero (s.terrace t).decants (leField e 2 1)
  decide (7 < fmt) || decide (7 < flags) || leField e 3 1 != 0 || leField e 12 4 != 0 || leField e 50 78 != 0
    || inner == 0 || outer == 0 || base % 16 != 0 || stride % 16 != 0 || decide (stride < span)
    || decide (2 ^ 52 ≤ base) || decide (2 ^ 52 ≤ leField e 32 8) || decide (2 ^ 52 ≤ leField e 40 8)
    || (fmt == 6 && !scaled) || (scaled && fmt != 5 && fmt != 6)
    || (scaled && (inner % 64 != 0 || (256 % k != 0 && k % 256 != 0) || leField e 40 8 % 4 != 0))
    || (flags.testBit 2 && (fmt != 7 || decide (0x3C00 < tau)))
    || (if flags.testBit 1 then
          !(buf.valid && decide (buf.base ≤ base)
            && decide (base + (outer - 1) * stride + span ≤ buf.base + buf.size))
        else leField e 2 1 != 0)

/-- A die's table with an entry replaced or dropped. -/
def Die.putTensor (d : Die) (t tid : Nat) (e : Option TensorEntry) : Die :=
  { d with tensors := e.toList ++ d.tensors.filter fun x => !(x.terrace == t && x.tid == tid) }

/-- R297: TID.SET. -/
def execTidSet (m : Marks) (a b : BitVec 7) (s : State) : Out :=
  let c := s.cur
  let w := s.wgOf c
  let mk := c.unguarded
  let id := (c.uread b.toNat).toNat
  let img := c.image a.toNat
  s.attemptReading (operandLanes true mk) [b.toNat]
    [c.beyond [a.toNat, b.toNat], (mk != 0 && decide (255 < id), .illegalEncoding),
     (mk != 0 && (c.poisonedRow 0xFFFFFFFF#32 [a.toNat]).isNone && s.tensorBad w.terrace img, .tensorId)]
    (if mk = 0 then s.finishOnce m
     else match c.poisonedRow 0xFFFFFFFF#32 [a.toNat] with
      | some r => s.raisePoisonedRow 0xFFFFFFFF#32 r
      | none =>
        let d := dieOfCore c.core
        let e : TensorEntry := ⟨w.terrace, id, img, w.owner, s.nextId⟩
        ({ s with nextId := s.nextId + 1 }.setDie d ((s.die d).putTensor w.terrace id (some e))).finishOnce m)

/-- R298: TID.CLR. -/
def execTidClr (m : Marks) (b : BitVec 7) (s : State) : Out :=
  let c := s.cur
  let mk := c.unguarded
  let id := (c.uread b.toNat).toNat
  let d := dieOfCore c.core
  s.attemptReading (operandLanes true mk) [b.toNat] [c.beyond [b.toNat], (mk != 0 && decide (255 < id), .illegalEncoding)]
    (if mk = 0 then s.finishOnce m
     else (s.setDie d ((s.die d).putTensor (s.wgOf c).terrace id none)).finishOnce m)

/-! ## SACC (R299, R300) -/

/-- R299: SACC.CFG. -/
def execSaccCfg (m : Marks) (a : BitVec 7) (s : State) : Out :=
  let c := s.cur
  let mk := c.unguarded
  let v := c.uread a.toNat
  s.attemptReading (operandLanes true mk) [a.toNat]
    [c.beyond [a.toNat],
     (mk != 0 && (decide (0x3C00 < bitsAt v 0 16) || bitsAt v 17 15 != 0), .illegalEncoding)]
    (if mk = 0 then s.finishOnce m
     else (s.setCore c.core { s.core c.core with sacc := v }).finishOnce m)

/-- R300: a field of an agreement entry. -/
def Agreement.field (e : Agreement) : Nat → Nat
  | 0 => e.index | 1 => e.count | 2 => e.gated | 3 => e.zero | 4 => e.sat | 5 => e.alpha
  | _ => if e.valid then 1 else 0

/-- R300: SACC.RD. -/
def execSaccRd (m : Marks) (d a : BitVec 7) (s : State) : Out :=
  let c := s.cur
  let mk := c.unguarded
  let v := c.uread a.toNat
  let k := s.core c.core
  let f := bitsAt v 4 3
  let r := if f = 7 then k.sacc.toNat else (getI .clear k.agreement (bitsAt v 0 4)).field f
  s.attemptReading (operandLanes true mk) [a.toNat]
    [c.beyond [d.toNat, a.toNat], (mk != 0 && bitsAt v 7 25 != 0, .illegalEncoding)]
    (if mk = 0 then s.finishOnce m
     else (s.updCur fun c => c.setV mk d.toNat fun _ => BitVec.ofNat 32 r).finishOnce m)

/-! ## The scheduler (R276 to R278) -/

/-- R290, R276: a task that its scheduler finds QUEUED: the home holds its status, and the die has applied what
the slot's writer released. -/
def State.taskVisible (s : State) (t : Task) : Bool :=
  t.status == .queued && decide (t.die < 4) && (s.homeByte (t.slot + 1)).toNat == 1
    && s.covers t.die (s.pastOf (lineOf t.slot))
    && t.parcel.all fun p => (s.findParcel p).isSome

/-- R276: the candidate of its queue. -/
def State.candidate (s : State) (t : Task) : Bool :=
  s.taskVisible t && !(s.tasks.any fun x => x.queue == t.queue && x.die == t.die && s.taskVisible x
    && decide (2 ^ 31 ≤ (x.index + 2 ^ 32 - t.index) % 2 ^ 32))

/-- R276, R283: the member of the next lower split index has been issued or has retired. -/
def State.orderedTurn (s : State) (t : Task) : Bool :=
  let g := s.groupOf t
  !t.isMatmul || !t.ordered || t.part == 0 || g.issued.contains (t.part - 1) || g.left.contains (t.part - 1)

/-- R292, R313, R314: a request holds a task from being issued. -/
def State.taskHeld (s : State) (t : Task) : Bool :=
  let p := t.parcel.bind s.findParcel
  s.held t.terrace t.vdev (p.any (·.drained))
    || s.workgroups.any fun w => w.parcel == t.parcel && t.parcel.isSome
      && w.request.any fun r => r.exitGrade && !r.victim

/-- R277: how a dependence stands. -/
inductive Dep where
  | met | unmet | refused
  /-- The counter's page misses, in stage 1 or (true) stage 2. -/
  | miss (page : Nat) (second : Bool)
  deriving DecidableEq, Repr

/-- R277: a counter that has no translation: refused without a queue to ask. -/
def State.depMiss (s : State) (t : Task) (page : Nat) (second : Bool) : Dep :=
  if (s.terrace (if second then mgmt else t.terrace)).faultQueue.isNone then .refused else .miss page second

/-- R277: one dependence of a task, its counter's address and target. A poisoned counter, whose data is not used as
a value (R207), and one that no path leads to are counters that cannot be read (R291; DEDUCED, log entry 76). -/
def State.dep (s : State) (t : Task) (x : Nat × Nat) : Dep :=
  let a := x.1
  let read (pa : Nat) : Dep :=
    if s.granulePoison t.terrace t.die (pa / 32) || !(s.pathTo t.terrace t.die pa == .arrives || s.heldAt t.die pa 8) then .refused
    else if decide (x.2 ≤ leNat (s.dieBytes t.die pa 8)) && s.covers t.die (s.pastOf (lineOf pa)) then .met else .unmet
  if a = 0 then .met
  else if 2 ^ 52 ≤ a || t.denied.contains (a / 65536) then .refused
  else if t.terrace ≥ 16 then (if physExists a then read a else .refused)
  else match s.walk t.die t.terrace t.vdev a with
    | .ok e => if e.r then read (e.pa + (a - e.va)) else .refused
    | .noRoot => .refused
    | .miss1 => s.depMiss t (a / 65536) false
    | .miss2 => s.depMiss t (a / 65536) true

/-- R274: a task's dependences. -/
def Task.deps (t : Task) : List (Nat × Nat) := [(t.u64 40, t.u64 48), (t.u64 56, t.u64 64)]

/-- R278: the B that a task's engine needs: its id and entry, extents, arrangement and column factor. -/
def State.loadKey (s : State) (t : Task) : List Nat :=
  match s.tensor t.die t.terrace (t.u8 9) with
  | none => []
  | some e => [t.terrace, t.die, e.tid, e.serial, t.u32 20, t.u32 16, t.depth, t.cols, t.u8 3,
      (if leField e.image 0 1 = 2 then 2 else 1) * (if t.split then 2 else 1)]

/-- R278, R384, R385: the matrix engine that takes a MATMUL. -/
def State.matrixEngine (s : State) (t : Task) : Option Nat :=
  let free := if t.terrace ≥ 16 then [] else
    (s.searchClusters t.terrace).filter fun k => k / 32 == t.die && !s.matmulOn k
  (free.find? fun k => (s.cluster k).macros.any fun b => b.key != [] && b.key == s.loadKey t).orElse
    fun _ => free.head?

/-- R276: a task may be issued but for the order among the die's. -/
def State.issuable (s : State) (t : Task) : Bool :=
  s.candidate t && !s.taskHeld t && s.orderedTurn t && t.deps.all (fun x => s.dep t x == .met)
    && (!t.isMatmul || (s.matrixEngine t).isSome)

/-- R276: the priority of a task. -/
def State.taskPriority (s : State) (t : Task) : Nat := ((t.parcel.bind s.findParcel).map (·.priority)).getD 15

/-- R276: a task that is issued before another. -/
def State.sooner (s : State) (x t : Task) : Bool :=
  decide (s.taskPriority t < s.taskPriority x) || (s.taskPriority t == s.taskPriority x && decide (x.id < t.id))

/-- R276: the task is the next one that its die issues. -/
def State.firstReady (s : State) (t : Task) : Bool :=
  s.issuable t && !(s.tasks.any fun x => x.die == t.die && s.issuable x && s.sooner x t)

/-- R281: the tensor id of the first check of a MATMUL that fails. -/
def Task.matmulCheck (t : Task) : Option Nat :=
  let f := t.format
  let used := if t.emits then [0, 1, 2, 3] else [0, 1, 2]
  let okA := 1 ≤ f 0 && f 0 ≤ 5
  let okB := ((f 1 == 5 || f 1 == 6) && (leField (t.entry 1) 1 1).testBit 0) || (f 1 == 2 && t.width == 16)
  let k := t.u32 20 + t.depth
  let m := t.u32 12 + t.rows
  let n := t.u32 16 + t.cols
  match used.find? fun r => t.entry r == [] with
  | some r => some (t.u8 (8 + r))
  | none =>
    (([(okA, 0), (okB, 1), (f 2 == (if t.split then 7 else t.u8 4), 2), (!t.emits || f 3 == t.u8 4, 3),
      (decide (k ≤ t.inner 0), 0), (decide (k ≤ t.inner 1), 1), (decide (m ≤ t.outer 0), 0),
      (decide (m ≤ t.outer 2), 2), (decide (n ≤ t.outer 1), 1), (decide (n ≤ t.inner 2), 2),
      (decide (t.cols ≤ nSpan (t.u8 3) t.factor), 1),
      (!t.emits || (decide (n ≤ t.inner 3) && decide (m ≤ t.outer 3)), 3)] : List (Bool × Nat)).find?
        fun x => !x.1).map fun x => t.u8 (8 + x.2)

/-- R288: the dies of a collective's rectangle, by number, in rank order. -/
def Task.dies (t : Task) : List Nat :=
  (List.range (t.u8 111)).flatMap fun y => (List.range (t.u8 110)).map fun x => t.u8 108 + x + 8 * (t.u8 109 + y)

/-- R281, R288: the tensor id of the first check of a collective or block copy that fails. -/
def Task.collectiveCheck (t : Task) : Option Nat :=
  let g := t.ranks
  let kind := t.u8 0
  let m := t.u32 12 + t.rows
  let n := t.u32 16 + t.cols
  let piece := if kind = 2 ∨ kind = 3 then t.cols / g else t.cols
  match ([0, 2] : List Nat).find? fun r => t.entry r == [] with
  | some r => some (t.u8 (8 + r))
  | none =>
    (([(t.format 0 == t.format 2, 2), ((kind != 1 && kind != 3) || t.format 0 == t.u8 4, 0),
      ((kind != 2 && kind != 3) || t.cols % g == 0, 0),
      (t.format 0 != 6 || (t.u32 16 % 2 == 0 && piece % 2 == 0), 0),
      (kind != 4 || g == 1, 0), (t.dies.contains (dieNumber t.die), 0), (decide (m ≤ t.outer 0), 0),
      (decide (m ≤ t.outer 2), 2), (decide (n ≤ t.inner 0), 0), (decide (n ≤ t.inner 2), 2)] :
        List (Bool × Nat)).find? fun x => !x.1).map fun x => t.u8 (8 + x.2)

/-- R403: the rectangle holds a die outside the launch's NBDIE. -/
def State.rectangleBad (s : State) (t : Task) : Bool :=
  decide (t.terrace < 16) && t.dies.any fun d => !(s.terrace t.terrace).part.nbdie.getLsbD d

/-- R278: the scheduler issues a task: head advances, the slot says RUNNING, and the entries are captured. -/
def State.beginTask (s : State) (t : Task) : State :=
  let s := ((s.countQueue t 32).taskWrite t false (t.slot + 1) [2#8]).traceTask t 2
  let entries := ([8, 9, 10, 11] : List Nat).map fun i =>
    ((s.tensor t.die t.terrace (t.u8 i)).map (·.image)).getD []
  (s.updGroup t fun g => { g with issued := t.part :: g.issued }).updTask t.id fun t =>
    { t with status := .running, entries := entries, stopping := false, rowFailed := false }

/-- R278, R281, R379: a MATMUL starts on a matrix engine, which needs no LOAD_B while its macros hold the
same B. -/
def State.issueMatmul (s : State) (t : Task) (k : Nat) : State :=
  let key := s.loadKey t
  let held := (s.cluster k).macros.any fun b => b.key != [] && b.key == key
  let s := (s.beginTask t).updTask t.id fun t =>
    { t with cluster := k, step := if held then .fetch else .loadB 0, bKey := key, loadFailed := false }
  match s.findTask t.id with
  | none => s
  | some x => match x.matmulCheck with
    | some tid => (s.failTask x .tensorId 0x25 tid).updTask t.id fun t => { t with doomed := true, step := .ended }
    | none =>
      let s := if held then s else s.setCluster k { s.cluster k with macros := some ⟨[], []⟩ }
      (s.setCluster k { s.cluster k with pauseFrom := (s.cluster k).cycle }).settlePoint k

/-- R288, R403: a collective is issued: it waits for its key, or fails with it. -/
def State.issueCollective (s : State) (t : Task) : State :=
  let s := (s.beginTask t).updTask t.id fun t => { t with step := .key }
  match s.findTask t.id with
  | none => s
  | some x =>
    if s.rectangleBad x then s.failKey x .tensorId 0x24 (x.u32 104)
    else match x.collectiveCheck with
      | some tid => s.failKey x .tensorId 0x25 tid
      | none =>
        let k := s.collKey x
        if k.failed then (s.failTask x .asyncFailure 0x24 (x.u32 104)).endMember x
        else if k.cancelled then s.endMember x
        else s.updKey x id

/-- R277, R325: a dependence's page is queued once as a translation entry. -/
def State.postDepMiss (s : State) (t : Task) (page : Nat) (second : Bool) : State :=
  let q := if second then mgmt else t.terrace
  if s.transEntries.any fun e => e.terrace == t.terrace && e.vdev == t.vdev && e.page == page && e.access == 0 then s
  else match s.queueRoom q t.die with
    | none => s
    | some (x, f, produced) =>
      let s := s.queueAppend x f produced (transBytes 0 (if second then t.terrace else 0) page
        (s.parcelAddr t.parcel) 0xFFFFFFFF)
      { s with transEntries := s.transEntries ++ [⟨s.nextId, q, produced, t.terrace, t.vdev, page, 0⟩],
               nextId := s.nextId + 1 }

/-- R277: a dependence counter cannot be read: the task retires with an error. -/
def State.refuseTask (s : State) (t : Task) (addr : Nat) : State :=
  let s := if t.isMatmul then s.failTask t .asyncFailure 0x26 addr else s.failKey t .asyncFailure 0x26 addr
  s.updTask t.id fun t => { t with status := .error, doomed := true, step := .ended }

/-- R276 to R278: the scheduler's step for a candidate: a counter's translation is asked for, a counter that
cannot be read ends it, or it is issued when its turn has come. -/
def State.scheduleTask (s : State) (t : Task) : State :=
  match t.deps.find? fun x => s.dep t x != .met with
  | some x => match s.dep t x with
    | .refused => s.refuseTask t x.1
    | .miss page second => s.postDepMiss t page second
    | _ => s
  | none =>
    if !s.firstReady t || !s.homesReady t.die [t.queue] then s
    else if t.isMatmul then (match s.matrixEngine t with
      | some k => s.issueMatmul t k
      | none => s)
    else s.issueCollective t

/-- R276: TASK_ISSUE. -/
def execTaskIssue (task : Nat) (s : State) : Out :=
  match s.findTask task with
  | none => .next s
  | some t => .next (if s.candidate t && !s.taskHeld t && s.orderedTurn t then s.scheduleTask t else s)

end Sys2Proof.Machine
end

