-- ==== Sys2Proof/Machine/Sequencer.lean ====
section
/-! DEFINITION. The steps of running tile tasks: the matrix engine's sequencer, the press path, collectives, and
retirement (R268, R269, R279 to R291). -/

namespace Sys2Proof.Machine

/-! ## A task's reads (R290, R291) -/

/-- A run cut at granules. -/
def granuleRuns (a n : Nat) : List (Nat × Nat) :=
  (granules a n).map fun g => (max a (32 * g), min (a + n) (32 * g + 32) - max a (32 * g))

/-- One piece of a task's read: its bytes, or none when it cannot be read or is poisoned. -/
def State.taskPiece (s : State) (t : Task) (va n : Nat) : State × Option (List Byte) :=
  match s.ctxTranslate t.ctx va needR with
  | none => (s, none)
  | some pa =>
    if isMmio pa then (s, none)
    else match s.readAtDie t.die t.terrace pa n with
      | none => (s, none)
      | some (s, bytes, bad) => (s, if bad then none else some bytes)

/-- A task's read of a run: its bytes, and the first address at which it fails. -/
def State.taskRead (s : State) (t : Task) (va n : Nat) : State × List Byte × Option Nat :=
  (granuleRuns va n).foldl (fun x r =>
    match x.1.taskPiece t r.1 r.2 with
    | (s, some bytes) => (s, x.2.1 ++ bytes, x.2.2)
    | (s, none) => (s, x.2.1 ++ List.replicate r.2 0#8, x.2.2.orElse fun _ => some r.1)) (s, [], none)

/-- R291: a failure, when there is one, is recorded. -/
def State.noteFailure (s : State) (t : Task) (kind : Nat) : Option Nat → State
  | some addr => s.failTask t .asyncFailure kind addr
  | none => s

/-! ## LOAD_B (R267, R268) -/

/-- A column with no weights. -/
def WBlock.zero : WBlock := ⟨[], 0, 255, 0, false⟩

/-- R267: the output columns of a macro. -/
def Task.macroColumns (t : Task) (unit : Nat) : List Nat :=
  let j := unit % 2 ^ t.u8 3
  let per := 256 / t.factor
  (List.range per).filterMap fun i => if j * per + i < t.cols then some (j * per + i) else none

/-- R70, R268: one block of one column is read, with its scales: the block, and what fails of B and of the
scales. -/
def State.loadWeights (s : State) (t : Task) (i n : Nat) : State × WBlock × Option Nat × Option Nat :=
  let fmt := t.format 1
  let col := t.u32 16 + n
  let k := t.u32 20 + 64 * i
  let (s, bytes, badB) := s.taskRead t (t.element 1 k col) (spanBytes fmt 64)
  if fmt = 2 then (s, weightBlock fmt (unpack fmt 64 bytes) 255 0x3F800000#32, badB, none)
  else
    let b := col * (t.inner 1 / 64) + k / 64
    let (s, q, badQ) := s.taskRead t (leField (t.entry 1) 32 8 + b) 1
    let (s, g, badG) := s.taskRead t (leField (t.entry 1) 40 8 + 4 * (b / 256)) 4
    (s, weightBlock fmt (unpack fmt 64 bytes) (leNat q) (BitVec.ofNat 32 (leNat g)), badB, badQ.orElse fun _ => badG)

/-- R268: a macro's block of every column is loaded. -/
def State.loadMacro (s : State) (t : Task) (unit : Nat) : State × List (Nat × WBlock) × Option Nat × Option Nat :=
  let i := unit / 2 ^ t.u8 3
  if t.depth / 64 ≤ i then (s, [], none, none)
  else (t.macroColumns unit).foldl (fun x n =>
    let (s, w, badB, badS) := x.1.loadWeights t i n
    (s, x.2.1 ++ [(n, w)], x.2.2.1.orElse fun _ => badB, x.2.2.2.orElse fun _ => badS)) (s, [], none, none)

/-- A block put at its place of a column. -/
def Loaded.put (b : Loaded) (i : Nat) (x : Nat × WBlock) : Loaded :=
  { b with cols := setI [] b.cols x.1 (setI .zero (getI [] b.cols x.1) i x.2) }

/-- R279, R280, R291: what follows a step boundary of LOAD_B. -/
def Task.afterLoad (t : Task) (unit : Nat) : Task :=
  if unit < 15 then { t with step := .loadB (unit + 1) }
  else if (t.loadFailed && t.stops) || t.stopping then { t with step := .ended }
  else { t with step := .fetch }

/-- R268, R279: LOAD_B of one macro. -/
def State.loadStep (s : State) (t : Task) (unit : Nat) : State :=
  let (s, cols, badB, badS) := s.loadMacro t unit
  let s := (s.noteFailure t 0x21 badB).noteFailure t 0x22 badS
  let bad := t.loadFailed || badB.isSome || badS.isSome
  let c := s.cluster t.cluster
  let b := cols.foldl (fun b x => b.put (unit / 2 ^ t.u8 3) x) (c.macros.getD ⟨[], []⟩)
  let b := if unit = 15 ∧ !bad then { b with key := t.bKey } else b
  (s.setCluster t.cluster { c with macros := some b }).updTask t.id fun t =>
    { t with loadFailed := bad }.afterLoad unit

/-- R268: LOAD_B. -/
def execLoadB (task : Nat) (s : State) : Out :=
  match s.findTask task with
  | none => .next s
  | some t => match t.status, t.step with
    | .running, .loadB unit => .next (if (s.cluster t.cluster).chilled then s else s.loadStep t unit)
    | _, _ => .next s

/-! ## The steps of a row (R269, R279) -/

/-- A step of a running task. -/
def State.rowStep (s : State) (task : Nat) (step : TaskStep) (effect : State → Task → State) : Out :=
  match s.findTask task with
  | none => .next s
  | some t => .next (if t.status == .running && t.step == step then effect s t else s)

/-- R269: the present row of A. -/
def Task.row (t : Task) : Nat := t.u32 12 + t.progress

/-- R269: a row of A is read: its elements, and where it fails. -/
def State.fetchRow (s : State) (t : Task) (row : Nat) : State × List Nat × Option Nat :=
  let (s, bytes, bad) := s.taskRead t (t.element 0 (t.u32 20) row) (spanBytes (t.format 0) t.depth)
  (s, unpack (t.format 0) t.depth bytes, bad)

/-- R269, R291: the present row of A has been read. -/
def State.takeRow (s : State) (t : Task) (row : List Nat) (bad : Option Nat) : State :=
  (s.noteFailure t 0x20 bad).updTask t.id fun t =>
    { t with aRow := row, ahead := none, rowFailed := bad.isSome,
             step := if bad.isSome && t.stops then .ended else .align }

/-- R279: a task is within a row and has another to come. -/
def Task.mayFetch (t : Task) : Bool :=
  let within : Bool := match t.step with
    | .align | .serial | .reduce | .scale | .drain | .press => true
    | _ => false
  t.status == .running && t.isMatmul && within && t.ahead.isNone && !t.stopping && decide (t.progress + 1 < t.rows)

/-- R269, R279: FETCH_A of the present row, or, while that is under way, of the row after it. Of the steps of
consecutive rows, which R279 lets overlap, no others do (DESIGN CHOICE, log entry 69). -/
def execFetchA (task : Nat) (s : State) : Out :=
  match s.findTask task with
  | none => .next s
  | some t =>
    .next (if t.status == .running && t.step == .fetch then
      match t.ahead with
      | some (row, bad) => s.takeRow t row bad
      | none =>
        let (s, row, bad) := s.fetchRow t t.row
        s.takeRow t row bad
    else if t.mayFetch then
      let (s, row, bad) := s.fetchRow t (t.row + 1)
      s.updTask t.id fun t => { t with ahead := some (row, bad) }
    else s)

/-- R71: ALIGN. -/
def execAlign (task : Nat) (s : State) : Out :=
  s.rowStep task .align fun s t => s.updTask t.id fun t =>
    { t with aBlocks := (List.range (t.depth / 64)).map fun i =>
               alignBlock (t.format 0) t.width ((t.aRow.drop (64 * i)).take 64),
             step := .serial }

/-- R376, R379, R385: SERIAL steps of a cluster may run. -/
def Cluster.serialRuns (k : Cluster) : Bool :=
  !k.serialPaused && !k.chilled && decide (2 ≤ k.point) && k.stage != .switchUp && k.stage != .switchDown

/-- R269: SERIAL. -/
def execSerial (task : Nat) (s : State) : Out :=
  s.rowStep task .serial fun s t =>
    if (s.cluster t.cluster).serialRuns then s.updTask t.id fun t => { t with step := .reduce } else s

/-- The blocks of a column that a cluster's macros hold. -/
def State.macroColumn (s : State) (k n : Nat) : List WBlock :=
  getI [] (((s.cluster k).macros.map (·.cols)).getD []) n

/-- R279, R285: REDUCE. -/
def execReduce (task : Nat) (s : State) : Out :=
  s.rowStep task .reduce fun s t => s.updTask t.id fun t =>
    { t with sums := (List.range t.cols).map fun n => List.zipWith blockSum t.aBlocks (s.macroColumn t.cluster n),
             step := .scale }

/-- R72, R285, R291: one element of the row, or the NaN of a row with a failure. -/
def State.scaleElement (s : State) (t : Task) (n : Nat) : Accum :=
  if t.loadFailed || t.rowFailed then nanElement t.split (t.u8 4)
  else
    let bs := t.aBlocks.zip ((s.macroColumn t.cluster n).zip (getI [] t.sums n))
    if t.split then splitElement (t.format 1) t.width bs else rowElement (t.u8 4) (t.format 1) t.width bs

/-- R72: SCALE. -/
def execScale (task : Nat) (s : State) : Out :=
  s.rowStep task .scale fun s t => s.updTask t.id fun t =>
    { t with partials := (List.range t.cols).map (s.scaleElement t), step := .drain }

/-! ## DRAIN and the press (R282, R283, R286, R291) -/

/-- R260, R282: where the press finds an address of a task: the shadow copy of a decant buffer, or through the
owning parcel's translation. -/
def State.pressAddress (s : State) (t : Task) (need : Need) (va : Nat) : Option Nat :=
  let found := match s.decantAt t.terrace va with
    | some (h, e) => s.writeAddress t.die (.decant t.terrace h (va - e.base))
    | none => s.ctxTranslate t.ctx va need
  found.bind fun pa => if isMmio pa || isHost pa then none else some pa

/-- R282: where a task's partials of a row begin in each line of C. -/
def Task.rowStarts (t : Task) (row : Nat) : List Nat :=
  let va := t.element 2 (t.u32 16) row
  (linesOf va (t.cols * accSize t.split (t.u8 4))).map fun l => max va (128 * l)

/-- R77: where a task's partials begin that lie in a line: rows can share it. -/
def Task.linePieces (t : Task) (line : Nat) : List Nat :=
  (List.range t.rows).flatMap fun r => (t.rowStarts (t.u32 12 + r)).filter fun a => lineOf a == line

/-- R77, R283: the group's partials of lower split index are applied at the line of an address, or count as applied. -/
def State.lineTurn (s : State) (t : Task) (va : Nat) : Bool :=
  let g := s.groupOf t
  let pieces := t.linePieces (lineOf va)
  !t.ordered || (List.range t.part).all fun j => g.left.contains j || pieces.all fun a => g.applied.contains (a, j)

/-- R283: the cellar slice of a partial that waits for its turn. -/
def State.earlySlice (s : State) (t : Task) (va : Nat) : Option Nat :=
  if s.lineTurn t va then none else (s.pressAddress t needRW va).map fun pa => s.cellarSliceOf (lineOf pa)

/-- The slices of the partials that wait, one entry each. -/
def State.earlySlices (s : State) : List Nat :=
  s.partials.filterMap fun p => if p.elems = [] then none else (s.findTask p.task).bind fun t => s.earlySlice t p.va

/-- R282: the lines of the present row: each with its first address, first column and partials. -/
def Task.rowLines (t : Task) : List (Nat × Nat × List Accum) :=
  let w := accSize t.split (t.u8 4)
  let va := t.element 2 (t.u32 16) t.row
  (t.rowStarts t.row).map fun first =>
    let last := min (va + t.cols * w) (128 * lineOf first + 128)
    (first, (first - va) / w, (t.partials.drop ((first - va) / w)).take ((last - first) / w))

/-- R283: every slice has room for the early partials of a row. -/
def State.earlyRoom (s : State) (t : Task) (lines : List (Nat × Nat × List Accum)) : Bool :=
  let all := s.earlySlices ++ lines.filterMap fun x => s.earlySlice t x.1
  all.all fun k => decide (all.count k ≤ 256)

/-- A partial takes a name and its way to the press. -/
def State.sendPartial (s : State) (p : Partial) : State :=
  { s with nextId := s.nextId + 1, partials := s.partials ++ [{ p with id := s.nextId }] }

/-- R280, R282: DRAIN sends the row to the press. -/
def execDrain (task : Nat) (s : State) : Out :=
  s.rowStep task .drain fun s t =>
    if !s.earlyRoom t t.rowLines then s
    else (t.rowLines.foldl (fun s x => s.sendPartial ⟨0, t.id, x.1, t.row, x.2.1, x.2.2, [], []⟩) s).updTask t.id
      fun t => { t with step := .press }

/-- The lines of bytes that a task writes from an address. -/
def State.sendBytes (s : State) (t : Task) (va row col : Nat) (bytes : List Byte) : State :=
  (splitLines va bytes).foldl (fun s x => s.sendPartial ⟨0, t.id, x.1, row, col, [], x.2, []⟩) s

/-- R283: a line's partial counts as applied. -/
def State.markApplied (s : State) (t : Task) (va : Nat) : State :=
  s.updGroup t fun g => { g with applied := (va, t.part) :: g.applied }

/-- R282: the elements of a line with the partials added: per element whether its granule is sound, its bytes,
and the sum. -/
def State.pressed (s : State) (t : Task) (p : Partial) (pa : Nat) : List (Bool × List Byte) :=
  let w := accSize t.split (t.u8 4)
  p.elems.zipIdx.map fun x =>
    let a := pa + w * x.2
    let old := (List.range w).map fun i => s.homeByte (a + i)
    if s.poisoned a w then (false, old) else (true, pressElement t.split (t.u8 4) old x.1)

/-- R286: tau of a task. -/
def Task.tau (t : Task) : Nat :=
  if (leField (t.entry 2) 1 1).testBit 2 then leField (t.entry 2) 48 2 else t.u32 88 % 2 ^ 16

/-- R286: the device emits the elements of a line. -/
def State.emitLine (s : State) (t : Task) (p : Partial) (out : List (Bool × List Byte)) : State :=
  if !(t.split && t.emits && t.part + 1 == t.u16 38) then s
  else (out.zipIdx.filter fun x => x.1.1).foldl (fun s x =>
    let e := emitElement (t.u8 4) (t.u8 5) t.tau (readSplit x.1.2)
    let s := s.updTask t.id fun t => { t with agreement := t.agreement.join e }
    s.sendBytes t (t.element 3 (t.u32 16 + p.col + x.2) p.row) p.row p.col (leBytes (accSize false (t.u8 4)) e.bits)) s

/-- R291: a failure at the press; a collective's ends its key. -/
def State.pressFailure (s : State) (t : Task) (va : Nat) : State :=
  if t.isMatmul then (s.failTask t .asyncFailure 0x23 va).updTask t.id fun t => { t with rowFailed := true }
  else s.failKey t .asyncFailure 0x24 va

/-- A run of a task's line at the press of its home. -/
def State.pressRun (s : State) (t : Task) (va pa : Nat) (bytes : List Byte) : State :=
  (s.pressWrite t.die t.terrace none t.parcel false false pa bytes []).noteEngine t.terrace t.vdev va bytes.length

/-- R282: what a line's partial leaves: the line whole, or, where granules are poisoned, the bytes of each other one. -/
def pressRuns (pa : Nat) (out : List (Bool × List Byte)) : List (Nat × List Byte) :=
  let bytes := out.flatMap (·.2)
  let sound := out.flatMap fun x => x.2.map fun _ => x.1
  if out.all (·.1) then [(pa, bytes)]
  else (granuleRuns pa bytes.length).filterMap fun r =>
    if getI false sound (r.1 - pa) then some (r.1, (bytes.drop (r.1 - pa)).take r.2) else none

/-- R284: the writes from a name on are one press update: another die applies them together. -/
def State.joinWrites (s : State) (n : Nat) : State :=
  { s with flights := s.flights.map fun f => if n ≤ f.id then { f with whole := n } else f }

/-- A line's partial or bytes at the press of its home. A collective's line is written as a whole (R288). -/
def State.pressLine (s : State) (t : Task) (p : Partial) (pa : Nat) : State :=
  if p.elems = [] then
    (((p.va, p.raw) :: p.more).foldl (fun s x => s.pressRun t x.1 (pa / 128 * 128 + x.1 % 128) x.2) s).joinWrites s.nextId
  else
    let out := s.pressed t p pa
    let bad := out.zipIdx.find? fun x => !x.1.1
    let s := ((pressRuns pa out).foldl (fun s x => s.pressRun t (p.va + (x.1 - pa)) x.1 x.2) s).joinWrites s.nextId
    let s := (s.markApplied t p.va).emitLine t p out
    match bad with
    | some x => s.pressFailure t (p.va + accSize t.split (t.u8 4) * x.2)
    | none => s

/-- R280, R291: a task whose lines are all performed: a row of a MATMUL is complete, and a collective has come
to its end. -/
def State.linesDone (s : State) (t : Task) : State :=
  if s.partials.any fun p => p.task == t.id then s
  else if t.step != .press then s
  else if t.isMatmul then
    let s := s.taskWrite t false (t.slot + 80) (leBytes 4 (t.progress + 1))
    s.updTask t.id fun t =>
      { t with progress := t.progress + 1, rowFailed := false,
               step := if t.stopping || (t.rowFailed && t.stops) || decide (t.rows ≤ t.progress + 1) then .ended
                 else .fetch }
  else s.updTask t.id fun t => { t with step := .ended }

/-- R217, R283: a line of a task may be performed now. -/
def State.lineDue (s : State) (t : Task) (p : Partial) (pa : Option Nat) : Bool :=
  s.homesReady t.die pa.toList && (p.elems == [] || s.lineTurn t p.va)

/-- R282: a line of a task is performed. -/
def State.applyLine (s : State) (t : Task) (p : Partial) (pa : Option Nat) : State :=
  let s := { s with partials := s.partials.filter fun x => x.id != p.id }
  let s := match pa with
    | some a => if s.pathTo t.terrace t.die a == PathState.arrives then s.pressLine t p a
        else (s.markApplied t p.va).pressFailure t p.va
    | none => (s.markApplied t p.va).pressFailure t p.va
  match s.findTask t.id with
  | some t => s.linesDone t
  | none => s

/-- R282: PRESS_APPLY_PARTIAL. -/
def execPressApplyPartial (n : Nat) (s : State) : Out :=
  match s.partials.find? fun p => p.id == n with
  | none => .next s
  | some p => match s.findTask p.task with
    | none => .next s
    | some t =>
      let pa := s.pressAddress t (if p.elems = [] then needW else needRW) p.va
      .next (if s.lineDue t p pa then s.applyLine t p pa else s)

/-! ## Collectives and block copies (R288) -/

/-- R288: two members agree on what a key's tasks have in common. -/
def Task.sameCollective (a b : Task) : Bool :=
  a.u8 0 == b.u8 0 && a.u32 104 == b.u32 104 && a.terrace == b.terrace && a.dies == b.dies && a.rows == b.rows
    && a.cols == b.cols && a.u8 4 == b.u8 4

/-- R288: the members of a task's key in rank order, when all have been issued. -/
def State.rankedMembers (s : State) (t : Task) : Option (List Task) :=
  let ms := (s.members t).filter fun x => x.sameCollective t && x.step == .key
  t.dies.mapM fun d => ms.find? fun x => dieNumber x.die == d

/-- The bytes of some elements of a row of a member's A: with where they cannot be read. -/
def State.memberRow (s : State) (x : Task) (row col n : Nat) : State × List Byte × Option Nat :=
  s.taskRead x (x.element 0 (x.u32 16 + col) (x.u32 12 + row)) (spanBytes (x.format 0) n)

/-- R288: a row of every member, in rank order; the first member that cannot be read, with the address. -/
def State.groupRow (s : State) (ms : List Task) (row : Nat) (part : Nat → Nat × Nat) :
    State × List (List Byte) × Option (Task × Nat) :=
  ms.zipIdx.foldl (fun x m =>
    let (s, bytes, bad) := x.1.memberRow m.1 row (part m.2).1 (part m.2).2
    (s, x.2.1 ++ [bytes], x.2.2.orElse fun _ => bad.map fun a => (m.1, a))) (s, [], none)

/-- R288: the sum of a row's elements over the ranks, in rank order. -/
def sumRows (acc n : Nat) (rows : List (List Byte)) : List Byte :=
  let w := accSize false acc
  match rows.map fun r => (List.range n).map fun i => leField r (w * i) w with
  | [] => []
  | x :: xs => (xs.foldl (List.zipWith (accAdd (accFormat acc))) x).flatMap (leBytes w)

/-- R288: the columns of A that a collective takes of each rank. -/
def Task.takes (t : Task) (rank : Nat) : Nat × Nat :=
  if t.u8 0 = 2 then (rank * (t.cols / t.ranks), t.cols / t.ranks) else (0, t.cols)

/-- R288: the columns and bytes of a row of C at a rank. -/
def Task.gives (t : Task) (rows : List (List Byte)) (rank : Nat) : Nat × List Byte :=
  let n := t.cols / t.ranks
  let w := accSize false (t.u8 4)
  match t.u8 0 with
  | 1 => (0, sumRows (t.u8 4) t.cols rows)
  | 3 => (rank * n, ((sumRows (t.u8 4) t.cols rows).drop (rank * n * w)).take (n * w))
  | _ => (0, rows.flatten)

/-- R288: the parts of lines that a row of a collective gives to each member, or where it fails. -/
structure Gathered where
  /-- The member's task, and a part of one line of its C. -/
  parts : List (Nat × Nat × List Byte)
  bad : Option (Task × Nat)
  deriving DecidableEq, Repr

/-- R288: a row of a collective: its parts of lines for every member, or where it fails. -/
def State.collectiveRow (x : State × Gathered) (t : Task) (ms : List Task) (row : Nat) : State × Gathered :=
  let (s, rows, bad) := x.1.groupRow ms row t.takes
  let parts := ms.zipIdx.flatMap fun m =>
    let (col, bytes) := t.gives rows m.2
    (splitLines (m.1.element 2 (m.1.u32 16 + col) (m.1.u32 12 + row)) bytes).map fun r => (m.1.id, r)
  (s, ⟨x.2.parts ++ parts, x.2.bad.orElse fun _ => bad⟩)

/-- R288: each line of a member's C is sent whole, with its parts of every row. -/
def State.sendLines (s : State) (m : Task) (parts : List (Nat × List Byte)) : State :=
  ((parts.map fun x => lineOf x.1).dedup).foldl (fun s l =>
    match parts.filter fun x => lineOf x.1 == l with
    | x :: more => s.sendPartial ⟨0, m.id, x.1, 0, 0, [], x.2, more⟩
    | [] => s) s

/-- R288, R402: a member whose die another member's cannot reach. -/
def State.severed (s : State) (ms : List Task) : Option (Task × Nat) :=
  (ms.find? fun x => ms.any fun y => !s.reaches x.terrace x.die y.die).map fun x =>
    (x, x.element 0 (x.u32 16) (x.u32 12))

/-- R288: the collective of a task's key runs: every rank's lines are on their way, or its key fails. -/
def State.runCollective (s : State) (t : Task) (ms : List Task) : State :=
  let (r, g) := (List.range t.rows).foldl (fun x row => State.collectiveRow x t ms row) (s, ⟨[], s.severed ms⟩)
  match g.bad with
  | some (x, addr) => s.failKey x .asyncFailure 0x24 addr
  | none => ms.foldl (fun s x =>
      (s.sendLines x ((g.parts.filter fun y => y.1 == x.id).map (·.2))).updTask x.id fun x =>
        { x with started := true, step := .press }) r

/-- R288: COLLECTIVE_START. -/
def execCollectiveStart (task : Nat) (s : State) : Out :=
  s.rowStep task .key fun s t =>
    if t.isMatmul || (s.collKey t).failed || (s.collKey t).cancelled then s
    else match s.rankedMembers t with
      | some ms => s.runCollective t ms
      | none => s

/-! ## Retirement (R287, R289) -/

/-- R287: the status with which a task ends, or QUEUED when it stops at a boundary. -/
def Task.outcome (t : Task) : TaskStatus :=
  if t.status = .cancelled then .cancelled
  else if t.doomed || (t.failed && t.stops) then .error
  else if t.cancelled then .cancelled
  else if t.isMatmul && decide (t.progress < t.rows) then .queued
  else if t.failed || ((t.u32 88).testBit 16 && t.split && t.emits && decide (0 < t.agreement.sat)) then .error
  else .done

/-- R274: the code of a status. -/
def TaskStatus.code : TaskStatus → Byte
  | .queued => 1 | .running => 2 | .done => 3 | .error => 4 | .cancelled => 5

/-- R287: an agreement entry as a retiring task writes it. -/
def Task.agreementEntry (t : Task) : Agreement :=
  { t.agreement with owner := t.id, index := t.index,
                     alpha := if t.agreement.valid then t.agreement.alpha else 0x3C00, valid := true }

/-- R287: the agreement entry of a retiring task, where it still belongs to it. -/
def State.writeAgreement (s : State) (t : Task) : State :=
  let k := s.core t.core
  if t.isMatmul && t.split && t.emits && (getI .clear k.agreement (t.index % 16)).owner == t.id then
    s.setCore t.core { k with agreement := setI .clear k.agreement (t.index % 16) t.agreementEntry }
  else s

/-- R280, R292: a task that stopped at a boundary is QUEUED again. -/
def State.requeueTask (s : State) (t : Task) : State :=
  ((s.taskWrite t false (t.slot + 1) [1#8]).updTask t.id fun t =>
    { t with status := .queued, step := .loadB 0, ahead := none, stopping := false, loadFailed := false, rowFailed := false }).settlePoint
      t.cluster

/-- R289, R364: the status of a retiring task is written, and those who wait for its cancellation go on. -/
def State.endTask (s : State) (t : Task) (o : TaskStatus) : State :=
  let s := (((s.writeAgreement t).taskWrite t true (t.slot + 1) [o.code]).traceTask t o.code.toNat).updTask t.id
    fun t => { t with status := o, step := .finish }
  let s := s.updGroup t fun g => { g with left := t.part :: g.left }
  let s := if t.isMatmul then s else s.updKey t fun k => { k with retired := k.retired + 1 }
  let s := s.mapCanes fun c =>
    if c.wait == .cancel t.id then { c with wait := .none, answer := some (if o = .cancelled then 1 else 0) } else c
  if t.isMatmul && t.status == .running then s.settlePoint t.cluster else s

/-- A task has retired. -/
def State.dropTask (s : State) (t : Task) : State := { s with tasks := s.tasks.filter fun x => x.id != t.id }

/-- R289: the completion counter of a task. -/
def State.countCompletion (s : State) (t : Task) : State :=
  match s.ctxTranslate t.ctx (t.u64 72) needRW with
  | none => s.dropTask t
  | some pa => if s.homesReady t.die [pa] then
      (s.ctxIncrement t.ctx (t.u64 72) ((t.u8 2).testBit 4)).dropTask t else s

/-- R288: a member of a collective that has come to its end retires with all of its key's, once every member has. -/
def State.endTogether (s : State) (t : Task) : State :=
  let ms := s.members t
  if ms.all fun x => x.step == .ended && !(s.partials.any fun p => p.task == x.id) then
    ms.foldl (fun s x => s.endTask x x.outcome) s
  else s

/-- R289: the next act of a task that ends. -/
def State.retireTask (s : State) (t : Task) : State :=
  match t.step with
  | .ended =>
    if s.partials.any fun p => p.task == t.id then s
    else if t.outcome = .queued then s.requeueTask t
    else if t.isMatmul || t.doomed || t.status != .running then s.endTask t t.outcome
    else s.endTogether t
  | .finish =>
    if !s.homesReady t.die [t.queue] then s
    else
      let s := s.countQueue t 40
      if t.u64 72 = 0 then s.dropTask t else s.updTask t.id fun t => { t with step := .count }
  | .count => s.countCompletion t
  | _ => s

/-- R289: TASK_RETIRE. -/
def execTaskRetire (task : Nat) (s : State) : Out :=
  match s.findTask task with
  | none => .next s
  | some t => .next (s.retireTask t)

end Sys2Proof.Machine
end

