-- ==== Sys2Proof/Machine/Supervisor.lean ====
section
/-! DEFINITION. SUP: how its functions run (R134, R349), and those of faults, translation, decant buffers,
requests, keys and stewards (R309, R310, R311, R341, R342, R344, R346). -/

namespace Sys2Proof.Machine

/-! ## The frame of a function (R134, R349) -/

/-- What a function comes to. -/
inductive Reply where
  /-- It completes at once, with a status. -/
  | done (s : State) (status : Nat)
  /-- Its work is done; it succeeds once the dies of a terrace have acknowledged it. -/
  | ack (s : State) (t : Nat)
  /-- It first waits until the writes of a terrace have reached their homes; it keeps the block that it has read. -/
  | flush (t : Nat) (block : List Byte)
  /-- It acts once the dies of a terrace have acknowledged a shoot-down (R419). -/
  | shoot (s : State) (t : Nat)
  /-- Its block is poisoned (R209). -/
  | poisoned

/-- R134: the status in the unguarded lanes of D. -/
def State.supReturn (s : State) (m : Marks) (d : BitVec 7) (status : Nat) : State :=
  (s.updCur fun c => c.setV c.unguarded d.toNat fun _ => BitVec.ofNat 32 status).finishOnce m

/-- R349: the live cane whose function a terrace performs, or performs next. -/
def State.supFirst (s : State) (t : Nat) : Option Nat :=
  (s.sups.find? fun x => x.terrace == t && (s.findCane x.cane).isSome).map (·.cane)
/-- R349: the issuing cane's function on a terrace has reached the partition table. -/
def State.supJoin (s : State) (t : Nat) : State :=
  if s.sups.any fun x => x.cane == s.cur.id then s else { s with sups := s.sups ++ [⟨t, s.cur.id⟩] }
/-- R349: the issuing cane's function has completed. -/
def State.supLeave (s : State) : State := { s with sups := s.sups.filter fun x => x.cane != s.cur.id }

/-- R134: the function, which acts on terrace n, waits for some walks that began before it, at a stage. -/
def State.supWait (s : State) (n stage : Nat) (ws : List Nat) : State :=
  let s := s.supJoin n
  let s : State := { s with tlbInvs := s.tlbInvs ++ [⟨s.cur.id, ws⟩] }
  (s.updCur fun c => { c with stage := stage, stageArg := 0 }).park .sup

/-- R134: the function waits for the walks of a terrace that began before it; n is the terrace it acts on. -/
def State.supAck (s : State) (m : Marks) (d : BitVec 7) (n t : Nat) : State :=
  if s.walksOf t = [] then s.supLeave.supReturn m d 0 else s.supWait n 1 (s.walksOf t)

/-- R134: a function that comes to its end. -/
def State.supEnd (m : Marks) (d : BitVec 7) (s : State) : Reply → State
  | .done t status => t.supLeave.supReturn m d status
  | _ => s

/-- R349: the function on terrace n waits behind an earlier one, or runs. Stages of the cane: 1 it has run and waits for
acknowledgements; 2 it has started and waits for a terrace's writes; 3 it stands behind another; 4 it acts when a
shoot-down is acknowledged. -/
def State.supRun (s : State) (m : Marks) (d : BitVec 7) (n a : Nat) (f : State → Nat → Reply) : State :=
  if ((s.supFirst n).any fun c => c != s.cur.id) then
    ((s.supJoin n).updCur fun c => { c with stage := 3 }).park .sup
  else match f s a with
    | .done s status => s.supLeave.supReturn m d status
    | .ack s t => s.supAck m d n t
    | .flush t b => ((s.supJoin n).updCur fun c => { c with stage := 2, stageArg := t, supArg := b }).park .sup
    | .shoot s t =>
      if s.walksOf t = [] then s.supEnd m d (f (s.updCur fun c => { c with stage := 4 }) a) else s.supWait n 4 (s.walksOf t)
    | .poisoned => s.supLeave.raise .poisonedData

/-- R134, R349: SUP calls a function of a level, which starts once everything earlier of the cane is
performed and, on the terrace that `on` names, the functions before it have completed. -/
def State.supCall (s : State) (m : Marks) (d : BitVec 7) (level : Nat) (on : State → Nat → Nat)
    (f : State → Nat → Reply) : Out :=
  let c := s.cur
  let mk := c.unguarded
  let a := (c.uread d.toNat).toNat
  s.attemptReading (operandLanes true mk) [d.toNat] [s.wide, c.beyond [d.toNat], s.below level]
    (if mk = 0 then s.finishOnce m
     else if c.stage = 1 then s.supLeave.supReturn m d c.stageArg
     else if !c.released 5 then s.park (.release 5)
     else if level = 1 ∧ 16 ≤ (s.wgOf c).terrace then s.supReturn m d 6
     else s.supRun m d (on s a) a f)

/-- An S function acts on the terrace of the cane. -/
def ownTerrace (s : State) (_ : Nat) : Nat := (s.wgOf s.cur).terrace
/-- A function whose argument is a terrace. -/
def argTerrace (_ : State) (a : Nat) : Nat := a
/-- A function whose block names a terrace in its first byte, which orders it before it starts. -/
def blockTerrace (s : State) (a : Nat) : Nat := (Memory.read (s.scratchOf s.cur.wg) a).toNat

/-- R349: the argument block of n bytes at a scratch offset, as the function read it when it started: refused with
ARG_RANGE where it does not lie within SYS.SCRSZ. A poisoned one traps (R209; log entry 30). -/
def State.supBlock (s : State) (n a : Nat) (f : List Byte → Reply) : Reply :=
  let w := s.wgOf s.cur
  if s.cur.stage = 2 then f s.cur.supArg
  else if ¬(a % 64 = 0 ∧ a + n ≤ w.scrSize) then .done s 3
  else if s.scratchPoisoned w.id a n then .poisoned
  else f (Memory.readBytes w.scratch a n)

/-- R134: no write of a terrace, and no update that it makes after one, is on its way. -/
def State.writesDone (s : State) (t : Nat) : Bool :=
  !(s.flights.any fun f => f.terrace == t) && !(s.posts.any fun q => q.terrace == t)

/-- R134: what the function of a parked cane waits for has happened. -/
def State.supDue (s : State) (c : Cane) : Bool :=
  c.wait == .sup && match c.stage with
    | 2 => s.writesDone c.stageArg
    | 3 => (s.sups.find? fun x => x.cane == c.id).all fun x => s.supFirst x.terrace == some c.id
    | _ => s.invDone c.id

/-- R134: SUP_FUNCTION_COMPLETE. -/
def execSupFunctionComplete (cane : Nat) (s : State) : Out :=
  match s.findCane cane with
  | none => .next s
  | some c =>
    .next (if s.supDue c then
        let s : State := { s with tlbInvs := s.tlbInvs.filter fun i => i.cane != cane }
        s.updCane cane fun c => { c with wait := .none }
      else s)

/-! ## Faults (R309, R310, R311) -/

/-- R309: the fault-parked cane that a block names. -/
def State.faultedCane (s : State) (b : List Byte) : Option Cane :=
  let t := (s.wgOf s.cur).terrace
  s.canes.find? fun c =>
    let w := s.wgOf c
    c.wait == .fault && w.terrace == t && s.parcelAddr w.parcel == leField b 0 8 && w.linear == leField b 8 4
      && c.idx == leField b 12 2

/-- R309: FAULT.RESUME. -/
def execFaultResume (m : Marks) (d : BitVec 7) (s : State) : Out :=
  s.supCall m d 1 ownTerrace fun s a => s.supBlock 14 a fun b => match s.faultedCane b with
    | none => .done s 6
    | some c => .done (s.updCane c.id fun c => { c with wait := .none, denied := [] }) 0

/-- R309, R123: FAULT.RETIRE. -/
def execFaultRetire (m : Marks) (d : BitVec 7) (s : State) : Out :=
  s.supCall m d 1 ownTerrace fun s a => s.supBlock 14 a fun b => match s.faultedCane b with
    | none => .done s 6
    | some c => .done (s.retireCane c.id) 0

/-- R310: the header of a queue just set. -/
def faultHeader (order : Nat) : List Byte := leBytes 4 0x51554146 ++ leBytes 1 order ++ List.replicate 59 0#8

/-- R310, R349: a fault queue is set: q is the terrace that it serves. -/
def State.setFaultQueue (s : State) (q : Nat) (x : Ctx) (b : List Byte) : Reply :=
  let base := leField b 0 8
  let order := leField b 8 1
  if base % 64 ≠ 0 ∨ order < 4 ∨ 16 < order ∨ 2 ^ 52 ≤ base ∨ !s.ctxPagesOk x base (64 + 32 * 2 ^ order) needRW then
    .done s 3
  else if (s.transEntries.any fun e => e.queue == q) then .done s 4
  else
    let s := s.post x [] base (faultHeader order) false
    .done (s.setTerrace q { s.terrace q with faultQueue := some ⟨base, order, x.vdev⟩ }) 0

/-- R310: FQ.SET. -/
def execFqSet (m : Marks) (d : BitVec 7) (s : State) : Out :=
  s.supCall m d 1 ownTerrace fun s a => s.supBlock 9 a fun b =>
    let w := s.wgOf s.cur
    s.setFaultQueue w.terrace ⟨w.terrace, w.vdev, dieOfCore s.cur.core, none⟩ b
/-- R311: MFQ.SET. -/
def execMfqSet (m : Marks) (d : BitVec 7) (s : State) : Out :=
  s.supCall m d 2 (fun _ _ => mgmt) fun s a => s.supBlock 9 a fun b =>
    s.setFaultQueue mgmt ⟨mgmt, 0, dieOfCore s.cur.core, none⟩ b

/-! ## Translation (R323, R341, R344) -/

/-- R323: a stage-1 root is in order: L, and the table aligned to its size. -/
def rootBad (base l : Nat) : Bool :=
  decide (l < 1) || decide (22 < l) || base % (8 * 2 ^ l) != 0 || decide (2 ^ 52 ≤ base)

/-- R333, R344: a vdev field, and seven bytes of 0 behind it. -/
def State.vdevBad (s : State) (t : Nat) (b : List Byte) : Bool :=
  decide ((s.terrace t).part.vdevs ≤ leField b 0 1) || leField b 1 7 != 0

/-- R349: S1.ROOT. -/
def execS1Root (m : Marks) (d : BitVec 7) (s : State) : Out :=
  s.supCall m d 1 ownTerrace fun s a => s.supBlock 17 a fun b =>
    let t := (s.wgOf s.cur).terrace
    let v := leField b 0 1
    let base := leField b 8 8
    let l := leField b 16 1
    if s.vdevBad t b || rootBad base l then .done s 3
    else
      let tt := s.terrace t
      .ack ((s.setTerrace t { tt with roots := setI none tt.roots v (some ⟨base, l⟩) }).dropTlb fun e =>
        e.terrace == t && e.vdev == v) t

/-- R344: VD.SELECT. -/
def execVdSelect (m : Marks) (d : BitVec 7) (s : State) : Out :=
  s.supCall m d 1 ownTerrace fun s a =>
    let t := (s.wgOf s.cur).terrace
    let tt := s.terrace t
    if tt.part.vdevs ≤ a then .done s 3 else .done (s.setTerrace t { tt with vdev := a }) 0

/-- A cached translation that shares a byte with the 64 KiB page of an address. -/
def TlbEntry.meets (e : TlbEntry) (va : Nat) : Bool :=
  decide (e.va < va / 65536 * 65536 + 65536) && decide (va / 65536 * 65536 < e.va + e.size)

/-- R349: S1.PAGE. -/
def execS1Page (m : Marks) (d : BitVec 7) (s : State) : Out :=
  s.supCall m d 1 ownTerrace fun s a => s.supBlock 16 a fun b =>
    let t := (s.wgOf s.cur).terrace
    let va := leField b 8 8
    if s.vdevBad t b || decide (2 ^ 52 ≤ va) then .done s 3
    else .ack (s.dropTlb fun e => e.terrace == t && e.vdev == leField b 0 1 && e.meets va) t

/-- R349: S2.INV. -/
def execS2Inv (m : Marks) (d : BitVec 7) (s : State) : Out :=
  s.supCall m d 2 argTerrace fun s a => if 16 ≤ a then .done s 3 else .ack (s.dropTlb fun e => e.terrace == a) a

/-- R349: S2.PAGE. Cached translations hold both stages together, so the terrace's leave all. -/
def execS2Page (m : Marks) (d : BitVec 7) (s : State) : Out :=
  s.supCall m d 2 blockTerrace fun s a => s.supBlock 16 a fun b =>
    let t := leField b 0 1
    if 16 ≤ t ∨ leField b 1 7 ≠ 0 ∨ 2 ^ 52 ≤ leField b 8 8 then .done s 3 else .ack (s.dropTlb fun e => e.terrace == t) t

/-! ## Decant buffers (R259, R410) -/

/-- R259, R410: what DECANT.SET refuses in a block with ARG_RANGE. -/
def State.decantBad (s : State) (t : Nat) (b : List Byte) : Bool :=
  let f (i : Nat) : Nat := leField b (8 * i) 8
  let host (ipa : Nat) : Bool := (List.range (f 2 / 65536)).any fun i =>
    match s.stage2 (dieOfCore s.cur.core) t (ipa + 65536 * i) with
    | some m => isHost m.pa
    | none => false
  leField b 1 7 != 0 || f 2 == 0 || ([1, 2, 3, 4] : List Nat).any (fun i => f i % 65536 != 0)
    || decide (2 ^ 52 < f 1 + f 2) || decide (2 ^ 52 < f 3 + f 2) || decide (2 ^ 52 < f 4 + f 2) || host (f 3) || host (f 4)

/-- R349: DECANT.SET. -/
def execDecantSet (m : Marks) (d : BitVec 7) (s : State) : Out :=
  s.supCall m d 1 ownTerrace fun s a => s.supBlock 40 a fun b =>
    let t := (s.wgOf s.cur).terrace
    let h := leField b 0 1
    let base := leField b 8 8
    let size := leField b 16 8
    if s.decantBad t b then .done s 3
    else if (s.decantEntry t h).valid then .done s 4
    else if ((s.terrace t).decants.any fun e =>
        e.valid && decide (base < e.base + e.size) && decide (e.base < base + size)) then .done s 5
    else
      let e : DecantEntry := ⟨base, size, leField b 24 8, leField b 32 8, true, false, 0, [], 0⟩
      let e := { e with home := s.decantHome (dieOfCore s.cur.core) t e }
      .ack ((s.updDecant t h fun _ => e).dropTlb fun x =>
        x.terrace == t && decide (x.va < base + size) && decide (base < x.va + x.size)) t

/-- R349: DECANT.CLR. -/
def execDecantClr (m : Marks) (d : BitVec 7) (s : State) : Out :=
  s.supCall m d 1 ownTerrace fun s a =>
    let t := (s.wgOf s.cur).terrace
    if 255 < a then .done s 3
    else
      let e := s.decantEntry t a
      .ack ((s.updDecant t a fun e => { e with valid := false }).dropTlb fun x =>
        x.terrace == t && decide (x.va < e.base + e.size) && decide (e.base < x.va + x.size)) t

/-! ## Requests (R313, R314) -/

/-- R349: the parcel that an id of the caller's terrace names, under the caller's virtual device first. -/
def State.namedParcel (s : State) (addr : Nat) : Option Parcel :=
  let ps := s.parcels.filter fun p => p.addr == addr && p.terrace == (s.wgOf s.cur).terrace
  (ps.find? fun p => p.vdev == s.recordVdev s.cur).orElse fun _ => ps.head?

/-- A parcel is another or descends from it; the fuel bounds the depth. -/
def State.descends (s : State) (id : Nat) : Nat → Parcel → Bool
  | 0, p => p.id == id
  | n + 1, p => p.id == id || (match p.parent.bind s.findParcel with
    | some q => s.descends id n q
    | none => false)

/-- R292, R314: an exit-grade request on some parcels: their workgroups exit, and their running MATMULs stop at
their boundaries. -/
def State.urge (s : State) (on : Parcel → Bool) : State :=
  let ids := (s.parcels.filter on).map (·.id)
  let hit (p : Option Nat) : Bool := p.any ids.contains
  let stop (t : Task) : Task :=
    if hit t.parcel && t.status == .running && t.isMatmul then { t with stopping := true } else t
  let s : State := { s with tasks := s.tasks.map stop }
  ((s.workgroups.filter fun w => hit w.parcel).map (·.id)).foldl (fun s i => s.requestExit false false i) s

/-- A request on the parcel that a block names and its descendants. -/
def State.requestParcel (s : State) (b : List Byte) (act : (Parcel → Bool) → State) : Reply :=
  match s.namedParcel (leField b 0 8) with
  | none => .done s 6
  | some p => .done (act (s.descends p.id s.parcels.length)) 0

/-- R314: URGENT. -/
def execUrgent (m : Marks) (d : BitVec 7) (s : State) : Out :=
  s.supCall m d 1 ownTerrace fun s a => s.supBlock 8 a fun b => s.requestParcel b s.urge
/-- R313: DRAIN. -/
def execSupDrain (m : Marks) (d : BitVec 7) (s : State) : Out :=
  s.supCall m d 1 ownTerrace fun s a => s.supBlock 8 a fun b => s.requestParcel b s.drain

/-! ## Memory of a terrace (R340, R346, R419) -/

/-- R333: the entry of the partition table: as TERRACE.SET last wrote it. -/
def State.entryOf (s : State) (t : Nat) : PartEntry :=
  { (s.terrace t).pending.getD (s.terrace t).part with state := (s.terrace t).part.state }

/-- R335: an address lies in some regions. -/
def inRegions (rs : List MemRegion) (a : Nat) : Bool :=
  rs.any fun r => decide (r.size ≠ 0) && decide (r.base ≤ a) && decide (a < r.base + r.size)

/-- Every L1, L2 and cellar slice of the package drops its lines in some regions. -/
def State.dropLines (s : State) (rs : List MemRegion) : State :=
  { s with cores := s.cores.map fun c => { c with l1 := c.l1.filter fun x => !inRegions rs (128 * x.line) },
           dies := s.dies.map fun d => { d with l2 := d.l2.filter fun x => !inRegions rs (128 * x.line) },
           cellar := s.cellar.filter fun x => !inRegions rs (128 * x.line) }

/-- R340, R346: every dirty line of a key id is written back, and every line of it dropped, in every L1, L2 and cellar
slice of the package. -/
def State.dropKey (s : State) (t : Nat) : State :=
  let s := (s.cellar.filter fun x => x.key == t && x.dirty).foldl (fun s x => s.request t (128 * x.line) 128) s
  { s with cores := s.cores.map fun c => { c with l1 := c.l1.filter fun x => x.key != t },
           dies := s.dies.map fun d => { d with l2 := d.l2.filter fun x => x.key != t },
           cellar := s.cellar.filter fun x => x.key != t }

/-- R335: where the regions of the terraces begin and end. -/
def State.bounds (s : State) : List Nat :=
  (List.range 16).flatMap fun t => ((s.terrace t).part.regions.filter fun r => r.size != 0).flatMap fun r =>
    [r.base, r.base + r.size]

/-- R210, R346: what memory held under one state's keys it holds under another's: between two bounds of regions the keys
are one, and where they have changed the ciphertext is that of the old ones, unless it was of others before. -/
def State.rekey (s s' : State) : State :=
  let bs := (s.bounds ++ s'.bounds).dedup
  { s' with veils := s'.veils ++ bs.filterMap fun lo =>
      let old := s.keysOf (s.keyOf lo)
      match bs.filter fun b => decide (lo < b) with
      | [] => none
      | b :: rest =>
        if s'.keysOf (s'.keyOf lo) = old then none else some ⟨lo, rest.foldl min b - lo, .keys old.1 old.2⟩ }

/-- R346, R419: zeros are written to every byte of some regions. -/
def State.zeroRegions (s : State) (rs : List MemRegion) : State :=
  rs.foldl (fun s r =>
    { s with mem := Memory.clearRange s.mem r.base r.size, veils := s.veils.flatMap fun v => v.without r.base r.size,
             poison := s.poison.filter fun g => !(decide (r.base ≤ 32 * g) && decide (32 * g < r.base + r.size)) })
    (s.dropLines rs)

/-- R346: the keys of a terrace are replaced: what its memory holds now is ciphertext of the old ones. -/
def State.loadKeys (s : State) (t : Nat) (data tweak : BitVec 128) : State :=
  s.rekey (s.setTerrace t { s.terrace t with dataKey := data, tweakKey := tweak })

/-- R346: zeros are written under a terrace's keys to every byte of some regions. -/
def State.scrubRegions (s : State) (t : Nat) (rs : List MemRegion) : State :=
  let k := s.keysOf t
  let s := s.zeroRegions rs
  { s with veils := (rs.filter fun r => r.size != 0).map (fun r => ⟨r.base, r.size, .keys k.1 k.2⟩) ++ s.veils }

/-- R346: KEY.LOAD. -/
def execKeyLoad (m : Marks) (d : BitVec 7) (s : State) : Out :=
  s.supCall m d 2 blockTerrace fun s a => s.supBlock 48 a fun b =>
    let t := leField b 0 1
    if 16 ≤ t ∨ leField b 1 15 ≠ 0 ∨ leField b 16 16 = leField b 32 16 then .done s 3
    else if (s.terrace t).part.state ≠ .off then .done s 4
    else if !s.writesDone t then .flush t b
    else .done ((s.dropKey t).loadKeys t
      (BitVec.ofNat 128 (leField b 16 16)) (BitVec.ofNat 128 (leField b 32 16))) 0

/-- R346: TERRACE.SCRUB. -/
def execTerraceScrub (m : Marks) (d : BitVec 7) (s : State) : Out :=
  s.supCall m d 2 argTerrace fun s t =>
    if 16 ≤ t then .done s 3
    else if (s.terrace t).part.state ≠ .off then .done s 4
    else if !s.writesDone t then .flush t []
    else .done (s.scrubRegions t (s.entryOf t).regions) 0

/-! ## Stewards (R342) -/

/-- R342: STEWARD.SET. -/
def execStewardSet (m : Marks) (d : BitVec 7) (s : State) : Out :=
  s.supCall m d 2 blockTerrace fun s a => s.supBlock 33 a fun b =>
    let t := leField b 0 1
    let v : StewardValues := ⟨leField b 8 8, leField b 16 8, leField b 24 8, leField b 32 1⟩
    if 16 ≤ t ∨ leField b 1 7 ≠ 0 ∨ rootBad v.rootBase v.rootL then .done s 3
    else
      let tt := s.terrace t
      if tt.part.state ≠ .off ∧ tt.part.state ≠ .quiesced then .done s 4
      else .done (s.setTerrace t { tt with steward := some v }) 0

end Sys2Proof.Machine
end

