-- ==== Sys2Proof/Machine/Tenancy.lean ====
section
/-! DEFINITION. Terraces: the partition table and its functions (R333, R340, R350, R418, R419), saving and restoring
(R347, R348), headlands (R334, R339), quotas and usage logs (R343, R345), and the turns of virtual devices
(R344). -/

namespace Sys2Proof.Machine

/-! ## The partition table (R333) -/

/-- R333, R335: the bytes of a memory region. -/
def MemRegion.bytes (r : MemRegion) : List Byte :=
  leBytes 8 r.base ++ leBytes 8 r.size ++ leBytes 4 r.interleave.toNat ++ leBytes 12 0
/-- A region read from its bytes. -/
def MemRegion.ofBytes (b : List Byte) : MemRegion := ⟨leField b 0 8, leField b 8 8, BitVec.ofNat 32 (leField b 16 4)⟩

/-- R340: the code of a terrace's state. -/
def TerraceState.code : TerraceState → Nat
  | .off => 0 | .running => 1 | .quiescing => 2 | .quiesced => 3

/-- R333: the 256 bytes of terrace t's entry. -/
def PartEntry.bytes (e : PartEntry) (t : Nat) : List Byte :=
  leBytes 1 e.state.code ++ leBytes 1 t ++ leBytes 1 e.vdevs ++ leBytes 1 (if e.lend then 1 else 0)
    ++ leBytes 2 e.exitBound ++ leBytes 2 e.weight ++ leBytes 4 e.quantum ++ leBytes 4 e.period
    ++ leBytes 16 e.guaranteed.toNat ++ leBytes 16 e.headland.toNat ++ leBytes 2 e.lendMask.toNat ++ leBytes 2 0
    ++ leBytes 4 e.logOrder ++ leBytes 8 e.logArea ++ leBytes 8 e.quotaCore ++ leBytes 8 e.quotaBytes
    ++ leBytes 8 e.quotaEnergy ++ leBytes 8 e.s2root ++ leBytes 8 e.nbdie.toNat ++ leBytes 2 e.nbport.toNat
    ++ leBytes 22 0 ++ (List.range 4).flatMap fun i => (getI ⟨0, 0, 0⟩ e.regions i).bytes

/-- R333, R418: an entry read from an image; the device sets its state. -/
def PartEntry.ofBytes (b : List Byte) (st : TerraceState) : PartEntry :=
  { state := st, vdevs := leField b 2 1, lend := (leField b 3 1).testBit 0, exitBound := leField b 4 2,
    weight := leField b 6 2, quantum := leField b 8 4, period := leField b 12 4,
    guaranteed := BitVec.ofNat 128 (leField b 16 16), headland := BitVec.ofNat 128 (leField b 32 16),
    lendMask := BitVec.ofNat 16 (leField b 48 2), logOrder := leField b 52 4, logArea := leField b 56 8,
    quotaCore := leField b 64 8, quotaBytes := leField b 72 8, quotaEnergy := leField b 80 8,
    s2root := leField b 88 8, nbdie := BitVec.ofNat 64 (leField b 96 8), nbport := BitVec.ofNat 16 (leField b 104 2),
    regions := (List.range 4).map fun i => MemRegion.ofBytes (b.drop (128 + 32 * i)) }

/-- R418: TERRACE.GET. -/
def execTerraceGet (m : Marks) (d : BitVec 7) (s : State) : Out :=
  s.supCall m d 2 blockTerrace fun s a => s.supBlock 64 a fun b =>
    let t := leField b 0 1
    let w := s.wgOf s.cur
    if 16 ≤ t ∨ leField b 1 63 ≠ 0 ∨ w.scrSize < a + 256 then .done s 3
    else .done (s.scratchDeliver w.id a ((s.entryOf t).bytes t) []) 0

/-- R333, R335: a region of an image breaks a rule; the reserved bytes of an unused one are 0 too. -/
def regionBad (b : List Byte) : Bool :=
  let r := MemRegion.ofBytes b
  let first := bitsAt r.interleave 0 5
  let count := bitsAt r.interleave 5 3
  leField b 20 12 != 0 || (r.size != 0 && (r.base % 2 ^ 30 != 0 || r.size % 2 ^ 30 != 0 || decide (2 ^ 42 < r.base + r.size) || decide (5 < count)
    || first % 2 ^ count != 0 || decide (7 < bitsAt r.interleave 8 4) || bitsAt r.interleave 12 20 != 0))

/-- R350 step 1: a field of an image lies outside its range, or names a cluster that the part lacks. -/
def State.entryBad (s : State) (b : List Byte) : Bool :=
  let e := PartEntry.ofBytes b .off
  decide (e.vdevs < 1) || decide (4 < e.vdevs) || decide (1 < leField b 3 1) || decide (e.exitBound < 5)
    || decide (200 < e.exitBound) || decide (255 < e.weight) || decide (1000000 < e.quantum) || decide (e.period < 100)
    || decide (100000 < e.period) || leField b 50 2 != 0 || decide (e.logOrder < 6) || decide (16 < e.logOrder)
    || e.logArea % 4096 != 0 || e.s2root % 2 ^ 25 != 0 || leField b 106 22 != 0
    || (List.range 128).any (fun k => (e.guaranteed ||| e.headland).getLsbD k && !(s.cluster k).enabled)
    || (List.range 4).any fun i => regionBad ((b.drop (128 + 32 * i)).take 32)

/-- R350 step 2: what may differ on a RUNNING terrace. -/
def PartEntry.fixedPart (e : PartEntry) : PartEntry :=
  { e with weight := 0, exitBound := 0, quantum := 0, period := 0, quotaCore := 0, quotaBytes := 0, quotaEnergy := 0,
           lendMask := 0, lend := false }

/-- R350 step 3: two entries share a byte of a used region. -/
def PartEntry.shares (e f : PartEntry) : Bool :=
  e.regions.any fun r => r.size != 0 && f.regions.any fun q =>
    q.size != 0 && decide (r.base < q.base + q.size) && decide (q.base < r.base + r.size)

/-- R350 step 3: two entries share a cluster or a byte of a used region. -/
def PartEntry.overlaps (e f : PartEntry) : Bool :=
  (e.guaranteed ||| e.headland) &&& (f.guaranteed ||| f.headland) != 0 || e.shares f

/-- R350 step 3: an entry overlaps itself or another terrace's that is not OFF: the one in force, which a QUIESCED terrace
keeps until COMMIT, or the one that TERRACE.SET has given it. -/
def State.overlapBad (s : State) (t : Nat) (e : PartEntry) : Bool :=
  e.guaranteed &&& e.headland != 0 || (List.range 16).any fun u =>
    let f := (s.terrace u).part
    u != t && f.state != .off && (e.overlaps f || e.overlaps (s.entryOf u))

/-- R344, R350 step 4: a nonzero quantum below four exit bounds. -/
def PartEntry.quantumBad (e : PartEntry) : Bool := e.quantum != 0 && decide (e.quantum < 4 * e.exitBound)

/-- R344, R350: what TERRACE.SET makes of a RUNNING terrace; a quantum that it sets begins then. -/
def Terrace.reset (tt : Terrace) (e : PartEntry) (now : Nat) : Terrace :=
  { tt with part := e, turnStart := if tt.part.quantum = 0 then now else tt.turnStart }

/-- R350: TERRACE.SET of an entry's image. -/
def State.setEntry (s : State) (t : Nat) (b : List Byte) : Reply :=
  let tt := s.terrace t
  let e := PartEntry.ofBytes b tt.part.state
  if s.entryBad b then .done s 3
  else if tt.part.state = .quiescing ∨ (tt.part.state = .running ∧ e.fixedPart ≠ tt.part.fixedPart) then .done s 4
  else if s.overlapBad t e then .done s 5
  else if e.quantumBad then .done s 1
  else if tt.part.state = .running then .done (s.setTerrace t (tt.reset e s.rtime)) 0
  else .done (s.setTerrace t { tt with pending := some e }) 0

/-- R350: TERRACE.SET. -/
def execTerraceSet (m : Marks) (d : BitVec 7) (s : State) : Out :=
  s.supCall m d 2 blockTerrace fun s a => s.supBlock 384 a fun b =>
    let t := leField b 0 1
    if 16 ≤ t ∨ leField b 1 127 ≠ 0 then .done s 3 else s.setEntry t (b.drop 128)

/-! ## Clusters (R334, R339, R375) -/

/-- How many of the bits below k are set. -/
def rankIn (b : BitVec 128) (k : Nat) : Nat := ((List.range k).filter fun i => b.getLsbD i).length

/-- R334: the logical number of a cluster that an entry names. -/
def PartEntry.logical (e : PartEntry) (k : Nat) : Option Nat :=
  if e.guaranteed.getLsbD k then some (rankIn e.guaranteed k)
  else if e.headland.getLsbD k then some (rankIn e.guaranteed 128 + rankIn e.headland k)
  else none

/-- R248, R299, R322, R339 step 4: what a cluster holds is scrubbed: core stores, L1, dictionaries, macros, SACC.CFG,
agreement entries and tags. Its cores' counters begin again (R354); its window of R382 goes on. -/
def State.emptyCluster (s : State) (k : Nat) : State :=
  let n := s.slotCounts k
  let s := (coresOf k).foldl (fun s i => s.setCore i .zero) s
  let c := s.cluster k
  s.setCluster k { c with tlb := [], macros := none, windowBase := (c.windowBase.1 - n.1, c.windowBase.2 - n.2) }

/-- R375, R386: a cluster that enters a terrace is scrubbed and is at point 7, once a transition in progress has
completed. -/
def State.scrubCluster (s : State) (k : Nat) : State :=
  let s := s.emptyCluster k
  (s.setCluster k { s.cluster k with switches := 0, toSeven := true }).settlePoint k

/-- R334, R340: at COMMIT each cluster of the entry belongs to the terrace, scrubbed when it enters; one that leaves is
scrubbed too. -/
def State.takeCluster (s : State) (t : Nat) (e : PartEntry) (k : Nat) : State :=
  let own := (s.cluster k).owner == some t
  match e.logical k with
  | some n =>
    let s := if own then s else s.scrubCluster k
    s.setCluster k { s.cluster k with owner := some t, logical := n, lender := none, revoking := false,
                                      revokeFor := none, busyAt := if own then (s.cluster k).busyAt else 0 }
  | none =>
    if own then
      let s := s.emptyCluster k
      s.setCluster k { s.cluster k with owner := none }
    else s

/-- R339, R361: the revocation of a lent cluster begins, for a head of its lender or (none) because it is named or its
lender quiesces: it waits for no debugger. -/
def State.beginRevoke (s : State) (k : Nat) (head : Option (Nat × Item)) : State :=
  if (s.cluster k).revoking || (s.cluster k).lender.isNone then s
  else
    let stop (x : Task) : Task :=
      if x.status == .running && x.isMatmul && x.cluster == k then { x with stopping := true } else x
    let s : State := { s.setCluster k { s.cluster k with revoking := true, revokeFor := head } with tasks := s.tasks.map stop }
    let s := s.releaseParked
    ((s.workgroups.filter fun w => (coresOf k).contains w.core).map (·.id)).foldl
      (fun s i => s.requestExit false false i) s

/-! ## Terrace states (R340, R341, R342) -/

/-- R419: the regions of a new entry that did not stand in the one under which the terrace last ran. -/
def PartEntry.newRegions (e old : PartEntry) : List MemRegion :=
  e.regions.filter fun r => r.size != 0 && !old.regions.contains r

/-- R340, R342: what COMMIT makes of a terrace's own values. -/
def Terrace.commit (tt : Terrace) (e : PartEntry) (now : Nat) : Terrace :=
  let tt := { tt with part := { e with state := .running }, pending := none, turnEnding := false, turnStart := now }
  match tt.steward with
  | some v => { tt with roots := [some ⟨v.rootBase, v.rootL⟩, none, none, none], faultQueue := none, vdev := 0,
                        turn := 0, usage := { Usage.zero with start := now, period := e.period } }
  | none => tt

/-- R342: the steward is placed, or waits in the queue of the die of the terrace's first cluster. -/
def State.startSteward (s : State) (t : Nat) : State :=
  match s.placeSteward t with
  | some s => s
  | none => s.enqueue (((s.clustersOf t).head?.map fun k => k / 32).getD 0) ⟨0, 15, .steward t, 2, []⟩

/-- R340, R419: the effects of COMMIT, but for the steward, once the shoot-down is acknowledged: until then the old entry
holds. The zeroing shows from then on. -/
def State.commit (s : State) (t : Nat) : State :=
  let tt := s.terrace t
  let e := s.entryOf t
  let off := tt.part.state == .off
  let s := s.rekey (s.setTerrace t (if off then tt.commit e s.rtime
    else { tt with part := { e with state := .running }, pending := none, turnEnding := false, turnStart := s.rtime }))
  let s := if off then s else s.zeroRegions (e.newRegions tt.part)
  let s := (List.range 128).foldl (fun s k => s.takeCluster t e k) s
  (s.undrain fun p => p.terrace == t).dropTlb fun x => x.terrace == t

/-- R340, R341, R342: TERRACE.COMMIT. -/
def execTerraceCommit (m : Marks) (d : BitVec 7) (s : State) : Out :=
  s.supCall m d 2 argTerrace fun s t =>
    if 16 ≤ t then .done s 3
    else if (s.terrace t).part.state = .running ∨ (s.terrace t).part.state = .quiescing then .done s 4
    else if (s.terrace t).steward.isNone then .done s 6
    else if s.cur.stage = 4 then .done ((s.commit t).startSteward t) 0
    else if ((s.commit t).stewardTask t).isNone then .done s 3
    else if !s.writesDone t then .flush t []
    else .shoot (s.dropTlb fun x => x.terrace == t) t

/-- R340: the steward's cane of a terrace. -/
def State.stewardCane (s : State) (t : Nat) : Option Cane :=
  s.canes.find? fun c => (s.wgOf c).isSteward && (s.wgOf c).terrace == t

/-- R340: QUIESCE retires a steward that is parked in WAIT.ADDR or PARCEL.WAIT at once. -/
def State.endSteward (s : State) (t : Nat) : State :=
  match s.stewardCane t with
  | none => s
  | some c => match c.wait with
    | .waitAddr _ _ => s.retireCane c.id
    | .parcel _ => s.retireCane c.id
    | _ => s

/-- R340: TERRACE.QUIESCE. -/
def execTerraceQuiesce (m : Marks) (d : BitVec 7) (s : State) : Out :=
  s.supCall m d 2 argTerrace fun s t =>
    if 16 ≤ t then .done s 3
    else
      let tt := s.terrace t
      if tt.part.state ≠ .running then .done s 4
      else
        let s := s.setTerrace t { tt with part := { tt.part with state := .quiescing } }
        let drop (x : Die) : Die := { x with queue := x.queue.filter fun i => i.kind != .steward t }
        let s : State := { s with dies := s.dies.map drop }
        let s := s.drain fun p => p.terrace == t
        let lent := (List.range 128).filter fun k =>
          (s.cluster k).lender == some t || ((s.cluster k).owner == some t && (s.cluster k).lender.isSome)
        .ack ((lent.foldl (fun s k => s.beginRevoke k none) s).endSteward t) t

/-- R340, R288, R351: nothing of a quiescing terrace remains. -/
def State.quiet (s : State) (t : Nat) : Bool :=
  !(s.workgroups.any fun w => w.terrace == t)
    && (s.tasks.all fun x => x.terrace != t || (x.status == .queued && x.step != .ended))
    && !(s.asyncOps.any fun o => o.terrace == t)
    && (List.range 128).all fun k =>
      !((s.cluster k).lender == some t || ((s.cluster k).owner == some t && (s.cluster k).lender.isSome))

/-- R340: TERRACE_QUIESCED. -/
def execTerraceQuiesced (terrace : Nat) (s : State) : Out :=
  let tt := s.terrace terrace
  s.unitEvent terrace 16 (tt.part.state == .quiescing && s.quiet terrace)
    (s.setTerrace terrace { tt with part := { tt.part with state := .quiesced } })

/-- R340: what OFF leaves of a terrace's queues, barriers and tables. The tasks of its parcels stay QUEUED, to be served when
their parcel is queued again; those of no parcel, its steward's own, never are. -/
def State.clearTerrace (s : State) (t : Nat) : State :=
  let gone := (s.parcels.filter fun p => p.terrace == t).map (·.id)
  let tt := s.terrace t
  { s.setTerrace t { tt with part := { tt.part with state := .off }, decants := [] } with
    parcels := s.parcels.filter fun p => p.terrace != t
    dies := s.dies.map fun d => { d with queue := d.queue.filter fun i => !gone.contains i.parcel,
                                         tensors := d.tensors.filter fun e => e.terrace != t }
    barriers := s.barriers.filter fun b => b.bar.scope == 1
      || !gone.contains (if b.bar.scope = 2 then b.bar.owner / 2 ^ 64 else b.bar.owner)
    transEntries := s.transEntries.filter fun e => e.terrace != t
    tasks := s.tasks.filter fun x => x.terrace != t || x.parcel.isSome
    decantOps := s.decantOps.filter fun o => o.terrace != t
    heldReds := s.heldReds.filter fun h => h.terrace != t
    backlogs := s.backlogs.filter fun b => b.terrace != t
    keys := s.keys.filter fun k => k.terrace != t }

/-- R340, R388: the clusters of a terrace that is switched off are scrubbed, and are no terrace's; their points stand. -/
def State.releaseClusters (s : State) (t : Nat) : State :=
  (List.range 128).foldl (fun s k =>
    if (s.cluster k).owner == some t then
      let s := s.emptyCluster k
      s.setCluster k { s.cluster k with owner := none }
    else s) s

/-- R340: TERRACE.OFF. -/
def execTerraceOff (m : Marks) (d : BitVec 7) (s : State) : Out :=
  s.supCall m d 2 argTerrace fun s t =>
    if 16 ≤ t then .done s 3
    else
      let st := (s.terrace t).part.state
      if st = .running ∨ st = .quiescing then .done s 4
      else if st = .off then .done s 0
      else if !s.writesDone t then .flush t []
      else
        let s := s.dropKey t
        .ack ((s.rekey (s.clearTerrace t)).releaseClusters t) t

/-- R342: STEWARD_REPLACE: a running terrace whose steward has retired has a fresh one placed. -/
def execStewardReplace (terrace : Nat) (s : State) : Out :=
  s.unitEvent terrace 16
    ((s.terrace terrace).part.state == .running && (s.terrace terrace).steward.isSome
      && !(s.workgroups.any fun w => w.isSteward && w.terrace == terrace)
      && !(s.dies.any fun d => d.queue.any fun i => i.kind == .steward terrace))
    (s.startSteward terrace)

/-! ## Save and restore (R347, R348) -/

/-- R259: the 64 bytes of a decant entry. -/
def DecantEntry.bytes (e : DecantEntry) : List Byte :=
  leBytes 8 e.base ++ leBytes 8 e.size ++ leBytes 8 e.back0 ++ leBytes 8 e.back1
    ++ leBytes 1 ((if e.valid then 1 else 0) + (if e.live then 2 else 0)) ++ leBytes 7 0 ++ leBytes 8 e.flips
    ++ leBytes 16 0
/-- A decant entry read from its bytes. -/
def DecantEntry.ofBytes (b : List Byte) : DecantEntry :=
  ⟨leField b 0 8, leField b 8 8, leField b 16 8, leField b 24 8, (leField b 32 1).testBit 0,
    (leField b 32 1).testBit 1, leField b 40 8, [], 0⟩

/-- R347: a tile-task leaf's queue is unfinished: done has not reached tail. -/
def State.unfinished (s : State) (p : Parcel) : Bool :=
  p.kind == 2 && (s.ctxRead p.ctx p.queue 64).any fun bs => leField bs 40 8 != leField bs 24 8

/-- R347: the parcels that a save image lists. -/
def State.savedParcels (s : State) (t : Nat) : List Nat :=
  (s.parcels.filter fun p => p.terrace == t && (p.status == 1 || p.status == 2 || s.unfinished p)).map (·.addr)

/-- R347: the save image of a terrace. -/
def State.saveImage (s : State) (t : Nat) : List Byte :=
  let tt := s.terrace t
  let ids := s.savedParcels t
  let root (i : Nat) : List Byte := match getI none tt.roots i with
    | some r => leBytes 6 r.base ++ leBytes 1 r.l ++ leBytes 1 0
    | none => leBytes 8 0
  leBytes 4 0x56415354 ++ leBytes 2 (rankIn tt.part.guaranteed 128) ++ leBytes 1 tt.part.vdevs ++ leBytes 1 0
    ++ (List.range 4).flatMap root ++ leBytes 4 ids.length ++ leBytes 20 0
    ++ ((List.range 256).flatMap fun h => (getI .zero tt.decants h).bytes) ++ ids.flatMap (leBytes 8)

/-- R347, R348: the block of SAVE and RESTORE: the terrace and the image's address. -/
def imageBlockBad (b : List Byte) : Bool := decide (16 ≤ leField b 0 1) || leField b 1 7 != 0

/-- R347, R394: n bytes at a physical address lie in the package's device memory or in host memory. -/
def imageFits (pa n : Nat) : Bool := decide (pa + n ≤ 2 ^ 38) || (isHost pa && decide (pa + n ≤ 2 ^ 52))

/-- R347: TERRACE.SAVE. -/
def execTerraceSave (m : Marks) (d : BitVec 7) (s : State) : Out :=
  s.supCall m d 2 blockTerrace fun s a => s.supBlock 16 a fun b =>
    let t := leField b 0 1
    let pa := leField b 8 8
    let img := s.saveImage t
    if imageBlockBad b || !imageFits pa img.length then .done s 3
    else if (s.terrace t).part.state ≠ .quiesced then .done s 4
    else .done (s.issueWrite (dieOfCore s.cur.core) mgmt none none false false pa img) 0

/-- R348: the record of a listed parcel, under the first virtual device whose root reaches it. -/
def State.restoredRecord (s : State) (t d addr : Nat) : Option (Nat × Nat × List Byte) :=
  ([0, 1, 2, 3] : List Nat).findSome? fun v =>
    match s.ctxTranslate ⟨t, v, d, none⟩ addr needRW, s.ctxRead ⟨t, v, d, none⟩ addr 256 with
    | some pa, some bs => if leField bs 84 4 = 1 ∨ leField bs 84 4 = 2 then some (v, pa, bs) else none
    | _, _ => none

/-- R348: a listed parcel is the terrace's again. -/
def State.restoreParcel (s : State) (t d addr : Nat) : State :=
  match s.restoredRecord t d addr with
  | none => s
  | some (v, pa, bs) =>
    let parent := s.parcels.find? fun p => p.terrace == t && p.vdev == v && p.addr == leField bs 16 8
    let p := { Parcel.ofRecord bs s.nextId addr pa t v d parent (s.causal d) with status := leField bs 84 4 }
    let s := match parent with
      | some q => s.updParcel q.id fun q => { q with spawned := true }
      | none => s
    ({ s with nextId := s.nextId + 1, parcels := s.parcels ++ [p] } : State).reviveTasks p

/-- R348: the items of a restored parcel: its next workgroups, its COMPLETE phase records and its COMPLETE exit
records. -/
def State.restoreItems (s : State) (p : Parcel) : State :=
  let level := (((s.image p.terrace).taskType? p.taskType).map (·.priv)).getD 0
  (List.range p.nextWg).foldl (fun s i =>
    let item (k : ItemKind) : Item := ⟨p.id, p.priority, k, level, p.stamp⟩
    let s := if s.recordStatus p.ctx (p.phaseRecord i) = 2 then s.enqueue p.die (item (.phase i)) else s
    if s.recordStatus p.ctx (p.exitRecord i) = 2 then s.enqueue p.die (item (.resume i)) else s)
    (s.queueParcel p)

/-- R348, R345: a terrace is restored from an image: its roots and decant table, then its parcels. Its usage log goes on with
a period that begins now (DEDUCED, log entry 53). -/
def State.restoreTerrace (s : State) (t : Nat) (img : List Byte) : State :=
  let tt := s.terrace t
  let e := s.entryOf t
  let root (i : Nat) : Option Root :=
    let l := leField img (8 + 8 * i + 6) 1
    if l = 0 then none else some ⟨leField img (8 + 8 * i) 6, l⟩
  let s := s.rekey (s.setTerrace t { tt with
    part := { e with state := .quiesced }, pending := none, roots := (List.range 4).map root, faultQueue := none,
    decants := (List.range 256).map fun h => DecantEntry.ofBytes (img.drop (64 + 64 * h)), turnEnding := false,
    usage := { Usage.zero with sequence := tt.usage.sequence, previous := tt.usage.previous, start := s.rtime,
                               period := e.period } })
  let d := (((List.range 128).find? fun k => e.guaranteed.getLsbD k).map fun k => k / 32).getD 0
  let s := (List.range (leField img 40 4)).foldl (fun s i => s.restoreParcel t d (leField img (16448 + 8 * i) 8)) s
  let tt := s.terrace t
  let s := s.setTerrace t { tt with decants := tt.decants.map fun x => { x with home := s.decantHome d t x } }
  (s.parcels.filter fun p => p.terrace == t).foldl State.restoreItems s

/-- R348: a save image as read: none when it is no image. -/
def State.readImage (s : State) (pa : Nat) : Option (List Byte) :=
  let x : Ctx := ⟨mgmt, 0, dieOfCore s.cur.core, none⟩
  let rd (n : Nat) : Option (List Byte) := if imageFits pa n then s.ctxRead x pa n else none
  (rd 64).bind fun h =>
    if leField h 0 4 = 0x56415354 ∧ leField h 40 4 ≤ 65536 then rd (16448 + 8 * leField h 40 4) else none

/-- R348: TERRACE.RESTORE. -/
def execTerraceRestore (m : Marks) (d : BitVec 7) (s : State) : Out :=
  s.supCall m d 2 blockTerrace fun s a => s.supBlock 16 a fun b =>
    let t := leField b 0 1
    if imageBlockBad b then .done s 3
    else if (s.terrace t).part.state ≠ .off then .done s 4
    else match s.readImage (leField b 8 8) with
      | none => .done s 3
      | some img =>
        if rankIn (s.entryOf t).guaranteed 128 < leField img 4 2 then .done s 2
        else .ack ((s.restoreTerrace t img).dropTlb fun e => e.terrace == t) t

/-! ## Headlands (R339) -/

/-- R339, R349: HEADLAND.REVOKE acts on the terrace that lent the cluster. -/
def lenderOf (s : State) (k : Nat) : Nat := ((s.cluster k).lender).getD mgmt

/-- R339: HEADLAND.REVOKE. -/
def execHeadlandRevoke (m : Marks) (d : BitVec 7) (s : State) : Out :=
  s.supCall m d 2 lenderOf fun s k =>
    if 127 < k then .done s 3
    else if (s.cluster k).lender.isNone then .done s 6
    else .done (s.beginRevoke k none) 0

/-- R160: the heads of the distributors that offer work of a terrace and cannot place it, with their dies. -/
def State.blockedHeads (s : State) (t : Nat) : List (Nat × Item) :=
  ([0, 1, 2, 3] : List Nat).filterMap fun d => (s.headOf d).bind fun it =>
    if ((s.findParcel it.parcel).map (·.terrace)) == some t && (s.placeItem d it).isNone then some (d, it) else none

/-- R339: the borrower of a headland cluster on which its terrace has had no work for 100 µs, and whose engines hold no
operation, which the scrub waits for. -/
def State.borrower (s : State) (k : Nat) : Option Nat :=
  let c := s.cluster k
  match c.owner with
  | none => none
  | some t =>
    let e := (s.terrace t).part
    if e.state == .running && e.lend && e.headland.getLsbD k && c.lender.isNone
        && decide (c.busyAt + 100 ≤ s.rtime)
        && !(s.workgroups.any fun w => (coresOf k).contains w.core) && !s.matmulOn k
        && !(s.asyncOps.any fun o => (coresOf k).contains o.core) then
      (List.range 16).find? fun b => b != t && e.lendMask.getLsbD b && (s.terrace b).part.state == .running
        && s.blockedHeads b != []
    else none

/-- R334: the logical number that a borrowed cluster takes. -/
def State.borrowedNumber (s : State) (b : Nat) : Nat :=
  ((List.range 129).find? fun i => !((List.range 128).any fun k =>
    (s.cluster k).owner == some b && (s.cluster k).logical == 128 + i)).getD 0 + 128

/-- R339: HEADLAND_LEND. -/
def execHeadlandLend (cluster : Nat) (s : State) : Out :=
  match s.borrower cluster with
  | none => s.clusterEvent cluster false s
  | some b =>
    let n := s.borrowedNumber b
    let lender := (s.cluster cluster).owner
    let s := s.scrubCluster cluster
    s.clusterEvent cluster true
      (s.setCluster cluster { s.cluster cluster with
        owner := some b, lender := lender, logical := n, revoking := false, revokeFor := none })

/-- R339: the state in which a head is tried on a lent cluster as if that were empty and its lender's. -/
def State.asIfEmpty (s : State) (t k : Nat) : State :=
  let here (core : Nat) : Bool := (coresOf k).contains core
  let s := (coresOf k).foldl (fun s i => s.setCore i .zero) s
  let s := s.setCluster k { s.cluster k with
    owner := some t, lender := none, revoking := false, revokeFor := none,
    logical := ((s.terrace t).part.logical k).getD 0 }
  { s with workgroups := s.workgroups.filter fun w => !here w.core, others := s.others.filter fun c => !here c.core,
           cur := if here s.cur.core then { s.cur with live := false } else s.cur }

/-- R339: a head of a lender would fit a lent cluster as if it were empty. -/
def State.wantsBack (s : State) (t k : Nat) (x : Nat × Item) : Bool :=
  ((s.asIfEmpty t k).placeItem x.1 x.2).isSome

/-- R339: the head of its lender for which the revocation of a lent cluster begins: one that fits nowhere, for which
this is the lowest-numbered lent cluster that passes, and for which no other is being revoked. -/
def State.revokeHead (s : State) (k : Nat) : Option (Nat × Item) :=
  match (s.cluster k).lender with
  | none => none
  | some t =>
    let lent := (List.range 128).filter fun j => (s.cluster j).lender == some t
    if (s.cluster k).revoking then none
    else (s.blockedHeads t).find? fun x => s.wantsBack t k x
      && !(lent.any fun j => (s.cluster j).revokeFor == some x || (decide (j < k) && s.wantsBack t j x))

/-- R339: HEADLAND_REVOKE_START. -/
def execHeadlandRevokeStart (cluster : Nat) (s : State) : Out :=
  s.clusterEvent cluster (s.revokeHead cluster).isSome (s.beginRevoke cluster (s.revokeHead cluster))

/-- R339 step 4: nothing of the borrower is left on a revoked cluster. -/
def State.returnDue (s : State) (k : Nat) : Bool :=
  (s.cluster k).revoking && !(s.workgroups.any fun w => (coresOf k).contains w.core) && !s.matmulOn k
    && !(s.asyncOps.any fun o => (coresOf k).contains o.core)

/-- R339 step 5: a cluster returns to its lender. -/
def State.returnCluster (s : State) (k : Nat) : State :=
  match (s.cluster k).lender with
  | none => s
  | some t =>
    let s := s.scrubCluster k
    s.setCluster k { s.cluster k with
      owner := some t, lender := none, revoking := false, revokeFor := none,
      logical := ((s.terrace t).part.logical k).getD 0 }

/-- R339: HEADLAND_RETURN. -/
def execHeadlandReturn (cluster : Nat) (s : State) : Out :=
  s.clusterEvent cluster (s.returnDue cluster) (s.returnCluster cluster)

/-! ## Usage and quotas (R343, R345) -/

/-- R345: bytes [127:0] of a usage record. -/
def Usage.head (u : Usage) (t now : Nat) (checkpoint : Bool) : List Byte :=
  leBytes 4 0x4C475355 ++ leBytes 1 t ++ leBytes 1 ((if checkpoint then 1 else 0) + (if u.quotaHit then 2 else 0))
    ++ leBytes 2 0 ++ leBytes 8 u.sequence ++ leBytes 8 u.start ++ leBytes 4 (now - u.start) ++ leBytes 4 0
    ++ leBytes 8 u.coreUs ++ leBytes 8 u.bytes ++ leBytes 8 u.energy ++ leBytes 4 u.launches
    ++ leBytes 4 u.preemptions ++ leBytes 4 u.faults ++ leBytes 28 0 ++ leBytes 32 u.previous

/-- R345: the 192 bytes of a usage record; n draws the free values. -/
def Usage.record (u : Usage) (t now n : Nat) : List Byte :=
  let check := u.sequence == 0 || u.sequence % 64 == 63
  let head := u.head t now check
  let sig := Config.signature 0 (leNat (sm3 head)) n
  head ++ (if check then leBytes 32 sig.1 ++ leBytes 32 sig.2 else leBytes 64 0)

/-- R343, R345: a period ends, at its boundary or as soon after as the model gets there: its record is written, the
counters start again, and the entry's period takes effect (R350). -/
def State.endPeriod (s : State) (t : Nat) : State :=
  let old := (s.terrace t).usage
  let s := s.passTime (old.start + old.period - s.rtime)
  let tt := s.terrace t
  let u := tt.usage
  let rec_ := u.record t s.rtime s.freeCount
  let s : State := { s.setTerrace t { tt with usage :=
    { Usage.zero with sequence := u.sequence + 1, start := s.rtime, period := tt.part.period,
                      previous := leNat (sm3 rec_) } } with freeCount := s.freeCount + 1 }
  let s := if u.quotaHold then s.undrain fun p => p.terrace == t else s
  s.issueWrite 0 mgmt none none false false (tt.part.logArea + 192 * (u.sequence % 2 ^ tt.part.logOrder)) rec_

/-- R343: USAGE_PERIOD_END. -/
def execUsagePeriodEnd (terrace : Nat) (s : State) : Out :=
  s.unitEvent terrace 16 ((s.terrace terrace).part.state != .off) (s.endPeriod terrace)

/-- R343: a root has unplaced work. -/
def State.unplaced (s : State) (p : Parcel) : Bool :=
  let mine (q : Option Parcel) : Bool := q.any fun q => q.root == p.root && q.vdev == p.vdev && q.terrace == p.terrace
  (s.dies.any fun d => d.queue.any fun i => mine (s.findParcel i.parcel))
    || s.tasks.any fun x => x.status == .queued && mine (x.parcel.bind s.findParcel)

/-- R343: the QUOTA record of a root. -/
def State.quotaRecord (s : State) (p : Parcel) : State :=
  s.recordFault p.terrace p.die (128 * p.die) (some p.id)
    ⟨.quota, 0, 0, 0, ⟨0, 0xFFFFFFFF, 0, false⟩, 0xFFFF, 0xFFFFFFFF, 0xFF⟩ [] true

/-- R343: a counter of a terrace has reached its quota for the first time in the period. -/
def State.quotaDue (s : State) (t : Nat) : Bool :=
  let tt := s.terrace t
  let e := tt.part
  let reached (quota n : Nat) : Bool := quota != 0 && decide (quota ≤ n)
  (e.state == .running || e.state == .quiescing) && !tt.usage.quotaHit
    && (reached e.quotaCore tt.usage.coreUs || reached e.quotaBytes tt.usage.bytes
      || reached e.quotaEnergy tt.usage.energy)

/-- R343, R344, R351: a quota is reached. -/
def State.reachQuota (s : State) (t : Nat) : State :=
  let tt := s.terrace t
  let roots := s.parcels.filter fun p => p.terrace == t && p.parent.isNone && s.unplaced p
  let run := tt.part.state == .running
  let s := s.setTerrace t { tt with usage := { tt.usage with quotaHit := true, quotaHold := run }
                                    turnEnding := tt.turnEnding || (run && tt.part.quantum != 0) }
  roots.foldl State.quotaRecord (if run then s.drain fun p => p.terrace == t else s)

/-- R343: QUOTA_REACHED. -/
def execQuotaReached (terrace : Nat) (s : State) : Out :=
  s.unitEvent terrace 16 (s.quotaDue terrace) (s.reachQuota terrace)

/-! ## Turns of virtual devices (R344) -/

/-- R344: a virtual device has queued or resident work. -/
def State.vdevBusy (s : State) (t v : Nat) : Bool :=
  (s.workgroups.any fun w => w.terrace == t && w.vdev == v && w.parcel.isSome)
    || (s.dies.any fun d => d.queue.any fun i =>
      (s.findParcel i.parcel).any fun p => p.terrace == t && p.vdev == v)
    || s.tasks.any fun x => x.terrace == t && x.vdev == v && x.parcel.all fun p => (s.findParcel p).isSome

/-- R344: the end of a turn: of its quantum, to which the reference timer moves, or at once when its device has nothing
more to do. -/
def State.quantumEnd (s : State) (t : Nat) : State :=
  let tt := s.terrace t
  let s := if s.vdevBusy t tt.turn then s.passTime (tt.turnStart + tt.part.quantum - s.rtime) else s
  (s.setTerrace t { s.terrace t with turnEnding := true }).drain fun p => p.terrace == t && p.vdev == tt.turn

/-- R344: VDEV_QUANTUM_END. -/
def execVdevQuantumEnd (terrace : Nat) (s : State) : Out :=
  let tt := s.terrace terrace
  s.unitEvent terrace 16 (tt.part.state == .running && tt.part.quantum != 0 && !tt.turnEnding) (s.quantumEnd terrace)

/-- R344: the running device's drain is complete. -/
def State.turnDrained (s : State) (t v : Nat) : Bool :=
  !(s.workgroups.any fun w => w.terrace == t && w.vdev == v && w.parcel.isSome)
    && !(s.tasks.any fun x => x.terrace == t && x.vdev == v && x.status == .running)

/-- R344: the device whose turn follows. -/
def State.nextTurn (s : State) (t v n : Nat) : Nat :=
  (((List.range n).map fun i => (v + 1 + i) % n).find? fun u => s.vdevBusy t u).getD ((v + 1) % n)

/-- R344: VDEV_TURN_START. -/
def execVdevTurnStart (terrace : Nat) (s : State) : Out :=
  let tt := s.terrace terrace
  s.unitEvent terrace 16
    (tt.part.state == .running && tt.turnEnding && !tt.usage.quotaHold && s.turnDrained terrace tt.turn)
    (let u := s.nextTurn terrace tt.turn tt.part.vdevs
     (s.setTerrace terrace { tt with turn := u, turnEnding := false, turnStart := s.rtime }).undrain fun p =>
       p.terrace == terrace && (p.vdev == tt.turn || p.vdev == u))

end Sys2Proof.Machine
end

