-- ==== Sys2Proof/Machine/Boot.lean ====
section
/-! DEFINITION. The host's windows and the virtual functions (R404 to R407, R412, R415), links (R393), resets and the
boot of the firmware (R104 to R109, R413, R414). -/

namespace Sys2Proof.Machine

/-! ## The host's windows (R405, R406, R407) -/

/-- R412: a virtual function's registers changed. -/
def State.updVf (s : State) (n : Nat) (f : VfRegs → VfRegs) : State :=
  let tt := s.terrace n
  s.setTerrace n { tt with vf := f tt.vf }
/-- R412: a count that saturates. -/
def addDrop (n : Nat) : Nat := min (n + 1) 0xFFFFFFFF

/-- R405, R406: the physical address of a tenant address for the endpoint: virtual device 0's stage 1, stage 2. -/
def State.windowAddress (s : State) (n va : Nat) (need : Need) : Option Nat :=
  s.ctxTranslate ⟨n, 0, 0, none⟩ va need

/-- R401, R407, R217: a home has applied every write that the device has made for a terrace before, and all that compute
die 0 has applied, whose write a host write is. -/
def State.windowReady (s : State) (n pa : Nat) : Bool :=
  s.clockCovered 0 (s.homeDie pa) && !(s.flights.any fun f => f.terrace == n && f.cane.isNone && (f.seq.isNone || f.todo.contains (s.homeDie pa)))

/-- R401, R405, R406: a host write of one line is performed at its home, as a write of compute die 0, in whose entry it
counts. -/
def State.windowWrite (s : State) (n pa : Nat) (signalled : Bool) (bytes : List Byte) : State :=
  s.pressWrite 0 n none none signalled false pa bytes []

/-- R405: the naturally aligned parts of a write: offset in the window, and bytes. The fuel bounds their count. -/
def windowParts : Nat → Nat → List Byte → List (Nat × List Byte)
  | 0, _, _ => []
  | n + 1, o, bs =>
    if o % 8 = 0 ∧ 8 ≤ bs.length then (o, bs.take 8) :: windowParts n (o + 8) (bs.drop 8)
    else if o % 4 = 0 ∧ 4 ≤ bs.length then (o, bs.take 4) :: windowParts n (o + 4) (bs.drop 4)
    else if bs = [] then [] else windowParts n (o + 1) (bs.drop 1)

/-- R405: one part of a signal-window write. -/
def State.signalPart (s : State) (n : Nat) (x : Nat × List Byte) : State :=
  let drop := s.updVf n fun v => { v with sigdrop := addDrop v.sigdrop }
  if (s.terrace n).part.state ≠ .running then drop
  else match s.windowAddress n (0x000FFFFFFFFF0000 + x.1) needW with
    | some pa => s.windowWrite n pa true x.2
    | none => drop

/-- R413: the virtual functions carry nothing until an image has passed. -/
def State.carries (s : State) : Bool := !s.boot.recovery

/-- R405, R407: a signal-window write may be performed: the homes of its parts have applied what came before. -/
def State.signalReady (s : State) (n : Nat) (parts : List (Nat × List Byte)) : Bool :=
  parts.all fun x => match s.windowAddress n (0x000FFFFFFFFF0000 + x.1) needW with
    | some pa => s.windowReady n pa
    | none => true

/-- R405: SIGNAL_WINDOW_WRITE: its parts are performed in ascending address. -/
def execSignalWindowWrite (vf : Nat) (offset : BitVec 64) (data : List Byte) (s : State) : Out :=
  let parts := windowParts data.length offset.toNat data
  s.unitEvent vf 16 (s.carries && decide (offset.toNat + data.length ≤ 65536) && s.signalReady vf parts)
    (parts.foldl (fun s x => s.signalPart vf x) s)

/-- R405: SIGNAL_WINDOW_READ: Unsupported Request. -/
def execSignalWindowRead (vf : Nat) (offset : BitVec 64) (s : State) : Out :=
  s.unitEvent vf 16 (s.carries && decide (offset.toNat < 65536)) { s with completion := none }

/-- R406: the pages of a window access translate, and the terrace is not OFF. -/
def State.windowOpen (s : State) (n a len : Nat) (need : Need) : Bool :=
  (s.terrace n).part.state != .off && (splitLines a (List.replicate len 0#8)).all fun x =>
    (s.windowAddress n x.1 need).isSome

/-- R406: an access is refused. -/
def State.windowRefuse (s : State) (n : Nat) : State := s.updVf n fun v => { v with mwdrop := addDrop v.mwdrop }

/-- R404, R406: the access lies in the window. -/
def State.inWindow (s : State) (n : Nat) (o : BitVec 64) (len : Nat) : Bool :=
  decide (o.toNat + len ≤ 2 ^ (s.terrace n).vf.mwsize)

/-- R406: MEMORY_WINDOW_WRITE. -/
def execMemoryWindowWrite (vf : Nat) (offset : BitVec 64) (data : List Byte) (s : State) : Out :=
  let a := offset.toNat
  let ready := (splitLines a data).all fun x => (s.windowAddress vf x.1 needW).all fun pa => s.windowReady vf pa
  s.unitEvent vf 16 (s.carries && s.inWindow vf offset data.length && ready)
    (if !s.windowOpen vf a data.length needW then s.windowRefuse vf
     else (splitLines a data).foldl (fun s x => match s.windowAddress vf x.1 needW with
       | some pa => s.windowWrite vf pa false x.2
       | none => s) s)

/-- R406: the bytes of a window read at their homes; none where one is poisoned (R207). -/
def State.windowBytes (s : State) (n a len : Nat) : Option (List Byte) :=
  ((splitLines a (List.replicate len 0#8)).mapM fun x =>
    (s.windowAddress n x.1 needR).bind fun pa =>
      if s.poisoned pa x.2.length then none else some ((List.range x.2.length).map fun i => s.homeByte (pa + i))).map
    List.flatten

/-- R406, R407: MEMORY_WINDOW_READ. -/
def execMemoryWindowRead (vf : Nat) (offset : BitVec 64) (len : Nat) (s : State) : Out :=
  let a := offset.toNat
  s.unitEvent vf 16 (s.carries && s.inWindow vf offset len)
    (if s.windowOpen vf a len needR then { s with completion := s.windowBytes vf a len }
     else { s.windowRefuse vf with completion := none })

/-! ## Attestation and function-level reset (R412, R414, R415) -/

/-- R415: VF_ATTEST. -/
def execVfAttest (vf : Nat) (value : BitVec 32) (s : State) : Out :=
  s.unitEvent vf 16 (s.carries && value == 1#32) (s.startAttest vf)

/-- R415: the report on a terrace. -/
def State.attestReport (s : State) (n : Nat) : List Byte :=
  let tt := s.terrace n
  let nonce := (tt.vf.nonceTaken ++ List.replicate 32 0#8).take 32
  let rows := ([0, 1, 2, 3] : List Nat).flatMap fun d => Memory.readBytes (s.die d).router (128 * n) 128
  let head := leBytes 4 0x54535441 ++ leBytes 1 1 ++ leBytes 1 n ++ leBytes 2 0 ++ leBytes 8 Config.serialNumber
    ++ leBytes 8 (tt.usage.sequence - 1) ++ leBytes 8 s.rtime ++ leBytes 32 s.boot.digest
    ++ sm3 ((s.entryOf n).bytes n) ++ nonce ++ sm3 rows ++ leBytes 32 Config.identityPrint
  let sig := Config.signature 1 (leNat (sm3 head)) s.freeCount
  head ++ leBytes 32 sig.1 ++ leBytes 32 sig.2

/-- R415: ATTEST_REPORT_DONE. -/
def execAttestReportDone (vf : Nat) (s : State) : Out :=
  s.unitEvent vf 16 ((s.terrace vf).vf.atstat == .busy)
    (({ s with freeCount := s.freeCount + 1 } : State).updVf vf fun v =>
      { v with atstat := .done, report := s.attestReport vf })

/-- R412: VF_FLR. -/
def execVfFlr (vf : Nat) (s : State) : Out :=
  s.unitEvent vf 16 true (s.updVf vf fun v =>
    { v with sigdrop := 0, mwdrop := 0, nonce := [], nonceTaken := [], report := [], atstat := .idle })

/-! ## Links (R393) -/

/-- R392, R393: a link changed. -/
def State.updLink (s : State) (i : Nat) (f : LinkState → LinkState) : State :=
  { s with links := setI .up s.links i (f (getI .up s.links i)) }

/-- R393: LINK_FLIT_REPLAY: a flit that failed its CRC is replayed. Whether the replay fails too is a free value: one that
succeeds ends a row of failures. -/
def execLinkFlitReplay (link : Nat) (s : State) : Out :=
  s.unitEvent link 20 (!(getI .up s.links link).down)
    ({ s with freeCount := s.freeCount + 1 }.updLink link fun l =>
      { l with failures := if Config.replayFails s.freeCount then min (l.failures + 1) 8 else 0 })

/-- R393: a link down, of which management is told. How it is told the spec does not say (log entry 55). -/
def State.cutLink (s : State) (link : Nat) : State := s.updLink link fun l => { l with down := true, told := true }

/-- R288, R402, R416: a collective that has started, whose lines are still on their way, and which a link that has gone down
was part of: every member of its key ends with an error. -/
def State.cutCollective (s : State) (id : Nat) : State :=
  match s.findTask id with
  | some t =>
    if t.status == .running && t.started && t.step == .press && !t.doomed then
      match s.severed (s.members t) with
      | some (x, addr) => s.failKey x .asyncFailure 0x24 addr
      | none => s
    else s
  | none => s

/-- R393, R402, R416: LINK_DOWN: what canes' stores have on their way over it is lost, and collectives that run over it
fail. -/
def execLinkDown (link : Nat) (s : State) : Out :=
  s.unitEvent link 20 (!(getI .up s.links link).down && (getI .up s.links link).failures == 8)
    (let t := s.flights.foldl (fun t f => match s.loses (s.cutLink link) f with
      | some p => t.loseStore f p
      | none => t) (s.cutLink link)
     (t.tasks.map (·.id)).foldl State.cutCollective t)

/-- R393: LINK_RETRAIN. -/
def execLinkRetrain (link : Nat) (s : State) : Out :=
  s.unitEvent link 20 true (s.updLink link fun _ => .up)

/-! ## Resets (R413, R365) -/

/-- R413: what a reset leaves: the state of reset, with the part's own pattern of clusters, memory whose contents are
stale, and host memory, which is not the package's. -/
def State.afterReset (s : State) (rtime : Nat) (sample : Nat → Sample) : State :=
  { State.reset with
    cur := { Cane.boot with id := s.nextId }, nextId := s.nextId + 2, freeCount := s.freeCount,
    mem := s.mem.filter fun c => isHost c.1, veils := [⟨0, 2 ^ 42, .lost (s.nextId + 1)⟩],
    clusters := (List.range 128).map fun k => { Cluster.zero with enabled := (s.cluster k).enabled, window := rtime / 10 },
    dies := (List.range 4).map fun d => { Die.zero with sample := sample d }, rtime := rtime }

/-- R413: COLD_RESET. -/
def execColdReset (s : State) : Out := .next (s.afterReset 0 fun _ => Die.zero.sample)

/-- R416: the links of the package to others, its Trellis ports, are down after a warm reset; its dies keep theirs
(DEDUCED, log entry 57). -/
def State.portsDown (s : State) : State :=
  { s with links := (List.range 16).map fun _ => { LinkState.up with down := true } }

/-- R413, R365, R416: WARM_RESET keeps the core samples, and takes a slot of each. -/
def execWarmReset (s : State) : Out :=
  .next (([0, 1, 2, 3] : List Nat).foldl (fun s d => s.sampleEvent d 4 0xFF 0xFF [])
    (State.portsDown <| s.afterReset s.rtime fun d => { (s.die d).sample with warm := (s.die d).sample.warm + 1 }))

/-! ## Images (R104 to R109, R114) -/

/-- R104: the fields for which a loader refuses a file as SVO_HEADER. -/
def headerSound (b : List Byte) : Bool :=
  decide (64 ≤ b.length) && leField b 0 4 == 0x004F5653 && leField b 4 2 == 1 && leField b 6 2 == 64
    && leField b 28 36 == 0

/-- R104, R413: a header in order, with flags linked and signed. The ROM refuses a header whose other fields break
R104's table, or that requires a later stepping, though R104 names a refusal for neither (DESIGN CHOICE, log
entry 66). -/
def headerOk (b : List Byte) : Bool :=
  headerSound b && leField b 8 4 == 3 && decide (1 ≤ leField b 12 4) && decide (leField b 12 4 ≤ 15)
    && leField b 16 8 % 8 == 0 && decide (leField b 24 4 ≤ Config.stepping.toNat)

/-- R105: a section of a file: its table entry and its bytes. -/
structure FileSection where
  entry : List Byte
  bytes : List Byte
  deriving DecidableEq, Repr

/-- The type of a section. -/
def FileSection.kind (x : FileSection) : Nat := leField x.entry 0 4

/-- R105: the sections of a file; `.bss` has no bytes in it and is zeros in memory. Of a section that runs past the end
of its file the bytes that are there are taken (DESIGN CHOICE, log entry 66). -/
def fileSections (b : List Byte) : List FileSection :=
  (List.range (leField b 12 4)).map fun i =>
    let e := (b.drop (leField b 16 8 + 32 * i)).take 32
    let n := leField e 16 8
    ⟨e, if leField e 0 4 = 5 then List.replicate n 0#8 else (b.drop (leField e 8 8)).take n⟩

/-- The bytes of a section of a type, none where the file has none. Of a file that holds a type twice, which R105 rules
out and for which it names no refusal, the first is taken (DESIGN CHOICE, log entry 66). -/
def sectionOf (xs : List FileSection) (kind : Nat) : List Byte := ((xs.find? fun x => x.kind == kind).map (·.bytes)).getD []

/-- R114: the signed content of a file. -/
def signedContent (b : List Byte) (xs : List FileSection) : List Byte :=
  b.take 64 ++ (xs.filter fun x => x.kind != 15).flatMap fun x => x.entry ++ (if x.kind = 5 then [] else x.bytes)

/-- R413, R114: a file's signature verifies under the fused root key. -/
def signatureOk (b : List Byte) : Bool :=
  let xs := fileSections b
  let sig := sectionOf xs 15
  let digest := leNat (sm3 (signedContent b xs))
  sig.length == 136 && leField sig 0 4 == 1 && leField sig 4 4 == 0 && leField sig 8 32 == Config.rootPrint
    && leField sig 40 32 == digest && Config.verifies digest (leField sig 72 32) (leField sig 104 32)

/-- R413, R104, R114: why the boot ROM refuses an image, none where it passes. Of two causes the header's is reported before
the unnamed one of R413 and that before the signature's: no rule gives an order (DESIGN CHOICE, log entry 66). -/
def imageFailure (b : List Byte) : Option BootFailure :=
  if !headerSound b then some .header
  else if !headerOk b then some .image
  else if !signatureOk b then some .signature
  else none

/-- Records of n bytes. -/
def recordsOf (n : Nat) (b : List Byte) : List (List Byte) := (List.range (b.length / n)).map fun i => (b.drop (n * i)).take n

/-- R107, R109: k ranges of (offset, length). -/
def rangesAt (b : List Byte) (lo k : Nat) : List (Nat × Nat) :=
  (List.range k).map fun i => (leField b (lo + 8 * i) 4, leField b (lo + 8 * i + 4) 4)

/-- 0xFFFFFFFF stands for none. -/
def offsetAt (b : List Byte) (lo : Nat) : Option Nat := if leField b lo 4 = 0xFFFFFFFF then none else some (leField b lo 4)

/-- R107: a `.regions` record. Exit classes 2 and 3, which R107 does not assign, are taken as save, and a range count above
eight reads on past the eight ranges (DESIGN CHOICE, log entry 66). -/
def Region.ofBytes (b : List Byte) : Region :=
  { id := leField b 0 4, kernel := leField b 4 4, first := leField b 8 4, last := leField b 12 4, exitOff := offsetAt b 16, entryOff := offsetAt b 20,
    quarantine := (leField b 24 4).testBit 0, restart := leField b 24 4 / 2 % 4 == 1, routine := (leField b 24 4).testBit 3,
    ranges := rangesAt b 64 (leField b 28 4), carry := BitVec.ofNat 256 (leField b 32 32) }

/-- R108: a `.tasktypes` record. -/
def TaskType.ofBytes (b : List Byte) : TaskType :=
  { dict := offsetAt b 4, regs := leField b 8 2, canes := leField b 10 2, scratch := leField b 12 4, priv := leField b 16 1,
    graftable := (leField b 17 1).testBit 0, next := if leField b 18 2 = 0xFFFF then none else some (leField b 18 2),
    roles := (List.range 48).map fun i => leField b 20 12 / 4 ^ i % 4 }

/-- R109, R111: a `.grafts` record, with the target kernel's entry from the symbol table. -/
def Graft.ofBytes (symbols : List (List Byte)) (b : List Byte) : Graft :=
  { entry := leField (getI [] symbols (leField b 4 4)) 8 8, taskType := leField b 8 4, ranges := rangesAt b 80 (leField b 12 4),
    carry := BitVec.ofNat 256 (leField b 16 32), tids := BitVec.ofNat 256 (leField b 48 32) }

/-- R106: the dictionaries of `.dict`, each a head and its entries; the fuel bounds their count. -/
def dictsOf : Nat → List Byte → List (List Word)
  | 0, _ => []
  | n + 1, b =>
    if b.length < 16 then []
    else
      let k := leField b 4 4
      ((List.range k).foldl (fun ws i =>
        setI 0 ws (leField b (16 + 8 * i) 2) (BitVec.ofNat 32 (leField b (20 + 8 * i) 4))) [])
        :: dictsOf n (b.drop (16 + 8 * k))

/-- R107: a `.stops` record. The device holds the live map and makes no use of it: R102 points to a chapter that gives
none (DESIGN CHOICE, log entry 66). -/
def Stop.ofBytes (b : List Byte) : Stop :=
  ⟨leField b 0 4, leField b 4 4, leField b 8 4, (leField b 12 4).testBit 0, BitVec.ofNat 256 (leField b 16 32)⟩

/-- R104 to R109: the tables of a file whose `.text` stands at a parcel address. -/
def linkedImage (xs : List FileSection) (text : Nat) : LinkedImage :=
  { text := text, regions := (recordsOf 128 (sectionOf xs 6)).map Region.ofBytes,
    stops := (recordsOf 48 (sectionOf xs 7)).map Stop.ofBytes,
    taskTypes := (recordsOf 48 (sectionOf xs 8)).map TaskType.ofBytes,
    grafts := (recordsOf 144 (sectionOf xs 9)).map (Graft.ofBytes (recordsOf 24 (sectionOf xs 13))),
    dicts := dictsOf (sectionOf xs 2).length (sectionOf xs 2) }

/-- R105: the loadable sections of a file from an address on, in table order, each at its alignment. An entry that breaks
R105's table in its record size, its reserved flags or its alignment is accepted as it stands, and the record size is not
used (DESIGN CHOICE, log entry 66). -/
def layout (base : Nat) : List FileSection → List (Nat × FileSection)
  | [] => []
  | x :: xs =>
    if (leField x.entry 4 4).testBit 0 then
      let n := max 1 (leField x.entry 24 4)
      let a := (base + n - 1) / n * n
      (a, x) :: layout (a + x.bytes.length) xs
    else layout base xs

/-! ## Boot (R413) -/

/-- R413: an image that passes is loaded and started: the boot cane goes on at the first parcel of `.text`, or of the image
where no `.text` is loadable, which no rule refuses (DESIGN CHOICE, log entry 66). -/
def State.startFirmware (s : State) (image : Image) : State :=
  let xs := fileSections image.bytes
  let places := layout image.base xs
  let text := ((places.find? fun x => x.2.kind == 1).map (·.1)).getD image.base / 2
  let s := places.foldl (fun s x => s.writeHomeBytes x.1 x.2.bytes) s
  let s : State := { s with images := setI .empty s.images mgmt (linkedImage xs text),
                            boot := { s.boot with recovery := false, reported := none,
                                                  digest := leNat (sm3 (signedContent image.bytes xs)) } }
  s.mapCanes fun c => if c.wait = .rom then { c with wait := .none, pc := BitVec.ofNat 64 text } else c

/-- R413, R104, R114: FIRMWARE_IMAGE_LOAD: an image that is refused is reported with its cause. -/
def execFirmwareImageLoad (image : Image) (s : State) : Out :=
  .next (if !s.boot.recovery then s
    else match imageFailure image.bytes with
      | none => s.startFirmware image
      | some e => { s with boot := { s.boot with reported := some e } })

/-- R413: FIRMWARE_FETCH_FAILURE: the ROM turns to a neighbouring package. -/
def execFirmwareFetchFailure (s : State) : Out :=
  .next (if s.boot.recovery then { s with boot := { s.boot with overTrellis := true, reported := some .fetch } } else s)

end Sys2Proof.Machine
end

