-- ==== Sys2Proof/Machine/Integer.lean ====
section
/-! DEFINITION. The integer, logic and predicate instructions (R136 to R144). -/

namespace Sys2Proof.Machine

/-- R136: an integer instruction: its checks, and the element-wise effect under MODE.ET. -/
def State.intOp (s : State) (m : Marks) (accepts : ElemType → Bool) (d : BitVec 7)
    (srcs : List (BitVec 7)) (f : ElemType → List Nat → LaneRes) : Out :=
  let c := s.cur
  s.attemptReading (operandLanes m.u c.active) (c.blockReads c.is64 srcs) (c.vChecks accepts false (d :: srcs))
    (s.vectorOp m false d srcs fun _ => f (c.etype.getD .i32))

/-- R137: an arithmetic instruction on elements. -/
def State.arith (s : State) (m : Marks) (d : BitVec 7) (srcs : List (BitVec 7))
    (g : ElemType → List Nat → ElemRes) : Out :=
  s.intOp m ElemType.isInt d srcs fun t => perElem t fun _ => g t

/-- R55, R137: an exact integer result delivered under MODE.SAT. -/
def State.deliver (s : State) (t : ElemType) (x : Int) : ElemRes := deliverInt s.cur.sat t x
/-- A result that is always in range (R137). -/
def plainInt (t : ElemType) (x : Int) : ElemRes := ⟨bitsOfInt t.width x, 0⟩

/-- R137: IADD. -/
def execIadd (m : Marks) (d a b : BitVec 7) (s : State) : Out :=
  s.arith m d [a, b] fun t => bin fun x y => s.deliver t (intOf t x + intOf t y)
/-- R137: ISUB. -/
def execIsub (m : Marks) (d a b : BitVec 7) (s : State) : Out :=
  s.arith m d [a, b] fun t => bin fun x y => s.deliver t (intOf t x - intOf t y)
/-- R137: IMUL. -/
def execImul (m : Marks) (d a b : BitVec 7) (s : State) : Out :=
  s.arith m d [a, b] fun t => bin fun x y => s.deliver t (intOf t x * intOf t y)
/-- R137: IMULH. -/
def execImulh (m : Marks) (d a b : BitVec 7) (s : State) : Out :=
  s.arith m d [a, b] fun t => bin fun x y => plainInt t ((intOf t x * intOf t y).fdiv (2 ^ t.width))
/-- R137: IMAD. -/
def execImad (m : Marks) (d a b : BitVec 7) (s : State) : Out :=
  s.arith m d [d, a, b] fun t => tri fun z x y => s.deliver t (intOf t z + intOf t x * intOf t y)
/-- R56, R137: IDIV. -/
def execIdiv (m : Marks) (d a b : BitVec 7) (s : State) : Out :=
  s.arith m d [a, b] fun t => bin fun x y => divElem s.cur.sat t x y
/-- R56, R137: IREM. -/
def execIrem (m : Marks) (d a b : BitVec 7) (s : State) : Out :=
  s.arith m d [a, b] fun t => bin fun x y => remElem s.cur.sat t x y
/-- R137: IMIN. -/
def execImin (m : Marks) (d a b : BitVec 7) (s : State) : Out :=
  s.arith m d [a, b] fun t => bin fun x y => plainInt t (min (intOf t x) (intOf t y))
/-- R137: IMAX. -/
def execImax (m : Marks) (d a b : BitVec 7) (s : State) : Out :=
  s.arith m d [a, b] fun t => bin fun x y => plainInt t (max (intOf t x) (intOf t y))
/-- R137: IABS. -/
def execIabs (m : Marks) (d a : BitVec 7) (s : State) : Out :=
  s.arith m d [a] fun t => un fun x => s.deliver t ((intOf t x).natAbs : Int)
/-- R137: INEG. -/
def execIneg (m : Marks) (d a : BitVec 7) (s : State) : Out :=
  s.arith m d [a] fun t => un fun x => s.deliver t (-(intOf t x))
/-- R137: IADDI: the same immediate for every element. -/
def execIaddi (m : Marks) (d : BitVec 7) (i : BitVec 14) (s : State) : Out :=
  s.arith m d [d] fun t => un fun x => s.deliver t (intOf t x + (s.imm i).toInt)

/-! ## Shifts and bit counts (R138) -/

/-- Bits of an element with no flag. -/
def bitsRes (x : Nat) : ElemRes := ⟨x, 0⟩

/-- R138: SHL. -/
def execShl (m : Marks) (d a b : BitVec 7) (s : State) : Out :=
  s.arith m d [a, b] fun t => bin fun x n =>
    bitsRes (if t.width ≤ n then 0 else x * 2 ^ n % 2 ^ t.width)
/-- R138: SHR. -/
def execShr (m : Marks) (d a b : BitVec 7) (s : State) : Out :=
  s.arith m d [a, b] fun t => bin fun x n => bitsRes (if t.width ≤ n then 0 else x / 2 ^ n)
/-- R138: the element shifted right with copies of its top bit. -/
def sarBits (w x n : Nat) : Nat :=
  let k := min n w
  if 2 ^ (w - 1) ≤ x then x / 2 ^ k + (2 ^ w - 2 ^ (w - k)) else x / 2 ^ k
/-- R138: SAR. -/
def execSar (m : Marks) (d a b : BitVec 7) (s : State) : Out :=
  s.arith m d [a, b] fun t => bin fun x n => bitsRes (sarBits t.width x n)
/-- R138: ROT. -/
def execRot (m : Marks) (d a b : BitVec 7) (s : State) : Out :=
  s.arith m d [a, b] fun t => bin fun x n =>
    let k := n % t.width
    bitsRes (x * 2 ^ k % 2 ^ t.width + x / 2 ^ (t.width - k))
/-- The count of 1 bits among the low w bits. -/
def countOnes (w x : Nat) : Nat := ((List.range w).filter fun i => x.testBit i).length
/-- R138: POPC. -/
def execPopc (m : Marks) (d a : BitVec 7) (s : State) : Out :=
  s.arith m d [a] fun t => un fun x => bitsRes (countOnes t.width x)
/-- R138: CLZ. -/
def execClz (m : Marks) (d a : BitVec 7) (s : State) : Out :=
  s.arith m d [a] fun t => un fun x => bitsRes (t.width - bitLen x)
/-- The low w bits in reverse order. -/
def reverseBits (w x : Nat) : Nat :=
  (List.range w).foldl (fun r i => 2 * r + (if x.testBit i then 1 else 0)) 0
/-- R138: BREV. -/
def execBrev (m : Marks) (d a : BitVec 7) (s : State) : Out :=
  s.arith m d [a] fun t => un fun x => bitsRes (reverseBits t.width x)

/-! ## Bit fields (R139) -/

/-- R139: the types BFX, BFI and ISETP accept. -/
def wideInt : ElemType → Bool
  | .i32 | .n32 | .i64 | .n64 => true
  | _ => false

/-- R139: the position and the length L of the field that b names. -/
def fieldOf (w b : Nat) : Nat × Nat :=
  let pos := b % 256
  let len := b / 256 % 256
  (pos, if w ≤ pos ∨ len = 0 then 0 else min len (w - pos))

/-- R139: the extracted field. -/
def bfxBits (t : ElemType) (a b : Nat) : Nat :=
  let (pos, l) := fieldOf t.width b
  let f := a / 2 ^ pos % 2 ^ l
  if l = 0 then 0
  else if t.signed && f.testBit (l - 1) then f + (2 ^ t.width - 2 ^ l) else f

/-- R139: d with the field replaced. -/
def bfiBits (t : ElemType) (d a b : Nat) : Nat :=
  let (pos, l) := fieldOf t.width b
  if l = 0 then d
  else d - d / 2 ^ pos % 2 ^ l * 2 ^ pos + a % 2 ^ l * 2 ^ pos

/-- R139: BFX. -/
def execBfx (m : Marks) (d a b : BitVec 7) (s : State) : Out :=
  s.intOp m wideInt d [a, b] fun t => perElem t fun _ => bin fun x y => bitsRes (bfxBits t x y)
/-- R139: BFI. -/
def execBfi (m : Marks) (d a b : BitVec 7) (s : State) : Out :=
  s.intOp m wideInt d [d, a, b] fun t =>
    perElem t fun _ => tri fun z x y => bitsRes (bfiBits t z x y)

/-! ## Bitwise instructions and moves (R140) -/

/-- R140: every assigned element type. -/
def anyType : ElemType → Bool := fun _ => true

/-- R140: a bitwise instruction on the lane's 32 or 64 bits. -/
def State.bitwise (s : State) (m : Marks) (d : BitVec 7) (srcs : List (BitVec 7))
    (g : List Nat → Nat) : Out :=
  s.intOp m anyType d srcs fun _ vals => ⟨g vals, 0⟩

/-- R140: AND. -/
def execAnd (m : Marks) (d a b : BitVec 7) (s : State) : Out :=
  s.bitwise m d [a, b] fun v => v.getD 0 0 &&& v.getD 1 0
/-- R140: OR. -/
def execOr (m : Marks) (d a b : BitVec 7) (s : State) : Out :=
  s.bitwise m d [a, b] fun v => v.getD 0 0 ||| v.getD 1 0
/-- R140: XOR. -/
def execXor (m : Marks) (d a b : BitVec 7) (s : State) : Out :=
  s.bitwise m d [a, b] fun v => v.getD 0 0 ^^^ v.getD 1 0
/-- The bits of a lane: 32, or 64 under I64 and N64. -/
def Cane.ones (c : Cane) : Nat := if c.is64 then 2 ^ 64 - 1 else 2 ^ 32 - 1
/-- R140: NOT. -/
def execNot (m : Marks) (d a : BitVec 7) (s : State) : Out :=
  s.bitwise m d [a] fun v => s.cur.ones - v.getD 0 0
/-- R140: SEL: a bit of D that is 1 takes A's bit. -/
def execSel (m : Marks) (d a b : BitVec 7) (s : State) : Out :=
  s.bitwise m d [d, a, b] fun v =>
    (v.getD 1 0 &&& v.getD 0 0) ||| (v.getD 2 0 &&& (s.cur.ones - v.getD 0 0))
/-- R140: MOV. -/
def execMov (m : Marks) (d a : BitVec 7) (s : State) : Out := s.bitwise m d [a] fun v => v.getD 0 0
/-- R140: the immediate of MOVI and ANDI at the lane's width. -/
def State.immBits (s : State) (i : BitVec 14) : Nat :=
  if s.cur.is64 then (s.imm i).toNat else (s.imm i).toNat % 2 ^ 32
/-- R140: MOVI. -/
def execMovi (m : Marks) (d : BitVec 7) (i : BitVec 14) (s : State) : Out :=
  s.bitwise m d [] fun _ => s.immBits i
/-- R140: ANDI. -/
def execAndi (m : Marks) (d : BitVec 7) (i : BitVec 14) (s : State) : Out :=
  s.bitwise m d [d] fun v => v.getD 0 0 &&& s.immBits i

/-! ## Predicates (R141, R142) -/

/-- R47: an ISETP condition on two values of width w. -/
def icond (c w a b : Nat) : Bool :=
  let sgn (x : Nat) : Int := if 2 ^ (w - 1) ≤ x then (x : Int) - 2 ^ w else x
  match c with
  | 0 => a == b
  | 1 => a != b
  | 2 => decide (sgn a < sgn b)
  | 3 => decide (sgn a ≤ sgn b)
  | 4 => decide (sgn b < sgn a)
  | 5 => decide (sgn b ≤ sgn a)
  | 6 => decide (a < b)
  | 7 => decide (a ≤ b)
  | 8 => decide (b < a)
  | _ => decide (b ≤ a)

/-- R141: ISETP acts 1 × 1. -/
def execIsetp (m : Marks) (cc : BitVec 4) (p : BitVec 3) (a b : BitVec 7) (s : State) : Out :=
  let c := s.cur
  let mk := c.active
  let reads := readsOf c.is64 [a, b] 0
  let w := if c.is64 then 64 else 32
  let bit (l : Nat) : Bool :=
    let k := srcLane m.u mk l
    icond cc.toNat w (c.val c.is64 a.toNat k) (c.val c.is64 b.toNat k)
  s.attemptReading (operandLanes m.u mk) reads
    [c.beyond [a.toNat, b.toNat], c.badType wideInt, oddField c.is64 [a, b], c.beyond reads]
    (((s.chargeVec m.u mk [reads]).updCur fun k => k.setP mk p.toNat (maskOf bit)).finish m)

/-- R142: a predicate instruction: its bit in each active lane, or that of the first one under U. -/
def State.predOp (s : State) (m : Marks) (d : BitVec 3) (x : Mask) : Out :=
  let mk := s.cur.active
  .next (((s.chargeVec m.u mk [[]]).updCur fun k =>
    k.setP mk d.toNat (maskOf fun l => x.getLsbD (srcLane m.u mk l))).finish m)

/-- R142: PAND. -/
def execPand (m : Marks) (d a b : BitVec 3) (s : State) : Out :=
  s.predOp m d (s.cur.pred a.toNat &&& s.cur.pred b.toNat)
/-- R142: POR. -/
def execPor (m : Marks) (d a b : BitVec 3) (s : State) : Out :=
  s.predOp m d (s.cur.pred a.toNat ||| s.cur.pred b.toNat)
/-- R142: PNOT. -/
def execPnot (m : Marks) (d a : BitVec 3) (s : State) : Out := s.predOp m d (~~~(s.cur.pred a.toNat))

/-! ## CVT (R143, R144) -/

/-- R144: a converted value of source type st before delivery: an integer, or a float. -/
def convertElem (c : Cane) (rm : RMode) (g : Nat) (st tt : ElemType) (x : Nat) : ElemRes :=
  let toTarget (r : FReal) : ElemRes :=
    if tt.isInt then toIntF rm c.sat g tt r else toFloatF tt.fmt rm c.sat c.ftz g r
  if st.isInt then
    if tt.isInt then
      if st = tt then ⟨x, 0⟩ else deliverInt c.sat tt (intOf st x)
    else
      let v := intOf st x
      toTarget (.real ⟨decide (v < 0), v.natAbs, 0, false⟩)
  else if st = .nq4 then
    let v := nq4Value x
    toTarget (.real ⟨decide (v < 0), v.natAbs, -6, false⟩)
  else
    let y := flushIn c.ftz st.fmt x
    if st = tt then
      match decodeF st.fmt y with
      | .nan sig => ⟨st.fmt.nanBits, if sig then flagNV else 0⟩
      | _ => ⟨y, 0⟩
    else toTarget (decodeF st.fmt y).toReal

/-- R143: where element i of a group of type t lies: its register, and its position there. -/
def groupPlace (t : ElemType) (i : Nat) : Nat × Nat :=
  if t.is64 then (2 * i, 0) else (i / t.count, i % t.count)

/-- R143: the registers a group of n elements of type t spans. -/
def groupRegs (t : ElemType) (n : Nat) : Nat := if t.is64 then 2 * n else n / t.count

/-- R143: element i of the group at register a. -/
def Cane.groupElem (c : Cane) (t : ElemType) (a i l : Nat) : Nat :=
  let (r, j) := groupPlace t i
  elemBits t (c.val t.is64 (a + r) l) j

/-- R143: n results written as a group at register d, in the lanes of mk. -/
def Cane.setGroup (c : Cane) (t : ElemType) (mk : Mask) (d n : Nat) (f : Nat → Nat → Nat) : Cane :=
  if t.is64 then
    (List.range n).foldl (fun c i => c.setVal true mk (d + 2 * i) (f i)) c
  else
    (List.range (n / t.count)).foldl (fun c r =>
      c.setVal false mk (d + r) fun l =>
        packElems t.width ((List.range t.count).map fun j => f (r * t.count + j) l)) c

/-- R143: CVT. -/
def execCvt (m : Marks) (d a : BitVec 7) (s : State) : Out :=
  let c := s.cur
  let mk := c.active
  let st := c.etype.getD .i32
  let tt := c.ctype.getD .i32
  let n := max (max (if st.is64 then 0 else st.count) (if tt.is64 then 0 else tt.count)) 1
  let ra := groupRegs st n
  let rd := groupRegs tt n
  let grouped : Bool := decide (1 < ra) || decide (1 < rd)
  let usesRM := !(st.isInt && tt.isInt)
  let sr : Bool := usesRM && decide (c.rmode = some .sr)
  let rm := c.rmode.getD .rne
  let offs := if grouped then [0] else c.blockOffsets false
  let reads := offs.flatMap fun o => (List.range ra).map fun r => a.toNat + o + r
  let res (o i l : Nat) : ElemRes :=
    let k := srcLane m.u mk l
    let g := if sr then srBits (c.srAt m.u mk (offs.idxOf o) l) i else 0
    convertElem c rm g st tt (c.groupElem st (a.toNat + o) i k)
  let writes := offs.flatMap fun o => (List.range rd).map fun r => d.toNat + o + r
  s.attemptReading (operandLanes m.u mk) reads
    ([c.beyond [a.toNat, d.toNat], c.groupBeyond (reads ++ writes), c.badType anyType,
      ((match c.ctype with | some t => t == .nq4 | none => true), .illegalMode)]
      ++ (if usesRM then [c.badRM] else [])
      ++ [(grouped && (c.br != 0 || c.bc != 0), .illegalMode),
          oddField st.is64 [a], oddField tt.is64 [d],
          (grouped && (decide (127 < a.toNat + ra - 1) || decide (127 < d.toNat + rd - 1)),
            .blockRange)]
      ++ (if grouped then [] else [c.badBlock false [a, d]]))
    (((s.chargeVec m.u mk (offs.map fun o => (List.range ra).map fun r => a.toNat + o + r)).updCur
      fun k =>
        let k := offs.foldl (fun k o => k.setGroup tt mk (d.toNat + o) n fun i l => (res o i l).bits) k
        let k := k.raiseFlags (offs.foldl (fun w o => w ||| flagsOf mk fun l =>
          (List.range n).foldl (fun w i => w ||| (res o i l).flags) 0) 0)
        if sr then k.stepLfsr m.u mk offs.length else k).finish m)

end Sys2Proof.Machine
end

