-- ==== Sys2Proof/Machine/Replay.lean ====
section
/-! DEFINITION. The order gates of record and replay (R368, R369): the grant of a request that a gate holds. -/

namespace Sys2Proof.Machine

/-- R369: a gate of a terrace grants the request of a cane that it holds: it is open, or its launch is not replayed
any more; and no RED of the cane is held at the same press before it. -/
def State.gateDue (s : State) (t : Nat) (c : Cane) : Bool :=
  match c.wait, s.rootOf c with
  | .gate kind place, some root =>
    (s.wgOf c).terrace == t && !(s.heldReds.any fun h => kind == 1 && h.cane == c.id && h.unit == place)
      && (!s.underReplay t (some root) 2 || s.gateOpen t root kind place (s.wgOf c).linear c.idx)
  | .gate _ _, none => (s.wgOf c).terrace == t
  | _, _ => false

/-- R369: a monitor unit's grant under REPLAY: the wake is checked off. -/
def State.monitorGrant (s : State) (t : Nat) (c : Cane) : State :=
  match c.wait, s.rootOf c with
  | .gate 2 place, some root =>
    if s.underReplay t (some root) 2 then s.gateGrant t root 2 place (s.winner c) else s
  | _, _ => s

/-! ## REDs that a gate holds (R232, R368) -/

/-- A held RED's operation as a segment. -/
def HeldRed.seg (h : HeldRed) : Seg :=
  match h.place with
  | .glob pa => .glob pa h.width
  | .scratch wg off => .scr wg off h.width
  | _ => .lost h.width

/-- R217, R369: the gate grants a held RED: it is the cane's first there, the gate is open or its launch is not replayed
any more, and the home has applied what its die shows. -/
def State.heldDue (s : State) (t : Nat) (h : HeldRed) : Bool :=
  h.terrace == t
    && ((s.heldReds.find? fun x => x.cane == h.cane && x.unit == h.unit).map (·.id)) == some h.id
    && (!s.underReplay t (some h.root) 2 || s.gateOpen t h.root 1 h.unit h.linear h.idx)
    && (match h.place with | .glob pa => s.clockCovered h.die (s.homeDie pa) | _ => true)

/-- R219, R232: the press or the core store performs a held RED, whose new value joins its cane's hash (R366). -/
def State.pressHeld (s : State) (h : HeldRed) : State :=
  let store (s : State) (old : Nat) (put : State → List Byte → State) : State :=
    let n := atomAddBits h.etype old h.value
    (put s (leBytes h.width n)).resolveRed h.cane h.id (some n)
  match h.place with
  | .glob pa => store s (leNat ((List.range h.width).map fun i => s.homeByte (pa + i))) fun s bytes =>
      (s.storeL1 h.core pa bytes).pressWrite h.die h.terrace (some h.cane) h.parcel h.signal false pa bytes []
  | .scratch wg off => store s (leNat (Memory.readBytes (s.scratchOf wg) off h.width)) fun s bytes =>
      let s := s.writeScratch wg off bytes
      if h.signal then s.monitorWake h.die (.scratch wg off) bytes.length else s
  | _ => s.resolveRed h.cane h.id none

/-- R209, R232, R368, R369: the gate has granted a held RED. -/
def State.performHeld (s : State) (h : HeldRed) : State :=
  let s := ({ s with heldReds := s.heldReds.filter fun x => x.id != h.id } : State).updCane h.cane fun c =>
    ({ c with dcnt := c.dcnt - 1, hcnt := c.hcnt - 1 } : Cane).poke
  if s.segPoisoned .home h.seg then
    (s.deferredOf .poisonedData h.terrace h.parcel h.origin).resolveRed h.cane h.id none
  else
    let s := if s.underReplay h.terrace (some h.root) 2 then
        s.gateGrant h.terrace h.root 1 h.unit ⟨h.linear, h.idx, h.cane, h.token, 0⟩
      else s
    s.pressHeld h

/-- R369: REPLAY_GATE_GRANT of a cane that waits at a gate, or of a held RED, by its number. A press or a ring makes its
own grant when the cane's instruction issues again. -/
def execReplayGateGrant (terrace : Nat) (gate : Nat) (s : State) : Out :=
  match s.findCane gate, s.heldReds.find? fun h => h.id == gate with
  | some c, _ =>
    s.unitEvent terrace 16 (s.gateDue terrace c)
      ((s.monitorGrant terrace c).updCane gate fun c => { c with wait := .none })
  | none, some h => s.unitEvent terrace 16 (s.heldDue terrace h) (s.performHeld h)
  | none, none => s.unitEvent terrace 16 false s

end Sys2Proof.Machine
end

