-- ==== Sys2Proof/Machine/Pairs.lean ====
section
/-! DEFINITION. The two forms that execute another word: the immx pair (R24, R40) and the dictionary code
(R21 to R23, R39). -/

namespace Sys2Proof.Machine

/-- The effect of a word that stands in a pair or in a dictionary; anything else is no word. -/
def runWord (i : Instr) (s : State) : Out :=
  match i with
  | .nop m => execNop m s
  | .mode m i => execMode m i s
  | .moder m a => execModer m a s
  | .bra m j => execBra m j s
  | .brau m j => execBrau m j s
  | .join m j => execJoin m j s
  | .call m j => execCall m j s
  | .ret m => execRet m s
  | .jmpr m a => execJmpr m a s
  | .trap m i => execTrap m i s
  | .eret m => execEret m s
  | .exit0 m => execExit0 m s
  | .exit1 m => execExit1 m s
  | .exit2 m => execExit2 m s
  | .bkpt m i => execBkpt m i s
  | .mark m i => execMark m i s
  | .sysRd m d i => execSysRd m d i s
  | .sysWr m d i => execSysWr m d i s
  | .perfRd m d i => execPerfRd m d i s
  | .trig m e => execTrig m e s
  | .pwrReq m d p => execPwrReq m d p s
  | .faultResume m d => execFaultResume m d s
  | .faultRetire m d => execFaultRetire m d s
  | .fqSet m d => execFqSet m d s
  | .s1Root m d => execS1Root m d s
  | .vdSelect m d => execVdSelect m d s
  | .s1Page m d => execS1Page m d s
  | .decantSet m d => execDecantSet m d s
  | .decantClr m d => execDecantClr m d s
  | .urgent m d => execUrgent m d s
  | .supDrain m d => execSupDrain m d s
  | .terraceGet m d => execTerraceGet m d s
  | .terraceSet m d => execTerraceSet m d s
  | .terraceCommit m d => execTerraceCommit m d s
  | .terraceQuiesce m d => execTerraceQuiesce m d s
  | .terraceOff m d => execTerraceOff m d s
  | .keyLoad m d => execKeyLoad m d s
  | .terraceScrub m d => execTerraceScrub m d s
  | .s2Inv m d => execS2Inv m d s
  | .s2Page m d => execS2Page m d s
  | .headlandRevoke m d => execHeadlandRevoke m d s
  | .terraceSave m d => execTerraceSave m d s
  | .terraceRestore m d => execTerraceRestore m d s
  | .stewardSet m d => execStewardSet m d s
  | .mfqSet m d => execMfqSet m d s
  | .tlbInvTerrace m => execTlbInvTerrace m s
  | .tlbInvVdev m => execTlbInvVdev m s
  | .iadd m d a b => execIadd m d a b s
  | .isub m d a b => execIsub m d a b s
  | .imul m d a b => execImul m d a b s
  | .imulh m d a b => execImulh m d a b s
  | .imad m d a b => execImad m d a b s
  | .idiv m d a b => execIdiv m d a b s
  | .irem m d a b => execIrem m d a b s
  | .imin m d a b => execImin m d a b s
  | .imax m d a b => execImax m d a b s
  | .iabs m d a => execIabs m d a s
  | .ineg m d a => execIneg m d a s
  | .and m d a b => execAnd m d a b s
  | .or m d a b => execOr m d a b s
  | .xor m d a b => execXor m d a b s
  | .not m d a => execNot m d a s
  | .shl m d a b => execShl m d a b s
  | .shr m d a b => execShr m d a b s
  | .sar m d a b => execSar m d a b s
  | .rot m d a b => execRot m d a b s
  | .popc m d a => execPopc m d a s
  | .clz m d a => execClz m d a s
  | .brev m d a => execBrev m d a s
  | .bfx m d a b => execBfx m d a b s
  | .bfi m d a b => execBfi m d a b s
  | .sel m d a b => execSel m d a b s
  | .isetp m c p a b => execIsetp m c p a b s
  | .iaddi m d i => execIaddi m d i s
  | .andi m d i => execAndi m d i s
  | .movi m d i => execMovi m d i s
  | .mov m d a => execMov m d a s
  | .cvt m d a => execCvt m d a s
  | .pand m d a b => execPand m d a b s
  | .por m d a b => execPor m d a b s
  | .pnot m d a => execPnot m d a s
  | .fadd m d a b => execFadd m d a b s
  | .fsub m d a b => execFsub m d a b s
  | .fmul m d a b => execFmul m d a b s
  | .ffma m d a b => execFfma m d a b s
  | .ffms m d a b => execFfms m d a b s
  | .fnma m d a b => execFnma m d a b s
  | .fmin m d a b => execFmin m d a b s
  | .fmax m d a b => execFmax m d a b s
  | .fabs m d a => execFabs m d a s
  | .fneg m d a => execFneg m d a s
  | .fsetp m c p a b => execFsetp m c p a b s
  | .frcp m d a => execFrcp m d a s
  | .frsq m d a => execFrsq m d a s
  | .fsqrt m d a => execFsqrt m d a s
  | .fexp2 m d a => execFexp2 m d a s
  | .flog2 m d a => execFlog2 m d a s
  | .fdot2 m d a b => execFdot2 m d a b s
  | .fscale m d a b => execFscale m d a b s
  | .fclass m d a => execFclass m d a s
  | .frnd m d a => execFrnd m d a s
  | .aset m d a b => execAset m d a b s
  | .aadd m d a b => execAadd m d a b s
  | .astr m d a b => execAstr m d a b s
  | .amul m d a b => execAmul m d a b s
  | .aexp m d a b => execAexp m d a b s
  | .aget m d a => execAget m d a s
  | .addr m d a b => execAddr m d a b s
  | .shfl m d a b => execShfl m d a b s
  | .shflx m d a b => execShflx m d a b s
  | .bcast m d a b => execBcast m d a b s
  | .voteAny m d a => execVoteAny m d a s
  | .voteAll m d a => execVoteAll m d a s
  | .voteBal m d a => execVoteBal m d a s
  | .redc m d a => execRedc m d a s
  | .scan m d a => execScan m d a s
  | .barArr m c n => execBarArr m c n s
  | .barWait m c n => execBarWait m c n s
  | .barPhase m => execBarPhase m s
  | .grow m k => execGrow m k s
  | .growTry m d k => execGrowTry m d k s
  | .shrink m k => execShrink m k s
  | .graft m g => execGraft m g s
  | .spawn m a => execSpawn m a s
  | .parcelWait m a => execParcelWait m a s
  | .ld m d a b => execLd m d a b s
  | .st m d a b => execSt m d a b s
  | .ldBlk m d a b => execLdBlk m d a b s
  | .stBlk m d a b => execStBlk m d a b s
  | .ldAcq m d a b => execLdAcq m d a b s
  | .stRel m d a b => execStRel m d a b s
  | .stSig m d a b => execStSig m d a b s
  | .fenceAcquire m y c => execFenceAcquire m y c s
  | .fenceRelease m y c => execFenceRelease m y c s
  | .fenceFull m y c => execFenceFull m y c s
  | .atomAdd m d a b => execAtomAdd m d a b s
  | .atomMin m d a b => execAtomMin m d a b s
  | .atomMax m d a b => execAtomMax m d a b s
  | .atomAnd m d a b => execAtomAnd m d a b s
  | .atomOr m d a b => execAtomOr m d a b s
  | .atomXor m d a b => execAtomXor m d a b s
  | .atomXchg m d a b => execAtomXchg m d a b s
  | .atomCas m d a b => execAtomCas m d a b s
  | .red m d a b => execRed m d a b s
  | .waitAddr m d a b => execWaitAddr m d a b s
  | .ringPut m d a => execRingPut m d a s
  | .ringAcq m d a b => execRingAcq m d a b s
  | .ringRel m d a => execRingRel m d a s
  | .bankRole m d a b => execBankRole m d a b s
  | .ldNc m d a b => execLdNc m d a b s
  | .inval m a b => execInval m a b s
  | .cp4 m d a b => execCp4 m d a b s
  | .cp8 m d a b => execCp8 m d a b s
  | .cp16 m d a b => execCp16 m d a b s
  | .cpSeal m => execCpSeal m s
  | .cpWaitb m n => execCpWaitb m n s
  | .tagWanyImm m i => execTagWanyImm m i s
  | .tagWanyReg m d => execTagWanyReg m d s
  | .tagWallImm m i => execTagWallImm m i s
  | .tagWallReg m d => execTagWallReg m d s
  | .tagFfr m d a => execTagFfr m d a s
  | .tagClrImm m i => execTagClrImm m i s
  | .tagClrReg m d => execTagClrReg m d s
  | .mcast m d a b => execMcast m d a b s
  | .pull m d a b => execPull m d a b s
  | .gather m d a b => execGather m d a b s
  | .decant m d a => execDecant m d a s
  | .ttEnq m d a b => execTtEnq m d a b s
  | .ttWait m d a b => execTtWait m d a b s
  | .tidSet m a b => execTidSet m a b s
  | .tidClr m b => execTidClr m b s
  | .saccCfg m a => execSaccCfg m a s
  | .saccRd m d a => execSaccRd m d a s
  | .ttCancel m d a b => execTtCancel m d a b s
  | _ => .next s

/-- R42: the OP values of the F3 memory forms whose address takes an offset (R51): ADDR, LD to ST.SIG, the
atomics, RED, WAIT.ADDR, RING.PUT to RING.REL, LD.NC and INVAL, and the three TT forms. -/
def takesOffset (op : Nat) : Bool :=
  op == 0x76 || (0xA0 ≤ op && op ≤ 0xA6) || (0xA8 ≤ op && op ≤ 0xB4) || op == 0xB6 || op == 0xB7
    || op == 0xD0 || op == 0xD1 || op == 0xD6

/-- R42, R51: the OP values of the FI format. -/
def isFI (op : Nat) : Bool :=
  op == 0x01 || op == 0x0A || (0x0C ≤ op && op ≤ 0x15) || (0x3A ≤ op && op ≤ 0x3C)
    || (0x90 ≤ op && op ≤ 0x96) || op == 0xA7 || op == 0xC4 || isTagForm op
where
  /-- TAG.WANY, TAG.WALL and TAG.CLR. -/
  isTagForm (op : Nat) : Bool := op == 0xC5 || op == 0xC6 || op == 0xC8

/-- R42: a word takes an immx word before it; a TAG form only with its immediate. -/
def takesImm (w : Word) : Bool :=
  takesOffset (opOf w) || (isFI (opOf w) && !(isFI.isTagForm (opOf w) && w.extractLsb' 14 7 != 127#7))

/-- R24, R40: a word executes with the payload of the immx word before it. -/
def execImmx (x : BitVec 24) (w : Word) (s : State) : Out :=
  match decodeWord w with
  | .error e => .next (s.raise (decodeCause e))
  | .ok i =>
    if takesImm w then runWord i { s with iss := { s.iss with ext := some x } }
    else .next (s.raise .illegalEncoding)

/-- R22: the word that an index of a core's dictionary holds; entries beyond those loaded are 0. -/
def Core.dictEntry (k : Core) (name : Nat × Nat) (i : Nat) : Word :=
  if k.dict0.name = some name then getI 0 k.dict0.entries i
  else if k.dict1.name = some name then getI 0 k.dict1.entries i
  else 0

/-- R21: a word with S and T replaced by the code's. -/
def withMarks (w : Word) (a b : Bool) : Word :=
  (w.extractLsb' 24 8) ++ BitVec.ofBool a ++ BitVec.ofBool b ++ (w.extractLsb' 0 22)

/-- R21 to R23: a dictionary code executes the entry's word with its own S and T. Without a dictionary,
index 1023 is NOP and any other index traps. -/
def execDict (s_ t_ : Bool) (i : BitVec 10) (s : State) : Out :=
  match s.dictOf (s.wgOf s.cur) with
  | none =>
    if i = 1023#10 then execNop ⟨s_, t_, false⟩ s else .next (s.raise .illegalEncoding)
  | some name =>
    match decodeWord (withMarks ((s.core s.cur.core).dictEntry name i.toNat) s_ t_) with
    | .error e => .next (s.raise (decodeCause e))
    | .ok j => runWord j s

end Sys2Proof.Machine
end

