-- ==== Sys2Proof/Machine/Schedule.lean ====
section
/-! DEFINITION. What happens next: the agenda, the issue of the present cane, and, where the agenda is
empty, the default order of issue and of the device's own events. -/

namespace Sys2Proof.Machine

/-! ## The start of a step -/

/-- R150: a cane that a step finds ready after a wait dates its readiness, and its age begins again. -/
def Cane.stampReady (cycle : Nat) (c : Cane) : Cane :=
  if c.wait = .none then
    if c.parked then { c with parked := false, readyAt := cycle, aged := false } else c
  else { c with parked := true }

/-- R130: the reference timer moves on, by a free number of µs. -/
def State.tick (s : State) : State :=
  s.passTime (Config.elapsed s.freeCount)

/-- R359: while a cane of a workgroup is debug-parked, its bound is paused: a request's deadline moves by the time of
the pause. -/
def State.pauseWg (s : State) (w : Workgroup) : Workgroup :=
  match w.pause, s.debugHeld w.id with
  | none, true => { w with pause := some (s.rtime, s.cycleOf w.core) }
  | some (t, _), false =>
    { w with pause := none, request := w.request.map fun r => { r with deadline := r.deadline + (s.rtime - t) } }
  | _, _ => w

/-- R234, R359: the timeout of a WAIT.ADDR moves by the cycles of the pause that has ended. -/
def State.pauseCane (s : State) (c : Cane) : Cane :=
  match c.wait, (s.wgOf c).pause with
  | .waitAddr p (some dl), some (_, k) =>
    if s.debugHeld c.wg then c else { c with wait := .waitAddr p (some (dl + (s.cycleOf c.core - k))) }
  | _, _ => c

/-- R359: pauses begin and end. -/
def State.pauses (s : State) : State :=
  { s.mapCanes s.pauseCane with workgroups := s.workgroups.map s.pauseWg }

/-- R377: one beat of each clock-crossing FIFO crosses in each direction. -/
def Cluster.crossed (c : Cluster) : Cluster := { c with outbound := c.outbound - 1, inbound := c.inbound - 1 }

/-- R339: work of the terrace that a cluster is of, lent or not, is on it. -/
def State.ownWorkOn (s : State) (k : Nat) : Bool :=
  let c := s.cluster k
  let mine (t : Nat) : Bool := some t == (c.lender <|> c.owner)
  (s.workgroups.any fun w => clusterOfCore w.core == k && mine w.terrace)
    || s.tasks.any fun t => t.status == .running && t.isMatmul && t.cluster == k && mine t.terrace

/-- R339, R377: what a cluster does while a step's time passes. -/
def State.passCluster (s : State) (k : Nat) (c : Cluster) : Cluster :=
  if s.ownWorkOn k then { c.crossed with busyAt := s.rtime } else c.crossed

/-- R150, R377: a cane that waits for room in its cluster's outbound FIFO goes on when there is some, and becomes ready
then. -/
def State.wakeFifo (s : State) (c : Cane) : Cane :=
  match c.wait with
  | .fifo => if s.outboundRoom c.core 1 then { c with wait := .none, parked := true } else c
  | _ => c

/-- R204, R338, R339, R377: what the memory system does while a step's time passes: each FIFO moves a beat, each channel
serves a request, clusters date their work, and a slice with too many lines gives some up (log entries 27, 71). -/
def State.flow (s : State) : State :=
  let s : State := { s with clusters := s.clusters.zipIdx.map fun x => s.passCluster x.2 x.1, channels := s.channels.map Channel.serve,
                            dies := s.dies.map fun d => d.trim s.freeCount }
  s.trimCellar.mapCanes s.wakeFifo

/-- R150, R361, R363, R372: a step begins: chunks that are complete are written, time has passed, the trace units' cycle ends, a revocation ends the debug parks
that it meets, and canes that have become ready are dated. -/
def State.settle (s : State) : State :=
  let s := ((List.range 16).foldl State.writeRuns s).releaseParked.settlePosts.pauses.tick.settleTrace.flow
  s.mapCanes fun c => c.stampReady (s.cycleOf c.core)

/-! ## The issue of an instruction -/

/-- The present cane owns a pipe and may issue. -/
def State.canIssue (s : State) : Bool :=
  s.cur.live && s.cur.wait == .none && s.cur.pipe.isSome
    && !(s.cluster (clusterOfCore s.cur.core)).issuePaused

/-- The OP that an instruction executes: its own, its pair's or its dictionary entry's. -/
def State.opIssued (s : State) (i : Instr) : Nat :=
  match i with
  | .immx _ w => opOf w
  | .dict _ _ n =>
    match s.dictOf (s.wgOf s.cur) with
    | some name => opOf ((s.core s.cur.core).dictEntry name n.toNat)
    | none => 0
  | i => opOf ((encodeWord i).getD 0)

/-- R340: a steward of a quiescing terrace retires before it issues WAIT.ADDR, PARCEL.WAIT or an instruction
with T = 1. -/
def State.stewardLeaves (s : State) (i : Instr) : Bool :=
  let w := s.wgOf s.cur
  w.isSteward && (s.terrace w.terrace).part.state == .quiescing
    && (s.iss.stop || s.opIssued i == 0xB1 || s.opIssued i == 0x98)

/-- R363, R364: a trace unit takes note of an instruction that issues, once: its conditions of type 3, and a STOP
record when T = 1. -/
def State.noteIssue (s : State) : State :=
  let c := s.cur
  let d := dieOfCore c.core
  if c.noted || (s.die d).trace.owner.isNone || !s.iss.stop then s
  else
    let w := s.wgOf c
    let name := (s.image w.terrace).codeName s.iss.addr.toNat true
    let s := s.updCur fun c => { c with noted := true }
    (s.traceCond d fun g x => bitsAt x 0 4 == 3 && g.region == name.region && g.ordinal == name.ordinal).traceEvent
      w.terrace d c.core c.slot 1 0 name name.offset

/-- What happens at an instruction that has been fetched: at a stop point a breakpoint comes before vectoring
(R357), and vectoring before the instruction (R315). -/
def State.issue (s : State) (i : Instr) : Option Instr × State :=
  if s.stewardLeaves i then (none, s.retireCane s.cur.id)
  else if s.breakpointDue then (some (.breakpointHit s.cur.id), s)
  else if s.vectorDue then (some (.exitVector s.cur.id), s)
  else (some i, s.noteIssue)

/-- The issue of the present cane's next instruction, or what comes before it: HALT of a diverged replay
(R370), a pipe given up to an older cane (R151), reconvergence (R118), a forced switch (R28). -/
def State.issueCur (s : State) : Option Instr × State :=
  let c := s.cur
  if !s.canIssue then (none, s)
  else if c.halting && c.atBoundary then
    (none, s.updCur fun c => { c with wait := .debug, pipe := none, halting := false })
  else if c.stage == 0 && s.mustYield then (none, s.updCur fun c => { c with pipe := none })
  else if c.reconvergeOnce.isSome then (some (.reconverge c.id), s)
  else if 128 ≤ c.sinceSwitch then (some (.forcedSwitch c.id), s)
  else match s.fetch with
    | (some i, t) => t.issue i
    | (none, t) => (none, t)

/-! ## The default order

Where the outside world and the part have decided nothing, the device's own events happen as soon as they
may, in the order of this list (log entry 4). -/

/-- Events of memory, translation, code and results. -/
def State.memoryEvents (s : State) : List Instr :=
  (s.flights.flatMap fun f => .homeWriteApply f.id :: .ownWriteAck f.id
    :: ([0, 1, 2, 3] : List Nat).map fun d => .remoteWriteApply f.id d)
  ++ (if s.flights.any fun f => isHost f.addr then (List.range 16).filterMap fun v =>
        if (s.hostAcks v).isEmpty then none else some (.hostWriteAck v) else [])
  ++ (s.dies.flatMap fun d => d.walks.map fun w => .pageWalkComplete w.id)
  ++ (s.transEntries.map fun e => .translationResponse e.queue e.id)
  ++ (s.heldReds.map fun h => .replayGateGrant h.terrace h.id)

/-- Events that a cane waits for. -/
def State.caneEvents (s : State) (c : Cane) : List Instr :=
  match c.wait with
  | .none => if c.pipe.isNone then [.agePriority c.id] else []
  | .results => [.resultReturn c.id]
  | .fetch => [.codeFetchReturn c.id]
  | .tlbInv => [.tlbInvRetire c.id]
  | .sup => [.supFunctionComplete c.id]
  | .grow _ => [.growGrant c.id]
  | .gate _ _ => [.replayGateGrant (s.wgOf c).terrace c.id]
  | _ => if c.outstanding = 0 then [] else [.resultReturn c.id]

/-- Events of barriers, phases, grafts, exits and parcels. -/
def State.groupEvents (s : State) : List Instr :=
  (s.pendingArrivals.map fun a => .barrierArrival a.id)
  ++ (s.workgroups.flatMap fun w => [.exitDecision w.id, .phaseEnd w.id, .graftExecute w.id])
  ++ (s.parcels.flatMap fun p => [.routeCheck p.id, .parcelComplete p.id])

/-- Events of the copy engines. -/
def State.engineEvents (s : State) : List Instr :=
  (s.asyncOps.flatMap fun o => match o.kind with
    | .gather => (lanes.map fun l => .gatherPerform o.id l) ++ [.asyncOperationComplete o.id]
    | .mcast => .asyncOperationPerform o.id :: o.targets.map (fun w => .mcastDelivery o.id w)
        ++ [.asyncOperationComplete o.id]
    | _ => [.asyncOperationPerform o.id, .asyncOperationComplete o.id])
  ++ (s.decantOps.flatMap fun o => .decantFlip o.id :: ([0, 1, 2, 3] : List Nat).map fun d => .decantFlipApply o.id d)

/-- Events of the matrix engines, the presses and the collective engines. -/
def State.tileEvents (s : State) : List Instr :=
  (s.partials.map fun p => .pressApplyPartial p.id)
  ++ (s.tasks.flatMap fun t => [.taskIssue t.id, .loadB t.id, .align t.id, .serial t.id, .reduce t.id, .scale t.id,
      .drain t.id, .fetchA t.id, .collectiveStart t.id, .taskRetire t.id])

/-- Events of terraces and clusters. -/
def State.tenantEvents (s : State) : List Instr :=
  ((List.range s.terraces.length).filter fun t => decide (t < 16)).flatMap (fun t =>
    [.terraceQuiesced t, .stewardReplace t, .vdevTurnStart t, .attestReportDone t]
      ++ if s.quotaDue t then [.quotaReached t] else [])
  ++ (List.range s.clusters.length).flatMap fun k =>
    let c := s.cluster k
    (if c.stage = .idle then [] else [.voltageSettled k, .frequencySwitchEnd k])
      ++ (if c.revoking then [.headlandReturn k] else [])

/-- Events of the trace units. -/
def State.traceEvents (s : State) : List Instr :=
  (List.range s.dies.length).flatMap fun d =>
    if (s.die d).trace.owner.isSome then [.traceCycleReached d, .traceTimeRecord d] else []

/-- R160: the distributors that can place an item. -/
def State.offerEvents (s : State) : List Instr :=
  (List.range s.dies.length).filterMap fun d =>
    if (s.offer d).isSome then some (.distributorOffer d) else none

/-- R150: the pipes' choices, the cores taking turns: those after the present cane's core come first. -/
def State.pipeEvents (s : State) : List Instr :=
  let cs := s.canes.filter fun c => c.wait == .none && !(s.cluster (clusterOfCore c.core)).issuePaused
  ((cs.filter fun c => decide (s.cur.core < c.core)) ++ (cs.filter fun c => decide (c.core < s.cur.core))
    ++ cs.filter fun c => c.core == s.cur.core).map fun c => .pipeSelect c.id

/-- R344: a turn ends: its quantum is over, or its device does not use it and another waits. -/
def State.turnOver (s : State) (t : Nat) : Bool :=
  let u := s.terrace t
  u.part.quantum != 0 && if s.vdevBusy t u.turn then decide (u.turnStart + u.part.quantum ≤ s.rtime)
    else (List.range u.part.vdevs).any fun v => s.vdevBusy t v

/-- R343, R345: a terrace's usage period is over. -/
def State.periodOver (s : State) (t : Nat) : Bool :=
  let tt := s.terrace t
  tt.part.state != .off && tt.usage.period != 0 && decide (tt.usage.start + tt.usage.period ≤ s.rtime)

/-- R313, R314, R343: the bounds and usage periods whose time has come. -/
def State.dueBounds (s : State) : List Instr :=
  ((List.range 16).filterMap fun t => if s.periodOver t then some (.usagePeriodEnd t) else none)
  ++ (s.workgroups.filter fun w => w.request.any fun r => decide (r.deadline ≤ s.rtime)).flatMap fun w =>
    [.drainEscalation w.id, .exitBoundExpiry w.id]

/-- What happens when the canes and engines can do nothing more: time passes to the next bound. -/
def State.lateEvents (s : State) : List Instr :=
  s.dueBounds ++ ((List.range 16).filterMap fun t => if s.turnOver t then some (.vdevQuantumEnd t) else none)
  ++ ((s.canes.filter fun c => c.growAsk.isSome).map fun c => .growVictimSelect c.core)
  ++ (((List.range s.clusters.length).filter fun k => (s.cluster k).owner.isSome).flatMap fun k =>
      [.headlandRevokeStart k, .headlandLend k])
  ++ (s.canes.map fun c => .waitAddrTimeout c.id)
  ++ (s.workgroups.flatMap fun w => [.drainEscalation w.id, .exitBoundExpiry w.id])
  ++ (List.range s.clusters.length).filterMap fun k => if s.windowOver k then some (.stallRatioSample k 0#32) else none

/-- The events that may stand next in the default order. -/
def State.candidates (s : State) : List Instr :=
  s.memoryEvents ++ s.canes.flatMap s.caneEvents ++ s.groupEvents ++ s.engineEvents ++ s.tileEvents
    ++ s.tenantEvents ++ s.traceEvents ++ s.offerEvents ++ s.pipeEvents ++ s.lateEvents

/-- An event may happen: it changes something. -/
def State.enabled (run : Instr → State → Out) (s : State) (e : Instr) : Bool :=
  match run e s with
  | .next t => decide (t ≠ s)
  | _ => false

/-- The instruction or event that happens in a step, and the state it happens in: the step has begun, and what the agenda
named is off it. -/
def State.choose (run : Instr → State → Out) (s : State) : Option Instr × State :=
  let u : State := { s.settle with agenda := s.agenda.tail }
  match s.agenda with
  | some e :: _ => if (encode e).isSome then (none, u) else (some e, u)
  | none :: _ => u.issueCur
  | [] => if u.canIssue then u.issueCur else (u.candidates.find? (u.enabled run), u)

/-- Where the fetch finds its next instruction: the parcels of a table row stored at the PC of the
present cane, which is made a management cane that owns a pipe, with their blocks in the instruction
cache. It stands for the load of a program by FIRMWARE_IMAGE_LOAD (log entry 1). -/
def State.placeWord (s : State) (nbits w : Nat) : State :=
  let pc := s.cur.pc.toNat % 2 ^ 36
  let bytes := bytesOfParcels (tableParcels nbits w)
  let s := { s with mem := Memory.writeBytes s.mem (2 * pc) bytes, agenda := [] }
  let s := s.setCore s.cur.core { s.core s.cur.core with icache := [] }
  let s := s.updCur fun c => { c with live := true, wait := .none, pipe := some 0, pc := BitVec.ofNat 64 pc }
  s.loadCode s.cur

end Sys2Proof.Machine
end

