-- ==== Sys2Proof/Machine/Dispatch.lean ====
section
/-! DEFINITION. One arm per row of spec/opcode_table.json: the meaning it calls. -/

namespace Sys2Proof.Machine

/-- The effect of one instruction or device event. -/
def exec (i : Instr) (s : State) : Host.Outcome State Fault Refusal :=
  match i with
  | .nop m => Sys2Proof.Machine.execNop m s
  | .mode m imm => Sys2Proof.Machine.execMode m imm s
  | .moder m a => Sys2Proof.Machine.execModer m a s
  | .immx x w => Sys2Proof.Machine.execImmx x w s
  | .dict a b imm => Sys2Proof.Machine.execDict a b imm s
  | .bra m j => Sys2Proof.Machine.execBra m j s
  | .brau m j => Sys2Proof.Machine.execBrau m j s
  | .join m j => Sys2Proof.Machine.execJoin m j s
  | .call m j => Sys2Proof.Machine.execCall m j s
  | .ret m => Sys2Proof.Machine.execRet m s
  | .jmpr m a => Sys2Proof.Machine.execJmpr m a s
  | .trap m imm => Sys2Proof.Machine.execTrap m imm s
  | .eret m => Sys2Proof.Machine.execEret m s
  | .exit0 m => Sys2Proof.Machine.execExit0 m s
  | .exit1 m => Sys2Proof.Machine.execExit1 m s
  | .exit2 m => Sys2Proof.Machine.execExit2 m s
  | .bkpt m imm => Sys2Proof.Machine.execBkpt m imm s
  | .mark m imm => Sys2Proof.Machine.execMark m imm s
  | .sysRd m d imm => Sys2Proof.Machine.execSysRd m d imm s
  | .sysWr m d imm => Sys2Proof.Machine.execSysWr m d imm s
  | .perfRd m d imm => Sys2Proof.Machine.execPerfRd m d imm s
  | .trig m e => Sys2Proof.Machine.execTrig m e s
  | .pwrReq m d p => Sys2Proof.Machine.execPwrReq m d p s
  | .faultResume m d => Sys2Proof.Machine.execFaultResume m d s
  | .faultRetire m d => Sys2Proof.Machine.execFaultRetire m d s
  | .fqSet m d => Sys2Proof.Machine.execFqSet m d s
  | .s1Root m d => Sys2Proof.Machine.execS1Root m d s
  | .vdSelect m d => Sys2Proof.Machine.execVdSelect m d s
  | .s1Page m d => Sys2Proof.Machine.execS1Page m d s
  | .decantSet m d => Sys2Proof.Machine.execDecantSet m d s
  | .decantClr m d => Sys2Proof.Machine.execDecantClr m d s
  | .urgent m d => Sys2Proof.Machine.execUrgent m d s
  | .supDrain m d => Sys2Proof.Machine.execSupDrain m d s
  | .terraceGet m d => Sys2Proof.Machine.execTerraceGet m d s
  | .terraceSet m d => Sys2Proof.Machine.execTerraceSet m d s
  | .terraceCommit m d => Sys2Proof.Machine.execTerraceCommit m d s
  | .terraceQuiesce m d => Sys2Proof.Machine.execTerraceQuiesce m d s
  | .terraceOff m d => Sys2Proof.Machine.execTerraceOff m d s
  | .keyLoad m d => Sys2Proof.Machine.execKeyLoad m d s
  | .terraceScrub m d => Sys2Proof.Machine.execTerraceScrub m d s
  | .s2Inv m d => Sys2Proof.Machine.execS2Inv m d s
  | .s2Page m d => Sys2Proof.Machine.execS2Page m d s
  | .headlandRevoke m d => Sys2Proof.Machine.execHeadlandRevoke m d s
  | .terraceSave m d => Sys2Proof.Machine.execTerraceSave m d s
  | .terraceRestore m d => Sys2Proof.Machine.execTerraceRestore m d s
  | .stewardSet m d => Sys2Proof.Machine.execStewardSet m d s
  | .mfqSet m d => Sys2Proof.Machine.execMfqSet m d s
  | .tlbInvTerrace m => Sys2Proof.Machine.execTlbInvTerrace m s
  | .tlbInvVdev m => Sys2Proof.Machine.execTlbInvVdev m s
  | .iadd m d a b => Sys2Proof.Machine.execIadd m d a b s
  | .isub m d a b => Sys2Proof.Machine.execIsub m d a b s
  | .imul m d a b => Sys2Proof.Machine.execImul m d a b s
  | .imulh m d a b => Sys2Proof.Machine.execImulh m d a b s
  | .imad m d a b => Sys2Proof.Machine.execImad m d a b s
  | .idiv m d a b => Sys2Proof.Machine.execIdiv m d a b s
  | .irem m d a b => Sys2Proof.Machine.execIrem m d a b s
  | .imin m d a b => Sys2Proof.Machine.execImin m d a b s
  | .imax m d a b => Sys2Proof.Machine.execImax m d a b s
  | .iabs m d a => Sys2Proof.Machine.execIabs m d a s
  | .ineg m d a => Sys2Proof.Machine.execIneg m d a s
  | .and m d a b => Sys2Proof.Machine.execAnd m d a b s
  | .or m d a b => Sys2Proof.Machine.execOr m d a b s
  | .xor m d a b => Sys2Proof.Machine.execXor m d a b s
  | .not m d a => Sys2Proof.Machine.execNot m d a s
  | .shl m d a b => Sys2Proof.Machine.execShl m d a b s
  | .shr m d a b => Sys2Proof.Machine.execShr m d a b s
  | .sar m d a b => Sys2Proof.Machine.execSar m d a b s
  | .rot m d a b => Sys2Proof.Machine.execRot m d a b s
  | .popc m d a => Sys2Proof.Machine.execPopc m d a s
  | .clz m d a => Sys2Proof.Machine.execClz m d a s
  | .brev m d a => Sys2Proof.Machine.execBrev m d a s
  | .bfx m d a b => Sys2Proof.Machine.execBfx m d a b s
  | .bfi m d a b => Sys2Proof.Machine.execBfi m d a b s
  | .sel m d a b => Sys2Proof.Machine.execSel m d a b s
  | .isetp m c p a b => Sys2Proof.Machine.execIsetp m c p a b s
  | .iaddi m d imm => Sys2Proof.Machine.execIaddi m d imm s
  | .andi m d imm => Sys2Proof.Machine.execAndi m d imm s
  | .movi m d imm => Sys2Proof.Machine.execMovi m d imm s
  | .mov m d a => Sys2Proof.Machine.execMov m d a s
  | .cvt m d a => Sys2Proof.Machine.execCvt m d a s
  | .pand m d a b => Sys2Proof.Machine.execPand m d a b s
  | .por m d a b => Sys2Proof.Machine.execPor m d a b s
  | .pnot m d a => Sys2Proof.Machine.execPnot m d a s
  | .fadd m d a b => Sys2Proof.Machine.execFadd m d a b s
  | .fsub m d a b => Sys2Proof.Machine.execFsub m d a b s
  | .fmul m d a b => Sys2Proof.Machine.execFmul m d a b s
  | .ffma m d a b => Sys2Proof.Machine.execFfma m d a b s
  | .ffms m d a b => Sys2Proof.Machine.execFfms m d a b s
  | .fnma m d a b => Sys2Proof.Machine.execFnma m d a b s
  | .fmin m d a b => Sys2Proof.Machine.execFmin m d a b s
  | .fmax m d a b => Sys2Proof.Machine.execFmax m d a b s
  | .fabs m d a => Sys2Proof.Machine.execFabs m d a s
  | .fneg m d a => Sys2Proof.Machine.execFneg m d a s
  | .fsetp m c p a b => Sys2Proof.Machine.execFsetp m c p a b s
  | .frcp m d a => Sys2Proof.Machine.execFrcp m d a s
  | .frsq m d a => Sys2Proof.Machine.execFrsq m d a s
  | .fsqrt m d a => Sys2Proof.Machine.execFsqrt m d a s
  | .fexp2 m d a => Sys2Proof.Machine.execFexp2 m d a s
  | .flog2 m d a => Sys2Proof.Machine.execFlog2 m d a s
  | .fdot2 m d a b => Sys2Proof.Machine.execFdot2 m d a b s
  | .fscale m d a b => Sys2Proof.Machine.execFscale m d a b s
  | .fclass m d a => Sys2Proof.Machine.execFclass m d a s
  | .frnd m d a => Sys2Proof.Machine.execFrnd m d a s
  | .aset m d a b => Sys2Proof.Machine.execAset m d a b s
  | .aadd m d a b => Sys2Proof.Machine.execAadd m d a b s
  | .astr m d a b => Sys2Proof.Machine.execAstr m d a b s
  | .amul m d a b => Sys2Proof.Machine.execAmul m d a b s
  | .aexp m d a b => Sys2Proof.Machine.execAexp m d a b s
  | .aget m d a => Sys2Proof.Machine.execAget m d a s
  | .addr m d a b => Sys2Proof.Machine.execAddr m d a b s
  | .shfl m d a b => Sys2Proof.Machine.execShfl m d a b s
  | .shflx m d a b => Sys2Proof.Machine.execShflx m d a b s
  | .bcast m d a b => Sys2Proof.Machine.execBcast m d a b s
  | .voteAny m d a => Sys2Proof.Machine.execVoteAny m d a s
  | .voteAll m d a => Sys2Proof.Machine.execVoteAll m d a s
  | .voteBal m d a => Sys2Proof.Machine.execVoteBal m d a s
  | .redc m d a => Sys2Proof.Machine.execRedc m d a s
  | .scan m d a => Sys2Proof.Machine.execScan m d a s
  | .barArr m c n => Sys2Proof.Machine.execBarArr m c n s
  | .barWait m c n => Sys2Proof.Machine.execBarWait m c n s
  | .barrierArrival n => Sys2Proof.Machine.execBarrierArrival n s
  | .barPhase m => Sys2Proof.Machine.execBarPhase m s
  | .phaseEnd wg => Sys2Proof.Machine.execPhaseEnd wg s
  | .grow m k => Sys2Proof.Machine.execGrow m k s
  | .growTry m d k => Sys2Proof.Machine.execGrowTry m d k s
  | .shrink m k => Sys2Proof.Machine.execShrink m k s
  | .growGrant wg => Sys2Proof.Machine.execGrowGrant wg s
  | .growVictimSelect core => Sys2Proof.Machine.execGrowVictimSelect core s
  | .graft m g => Sys2Proof.Machine.execGraft m g s
  | .graftExecute wg => Sys2Proof.Machine.execGraftExecute wg s
  | .spawn m a => Sys2Proof.Machine.execSpawn m a s
  | .routeCheck parcel => Sys2Proof.Machine.execRouteCheck parcel s
  | .parcelWait m a => Sys2Proof.Machine.execParcelWait m a s
  | .parcelComplete parcel => Sys2Proof.Machine.execParcelComplete parcel s
  | .ld m d a b => Sys2Proof.Machine.execLd m d a b s
  | .st m d a b => Sys2Proof.Machine.execSt m d a b s
  | .ldBlk m d a b => Sys2Proof.Machine.execLdBlk m d a b s
  | .stBlk m d a b => Sys2Proof.Machine.execStBlk m d a b s
  | .ldAcq m d a b => Sys2Proof.Machine.execLdAcq m d a b s
  | .stRel m d a b => Sys2Proof.Machine.execStRel m d a b s
  | .stSig m d a b => Sys2Proof.Machine.execStSig m d a b s
  | .fenceAcquire m y c => Sys2Proof.Machine.execFenceAcquire m y c s
  | .fenceRelease m y c => Sys2Proof.Machine.execFenceRelease m y c s
  | .fenceFull m y c => Sys2Proof.Machine.execFenceFull m y c s
  | .atomAdd m d a b => Sys2Proof.Machine.execAtomAdd m d a b s
  | .atomMin m d a b => Sys2Proof.Machine.execAtomMin m d a b s
  | .atomMax m d a b => Sys2Proof.Machine.execAtomMax m d a b s
  | .atomAnd m d a b => Sys2Proof.Machine.execAtomAnd m d a b s
  | .atomOr m d a b => Sys2Proof.Machine.execAtomOr m d a b s
  | .atomXor m d a b => Sys2Proof.Machine.execAtomXor m d a b s
  | .atomXchg m d a b => Sys2Proof.Machine.execAtomXchg m d a b s
  | .atomCas m d a b => Sys2Proof.Machine.execAtomCas m d a b s
  | .red m d a b => Sys2Proof.Machine.execRed m d a b s
  | .waitAddr m d a b => Sys2Proof.Machine.execWaitAddr m d a b s
  | .waitAddrTimeout cane => Sys2Proof.Machine.execWaitAddrTimeout cane s
  | .ringPut m d a => Sys2Proof.Machine.execRingPut m d a s
  | .ringAcq m d a b => Sys2Proof.Machine.execRingAcq m d a b s
  | .ringRel m d a => Sys2Proof.Machine.execRingRel m d a s
  | .bankRole m d a b => Sys2Proof.Machine.execBankRole m d a b s
  | .ldNc m d a b => Sys2Proof.Machine.execLdNc m d a b s
  | .inval m a b => Sys2Proof.Machine.execInval m a b s
  | .cp4 m d a b => Sys2Proof.Machine.execCp4 m d a b s
  | .cp8 m d a b => Sys2Proof.Machine.execCp8 m d a b s
  | .cp16 m d a b => Sys2Proof.Machine.execCp16 m d a b s
  | .cpSeal m => Sys2Proof.Machine.execCpSeal m s
  | .cpWaitb m n => Sys2Proof.Machine.execCpWaitb m n s
  | .tagWanyImm m imm => Sys2Proof.Machine.execTagWanyImm m imm s
  | .tagWanyReg m d => Sys2Proof.Machine.execTagWanyReg m d s
  | .tagWallImm m imm => Sys2Proof.Machine.execTagWallImm m imm s
  | .tagWallReg m d => Sys2Proof.Machine.execTagWallReg m d s
  | .tagFfr m d a => Sys2Proof.Machine.execTagFfr m d a s
  | .tagClrImm m imm => Sys2Proof.Machine.execTagClrImm m imm s
  | .tagClrReg m d => Sys2Proof.Machine.execTagClrReg m d s
  | .mcast m d a b => Sys2Proof.Machine.execMcast m d a b s
  | .pull m d a b => Sys2Proof.Machine.execPull m d a b s
  | .gather m d a b => Sys2Proof.Machine.execGather m d a b s
  | .decant m d a => Sys2Proof.Machine.execDecant m d a s
  | .decantFlip op => Sys2Proof.Machine.execDecantFlip op s
  | .decantFlipApply op die => Sys2Proof.Machine.execDecantFlipApply op die s
  | .asyncOperationPerform op => Sys2Proof.Machine.execAsyncOperationPerform op s
  | .gatherPerform op lane => Sys2Proof.Machine.execGatherPerform op lane s
  | .mcastDelivery op member => Sys2Proof.Machine.execMcastDelivery op member s
  | .asyncOperationComplete op => Sys2Proof.Machine.execAsyncOperationComplete op s
  | .ttEnq m d a b => Sys2Proof.Machine.execTtEnq m d a b s
  | .ttWait m d a b => Sys2Proof.Machine.execTtWait m d a b s
  | .tidSet m a b => Sys2Proof.Machine.execTidSet m a b s
  | .tidClr m b => Sys2Proof.Machine.execTidClr m b s
  | .saccCfg m a => Sys2Proof.Machine.execSaccCfg m a s
  | .saccRd m d a => Sys2Proof.Machine.execSaccRd m d a s
  | .ttCancel m d a b => Sys2Proof.Machine.execTtCancel m d a b s
  | .taskIssue task => Sys2Proof.Machine.execTaskIssue task s
  | .loadB task => Sys2Proof.Machine.execLoadB task s
  | .fetchA task => Sys2Proof.Machine.execFetchA task s
  | .align task => Sys2Proof.Machine.execAlign task s
  | .serial task => Sys2Proof.Machine.execSerial task s
  | .reduce task => Sys2Proof.Machine.execReduce task s
  | .scale task => Sys2Proof.Machine.execScale task s
  | .drain task => Sys2Proof.Machine.execDrain task s
  | .pressApplyPartial n => Sys2Proof.Machine.execPressApplyPartial n s
  | .collectiveStart task => Sys2Proof.Machine.execCollectiveStart task s
  | .taskRetire task => Sys2Proof.Machine.execTaskRetire task s
  | .resultReturn cane => Sys2Proof.Machine.execResultReturn cane s
  | .homeWriteApply n => Sys2Proof.Machine.execHomeWriteApply n s
  | .remoteWriteApply n die => Sys2Proof.Machine.execRemoteWriteApply n die s
  | .ownWriteAck n => Sys2Proof.Machine.execOwnWriteAck n s
  | .hostWriteAck vf => Sys2Proof.Machine.execHostWriteAck vf s
  | .pageWalkComplete walk => Sys2Proof.Machine.execPageWalkComplete walk s
  | .translationResponse terrace entry => Sys2Proof.Machine.execTranslationResponse terrace entry s
  | .pipeSelect cane => Sys2Proof.Machine.execPipeSelect cane s
  | .forcedSwitch cane => Sys2Proof.Machine.execForcedSwitch cane s
  | .agePriority cane => Sys2Proof.Machine.execAgePriority cane s
  | .reconverge cane => Sys2Proof.Machine.execReconverge cane s
  | .distributorOffer die => Sys2Proof.Machine.execDistributorOffer die s
  | .exitVector cane => Sys2Proof.Machine.execExitVector cane s
  | .exitDecision wg => Sys2Proof.Machine.execExitDecision wg s
  | .exitBoundExpiry wg => Sys2Proof.Machine.execExitBoundExpiry wg s
  | .drainEscalation wg => Sys2Proof.Machine.execDrainEscalation wg s
  | .breakpointHit cane => Sys2Proof.Machine.execBreakpointHit cane s
  | .dbgCtlWrite terrace value => Sys2Proof.Machine.execDbgCtlWrite terrace value s
  | .dbgEvpop terrace value => Sys2Proof.Machine.execDbgEvpop terrace value s
  | .dbgResume terrace value => Sys2Proof.Machine.execDbgResume terrace value s
  | .dbgStep terrace value => Sys2Proof.Machine.execDbgStep terrace value s
  | .trcCtlWrite terrace value => Sys2Proof.Machine.execTrcCtlWrite terrace value s
  | .replayCtlWrite terrace value => Sys2Proof.Machine.execReplayCtlWrite terrace value s
  | .replayHalt terrace => Sys2Proof.Machine.execReplayHalt terrace s
  | .replayFree terrace => Sys2Proof.Machine.execReplayFree terrace s
  | .replayGateGrant terrace gate => Sys2Proof.Machine.execReplayGateGrant terrace gate s
  | .registerWrite addr value => Sys2Proof.Machine.execRegisterWrite addr value s
  | .signalWindowWrite vf offset value => Sys2Proof.Machine.execSignalWindowWrite vf offset value s
  | .signalWindowRead vf offset => Sys2Proof.Machine.execSignalWindowRead vf offset s
  | .memoryWindowWrite vf offset data => Sys2Proof.Machine.execMemoryWindowWrite vf offset data s
  | .memoryWindowRead vf offset len => Sys2Proof.Machine.execMemoryWindowRead vf offset len s
  | .vfAttest vf value => Sys2Proof.Machine.execVfAttest vf value s
  | .attestReportDone vf => Sys2Proof.Machine.execAttestReportDone vf s
  | .vfFlr vf => Sys2Proof.Machine.execVfFlr vf s
  | .coldReset => Sys2Proof.Machine.execColdReset s
  | .warmReset => Sys2Proof.Machine.execWarmReset s
  | .firmwareImageLoad image => Sys2Proof.Machine.execFirmwareImageLoad image s
  | .linkFlitReplay link => Sys2Proof.Machine.execLinkFlitReplay link s
  | .linkDown link => Sys2Proof.Machine.execLinkDown link s
  | .linkRetrain link => Sys2Proof.Machine.execLinkRetrain link s
  | .terraceQuiesced terrace => Sys2Proof.Machine.execTerraceQuiesced terrace s
  | .stewardReplace terrace => Sys2Proof.Machine.execStewardReplace terrace s
  | .headlandLend cluster => Sys2Proof.Machine.execHeadlandLend cluster s
  | .headlandRevokeStart cluster => Sys2Proof.Machine.execHeadlandRevokeStart cluster s
  | .headlandReturn cluster => Sys2Proof.Machine.execHeadlandReturn cluster s
  | .usagePeriodEnd terrace => Sys2Proof.Machine.execUsagePeriodEnd terrace s
  | .quotaReached terrace => Sys2Proof.Machine.execQuotaReached terrace s
  | .vdevQuantumEnd terrace => Sys2Proof.Machine.execVdevQuantumEnd terrace s
  | .vdevTurnStart terrace => Sys2Proof.Machine.execVdevTurnStart terrace s
  | .energyUpdate cluster energy => Sys2Proof.Machine.execEnergyUpdate cluster energy s
  | .stallRatioSample cluster ratio => Sys2Proof.Machine.execStallRatioSample cluster ratio s
  | .voltageSettled cluster => Sys2Proof.Machine.execVoltageSettled cluster s
  | .frequencySwitchEnd cluster => Sys2Proof.Machine.execFrequencySwitchEnd cluster s
  | .hotspotOverLimit cluster hot => Sys2Proof.Machine.execHotspotOverLimit cluster hot s
  | .hotspotClear cluster hot => Sys2Proof.Machine.execHotspotClear cluster hot s
  | .hotspotCritical cluster hot => Sys2Proof.Machine.execHotspotCritical cluster hot s
  | .supFunctionComplete cane => Sys2Proof.Machine.execSupFunctionComplete cane s
  | .tlbInvRetire cane => Sys2Proof.Machine.execTlbInvRetire cane s
  | .codeFetchReturn cane => Sys2Proof.Machine.execCodeFetchReturn cane s
  | .memorySoftError kind n => Sys2Proof.Machine.execMemorySoftError kind n s
  | .traceCycleReached die => Sys2Proof.Machine.execTraceCycleReached die s
  | .traceTimeRecord die => Sys2Proof.Machine.execTraceTimeRecord die s
  | .firmwareFetchFailure => Sys2Proof.Machine.execFirmwareFetchFailure s

end Sys2Proof.Machine
end

