-- ==== Sys2Proof/Machine/Step.lean ====
section
/-! DEFINITION. One step of the package. -/

namespace Sys2Proof.Machine

/-- One step: the instruction or event that happens next, or nothing. -/
def step (s : State) : Host.Outcome State Fault Refusal :=
  match s.choose exec with
  | (some i, s') => exec i s'
  | (none, s') => .next s'

/-- The state with a table row's instruction placed where the next step fetches it. -/
def State.withFetchWord (s : State) (nbits w : Nat) : State := s.placeWord nbits w

end Sys2Proof.Machine
end

