-- ==== Sys2Proof/Safety.lean ====
section
/-! DEFINITION. What a safe run is, and the terms in which claims say what an instruction leaves unchanged. -/

namespace Sys2Proof.Machine

/-- The state after n steps, when none of them stops. -/
def runs : Nat → State → Option State
  | 0, s => some s
  | n + 1, s =>
    match step s with
    | .next t => runs n t
    | _ => none

/-- A run of n steps is safe when it stops at no fault and no refusal. -/
def SafeRun (n : Nat) (s : State) : Prop := (runs n s).isSome = true

/-! ## Frames -/

/-- A cane without its PC and without what the pipes and waits keep for it: what remains is its registers, its
stack, its masks, its accumulators of outstanding work and its trap and routine state. -/
def Cane.atRest (c : Cane) : Cane :=
  { c with pc := 0, wait := .none, pipe := none, stage := 0, stageArg := 0, claim := none, supArg := [], answer := none,
           parkLeaf := none, saccSeen := none, entered := 0, denied := [], readyAt := 0, aged := false, sinceSwitch := 0, passBreak := false, passBkpt := false,
           passWatch := false, noted := false, lastPc := 0, lastStop := false }

/-- Every byte of memory reads as before: at the home, at each die's L2, in each workgroup's scratch, in each core's
FIFO banks. -/
structure SameBytes (s t : State) : Prop where
  home : ∀ a, t.homeByte a = s.homeByte a
  copies : ∀ d a, t.dieByte d a = s.dieByte d a
  poison : t.poison = s.poison
  scratch : t.workgroups = s.workgroups
  fifo : ∀ i, (t.core i).fifo = (s.core i).fifo
  flights : t.flights = s.flights

/-- Only the issuing cane, and the slot counters and the clock of its cluster, may have changed (R145, R354). -/
structure OnlyCane (s t : State) : Prop where
  rest : t = { s with cur := t.cur, cores := t.cores, clusters := t.clusters }
  cores : ∀ i, ∃ p, t.core i = { s.core i with perf := p }
  clusters : ∀ k, ∃ n, t.cluster k = { s.cluster k with cycle := n }
  bytes : SameBytes s t

/-- The issuing instruction has completed and the cane goes on at a PC. A switch marker (R28) takes its pipe, and the
cane waits for its outstanding results. -/
structure GoneTo (m : Marks) (pc : Dword) (s t : State) : Prop where
  pc : t.cur.pc = pc
  pipe : t.cur.pipe = if m.s then none else s.cur.pipe
  wait : t.cur.wait = if m.s = true ∧ t.cur.outstanding ≠ 0 then .results else .none

/-- The slots of an instruction (R145): its cluster's clock has moved on by n cycles, no other has. -/
def TookCycles (n : Nat) (s t : State) : Prop :=
  ∀ k, (t.cluster k).cycle = (s.cluster k).cycle + if k = clusterOfCore s.cur.core then n else 0

/-- The cycles of an element-wise instruction (R145, R148). -/
def vecCycles (u : Bool) (mk : Mask) (elems : List (List Nat)) : Nat :=
  (if u then 1 else passCount mk) * elems.length
    + (elems.map fun regs => (if u then 1 else passCount mk) * bankExtra regs).sum

/-- None of the checks of an instruction fails, and none of the registers that it reads in the lanes of mk is
poisoned (R53, R209). -/
structure Ready (s : State) (mk : Mask) (regs : List Nat) (checks : List (Bool × Cause)) : Prop where
  checks : ∀ x ∈ checks, x.1 = false
  clean : s.cur.poisonedRow mk regs = none

end Sys2Proof.Machine
end

