-- ==== Sys2Proof/Certificates/Slice0/Obligations.lean ====
section
/-! DEFINITION. The statements for the provers, by family of the opcode table; each docstring names the rules of spec/
that it formalises. -/

/-! ## Shapes of statements -/

namespace Sys2Proof.Claims

open Sys2Proof.Machine

/-- The instruction completes: it answers a next state in which the issuing cane holds what c holds, PC is pc, n cycles
of the cane's cluster have passed, and nothing else of the package has changed. -/
def Completes (i : Instr) (m : Marks) (s : State) (pc : Dword) (n : Nat) (c : Cane) : Prop :=
  ∃ t, exec i s = .next t ∧ OnlyCane s t ∧ GoneTo m pc s t ∧ TookCycles n s t ∧ t.cur.atRest = c.atRest

/-- The instruction has no effect but to trap with a cause (R33), in one pass. -/
def Traps (i : Instr) (s : State) (c : Cause) : Prop := exec i s = .next (s.raise c)

/-- R125: the value of SYS.ESTAT that trap entry writes: CAUSE, EPRIV, HLVL (kept), INH, LEN and DEPTH. -/
def trapStatus (s : State) (cause : Cause) : Word :=
  BitVec.ofNat 32 (cause.code + s.cur.priv * 2 ^ 8 + bitsAt s.cur.estat 10 2 * 2 ^ 10 + 2 ^ 12
    + (if s.iss.parcels = 1 then 0 else if s.iss.parcels = 2 then 1 else 2) * 2 ^ 13 + s.cur.stack.length * 2 ^ 16)

/-- R124: the cane of s has entered its handler in t: SYS.EPC, SYS.ESTAT, SYS.EARG and SYS.EMASK are written, the level
becomes HLVL and PC becomes SYS.TVEC; no other register, no byte of memory and nothing else of the package changes. -/
structure InHandler (s t : State) (cause : Cause) (arg : Word) : Prop where
  only : OnlyCane s t
  pc : t.cur.pc = s.cur.tvec
  regs : t.cur.atRest = { s.cur with epc := s.iss.addr, estat := trapStatus s cause, earg := arg, emask := s.cur.recon,
                                     priv := bitsAt s.cur.estat 10 2 }.atRest

/-- The instruction takes an exception into the cane's handler. -/
def EntersHandler (i : Instr) (s : State) (cause : Cause) (arg : Word) : Prop :=
  ∃ t, exec i s = .next t ∧ InHandler s t cause arg

end Sys2Proof.Claims

open Sys2Proof Sys2Proof.Machine Sys2Proof.Claims

/-! ## Control (R115 to R127) -/

/-- R116, R117: NOP changes PC alone; MODE and MODER write the whole of MODE, or trap ILLEGAL_MODE when the value has a
bit above 27. Where no lane is left MODER reads lane 0 (the model's choice, log entry 67). -/
def Obligations.NopAndModeComplete : Prop :=
  ∀ (m : Marks) (s : State),
    Completes (.nop m) m s s.fall 1 s.cur
    ∧ (∀ i : BitVec 14, if (s.imm i).extractLsb' 28 36 = 0#36 then
        Completes (.mode m i) m s s.fall 1 { s.cur with mode := (s.imm i).extractLsb' 0 32 }
      else Traps (.mode m i) s .illegalMode)
    ∧ (∀ a : BitVec 7, Ready s (operandLanes true s.cur.unguarded) [a.toNat] [s.cur.beyond [a.toNat]] →
        if (s.cur.uread a.toNat).extractLsb' 28 4 = 0#4 then
          Completes (.moder m a) m s s.fall 1 { s.cur with mode := s.cur.uread a.toNat }
        else Traps (.moder m a) s .illegalMode)

/-- R119, R120: JOIN pushes its entry, or traps DIVERGE_DEPTH on a full stack and pushes nothing. BRA falls through when no
lane takes it, jumps when all do or the target is the next instruction, and otherwise splits recon: the path at the lower
address runs and the other waits in a PENDING entry. -/
def Obligations.JoinAndBraSplit : Prop :=
  ∀ (m : Marks) (j : BitVec 21) (s : State),
    let t := s.cur.unguarded &&& s.cur.guardMask
    let n := s.cur.unguarded &&& ~~~s.cur.guardMask
    let tgt := s.iss.addr + j.signExtend 64
    (if s.cur.stack.length < 16 then
        Completes (.join m j) m s s.fall 1
          { s.cur with stack := ⟨.join, s.iss.addr + j.signExtend 64, s.cur.recon⟩ :: s.cur.stack }
      else Traps (.join m j) s .divergeDepth)
    ∧ if t = 0#32 then Completes (.bra m j) m s s.fall 1 s.cur
      else if n = 0#32 ∨ tgt = s.fall then Completes (.bra m j) m s tgt 1 s.cur
      else if 16 ≤ s.cur.stack.length then Traps (.bra m j) s .divergeDepth
      else if tgt.toNat < s.fall.toNat then
        Completes (.bra m j) m s tgt 1 { s.cur with stack := ⟨.pending, s.fall, n⟩ :: s.cur.stack, recon := t }
      else Completes (.bra m j) m s s.fall 1 { s.cur with stack := ⟨.pending, tgt, t⟩ :: s.cur.stack, recon := n }

/-- R121, R122: BRAU follows one lane's guard, and falls through where no lane is left; CALL writes LINK; RET goes to LINK;
JMPR goes to a pair's value, or traps when its bit 63 is 1. None of them changes recon or the stack. Where no lane is left
JMPR reads lane 0 (the model's choice, log entry 67). -/
def Obligations.TransfersGoTo : Prop :=
  ∀ (m : Marks) (s : State),
    (∀ j : BitVec 21,
      Completes (.brau m j) m s
        (if s.cur.unguarded ≠ 0#32 ∧ s.cur.guardMask.getLsbD (firstLane s.cur.unguarded) = true then
          s.iss.addr + j.signExtend 64 else s.fall) 1 s.cur
      ∧ Completes (.call m j) m s (s.iss.addr + j.signExtend 64) 1 { s.cur with link := s.fall })
    ∧ Completes (.ret m) m s s.cur.link 1 s.cur
    ∧ ∀ a : BitVec 6,
        Ready s (operandLanes true s.cur.unguarded) [2 * a.toNat, 2 * a.toNat + 1] [s.cur.beyond [2 * a.toNat, 2 * a.toNat + 1]] →
        if (s.cur.uread64 (2 * a.toNat)).getLsbD 63 then Traps (.jmpr m a) s .illegalEncoding
        else Completes (.jmpr m a) m s (s.cur.uread64 (2 * a.toNat)) 1 s.cur

/-- R127, R124: TRAP, and BKPT without a debugger, enter the handler of a cane that holds one, with the instruction's n
in SYS.EARG; both only advance PC when no lane is left to take them. With a debugger BKPT parks the cane, which goes past
the instruction when it is resumed: that it has parked at it once is a bit of the cane (the model's reading, log entry
10). -/
def Obligations.TrapInstructionsTrap : Prop :=
  ∀ (m : Marks) (i : BitVec 14) (s : State), (s.imm i).toNat ≤ 65535 →
    (s.cur.unguarded = 0#32 → Completes (.trap m i) m s s.fall 1 s.cur ∧ Completes (.bkpt m i) m s s.fall 1 s.cur)
    ∧ (s.cur.unguarded ≠ 0#32 → s.cur.vectors = true →
        EntersHandler (.trap m i) s .trapInstruction ((s.imm i).extractLsb' 0 32)
        ∧ ((s.terrace (s.wgOf s.cur).terrace).dbg.attach = false → s.cur.passBkpt = false →
            EntersHandler (.bkpt m i) s .breakpoint ((s.imm i).extractLsb' 0 32)))
    ∧ (s.cur.passBkpt = true → Completes (.bkpt m i) m s s.fall 1 s.cur)
    ∧ (s.cur.unguarded ≠ 0#32 → s.cur.passBkpt = false → (s.terrace (s.wgOf s.cur).terrace).dbg.attach = true →
        ∃ t, exec (.bkpt m i) s = .next t
          ∧ t.cur = { s.cur with wait := .debug, pipe := none, passBreak := true, passBkpt := true })

/-- R33, R124, R126: an instruction that fails a check of a cause that R124 vectors with SYS.EARG 0 has no effect but to
enter the handler of a cane that holds one; the fields of SYS.ESTAT then read as R125 places them. (TRAP and BKPT, which
give their n, are O4's; PROTECTION and the causes of data accesses are none of these.) ERET makes its three checks in order, and then cuts the stack to
SYS.ESTAT.DEPTH entries and restores recon, the level and PC. -/
def Obligations.TrapsEnterHandlersAndEretReturns : Prop :=
  (∀ (s : State) (c : Cause),
    c ∈ ([.illegalOpcode, .illegalEncoding, .illegalMode, .blockRange, .privilege, .divergeDepth, .mcastTarget, .tensorId,
      .poisonedData] : List Cause) → s.cur.vectors = true →
    InHandler s (s.raise c) c 0#32
    ∧ bitsAt (s.raise c).cur.estat 0 8 = c.code
    ∧ (s.cur.priv < 4 → s.cur.stack.length < 32 →
        bitsAt (s.raise c).cur.estat 8 2 = s.cur.priv ∧ bitsAt (s.raise c).cur.estat 10 2 = bitsAt s.cur.estat 10 2
        ∧ (s.raise c).cur.estat.getLsbD 12 = true ∧ bitsAt (s.raise c).cur.estat 16 5 = s.cur.stack.length))
  ∧ ∀ (m : Marks) (s : State),
    if s.cur.estat.getLsbD 12 = false then Traps (.eret m) s .illegalEncoding
    else if s.cur.priv < bitsAt s.cur.estat 8 2 ∨ bitsAt s.cur.estat 8 2 = 3 then Traps (.eret m) s .privilege
    else if s.cur.stack.length < bitsAt s.cur.estat 16 5 then Traps (.eret m) s .divergeDepth
    else ∃ c : Cane, Completes (.eret m) m s s.cur.epc 1 c
      ∧ c = { s.cur with stack := c.stack, recon := s.cur.emask, priv := bitsAt s.cur.estat 8 2, estat := c.estat }
      ∧ c.stack.length = bitsAt s.cur.estat 16 5 ∧ c.stack <:+ s.cur.stack
      ∧ c.estat.getLsbD 12 = false ∧ ∀ k, k ≠ 12 → c.estat.getLsbD k = s.cur.estat.getLsbD k

/-- R123, R317, R321: EXIT #0 retires the lanes of recon from every stack entry and goes on with the first entry from the
top that has a lane outside QMASK; with none the cane retires. EXIT #1 ends a cane's exit routine and EXIT #2 its entry
routine, whose held section it takes back; outside their routines both trap ILLEGAL_ENCODING. -/
def Obligations.ExitsEndPaths : Prop :=
  ∀ (m : Marks) (s : State), s.wide.1 = false →
    (∀ (pre : List StackEntry) (e : StackEntry) (rest : List StackEntry),
      s.cur.stack = pre ++ e :: rest → (∀ x ∈ pre, x.mask &&& ~~~s.cur.recon &&& ~~~s.cur.qmask = 0#32) →
      e.mask &&& ~~~s.cur.recon &&& ~~~s.cur.qmask ≠ 0#32 →
      Completes (.exit0 m) m s e.pc 1
        { s.cur with recon := e.mask &&& ~~~s.cur.recon
                     stack := rest.map fun x => { x with mask := x.mask &&& ~~~s.cur.recon } })
    ∧ ((∀ x ∈ s.cur.stack, x.mask &&& ~~~s.cur.recon &&& ~~~s.cur.qmask = 0#32) →
        ∃ t, exec (.exit0 m) s = .next t ∧ t.cur.live = false ∧ t.mem = s.mem)
    ∧ (s.cur.routine ≠ .exit → Traps (.exit1 m) s .illegalEncoding)
    ∧ (s.cur.routine ≠ .entry → Traps (.exit2 m) s .illegalEncoding)
    ∧ (s.cur.routine = .exit → ∃ t, exec (.exit1 m) s = .next t ∧ t.mem = s.mem
        ∧ t.cur.routineDone = true ∧ t.cur.wait = .routineDone ∧ t.cur.pc = s.fall)
    ∧ (s.cur.routine = .entry → ∀ h, (s.wgOf s.cur).heldFor s.cur.idx = some h →
        ∃ t, exec (.exit2 m) s = .next t ∧ t.mem = s.mem ∧ t.cur.mode = h.mode ∧ t.cur.p = h.preds
          ∧ t.cur.qmask = h.qmask ∧ t.cur.recon = h.recon ∧ t.cur.stack = h.stack ∧ t.cur.pc = h.pc
          ∧ t.cur.routine = .none)

/-- R118: RECONVERGE pops entries at PC: a JOIN entry at the top restores its mask, a PENDING entry above one makes its
path run; a cane with no JOIN entry at PC is left as it is. -/
def Obligations.ReconvergePops : Prop :=
  ∀ s : State, s.cur.live = true →
    ∃ t, exec (.reconverge s.cur.id) s = .next t ∧ t = { s with cur := t.cur, others := t.others }
    ∧ (∀ (jm : Mask) (rest : List StackEntry), s.cur.stack = ⟨.join, s.cur.pc, jm⟩ :: rest →
      (∀ e ∈ rest, e.kind = .join → e.pc ≠ s.cur.pc) → t.cur = { s.cur with recon := jm, stack := rest })
    ∧ (∀ (ppc : Dword) (pm jm : Mask) (rest : List StackEntry),
      s.cur.stack = ⟨.pending, ppc, pm⟩ :: ⟨.join, s.cur.pc, jm⟩ :: rest → ppc ≠ s.cur.pc →
      t.cur = { s.cur with recon := pm, pc := ppc, stack := ⟨.join, s.cur.pc, jm⟩ :: rest })
    ∧ ((∀ e ∈ s.cur.stack, e.kind = .join → e.pc ≠ s.cur.pc) → t.cur = s.cur)

/-! ## Element-wise instructions (R136 to R143, R175 to R187) -/

namespace Sys2Proof.Claims

/-- The operands of element j in lane l, at block offset o, under U read in the first active lane (R27, R54). -/
def operands (s : State) (m : Marks) (ty : ElemType) (srcs : List (BitVec 7)) (o l j : Nat) : List Nat :=
  srcs.map fun r => elemBits ty (s.cur.val s.cur.is64 (r.toNat + o) (srcLane m.u s.cur.active l)) j

/-- The conditions for an element-wise instruction to execute: MODE.ET is a type that it accepts, MODE.RM is assigned
where it reads it, its 64-bit fields are even, its block fits (R53, R146, R166), and no row it reads is poisoned. -/
def CanRun (m : Marks) (s : State) (accepts : ElemType → Bool) (readsRM : Bool) (d : BitVec 7) (srcs : List (BitVec 7)) : Prop :=
  Ready s (operandLanes m.u s.cur.active) (s.cur.blockReads s.cur.is64 srcs) (s.cur.vChecks accepts readsRM (d :: srcs))

/-- An instruction that writes the lanes of a register block completes: each active lane of each element of the block
takes a value that `lane` holds of; every other lane and register keeps its value; a flag is set when it was set or when
one of the n elements of an active lane raises it; SYS.LFSR steps as `sr` says (R63); the passes are those of R145 and
R148; and no other register, no byte of memory and nothing else of the package changes. -/
def OnLanes (i : Instr) (m : Marks) (s : State) (d : BitVec 7) (srcs : List (BitVec 7)) (sr : Bool) (n : Nat)
    (lane : Nat → Nat → Nat → Prop) (flag : Nat → Nat → Nat → Word) : Prop :=
  let offs := s.cur.blockOffsets s.cur.is64
  ∃ t, exec i s = .next t ∧ OnlyCane s t ∧ GoneTo m s.fall s t
    ∧ TookCycles (vecCycles m.u s.cur.active (offs.map (readsOf s.cur.is64 srcs))) s t
    ∧ t.cur.atRest = { s.cur with v := t.cur.v, rowPoison := t.cur.rowPoison, flags := t.cur.flags,
                                  lfsr := t.cur.lfsr }.atRest
    ∧ (∀ o ∈ offs, ∀ l < 32, s.cur.active.getLsbD l = true → lane o l (t.cur.val s.cur.is64 (d.toNat + o) l))
    ∧ (∀ r l, l < 32 → (s.cur.active.getLsbD l = true → ∀ o ∈ offs, r ∉ readsOf s.cur.is64 [d] o) →
        t.cur.V r l = s.cur.V r l)
    ∧ (∀ k, t.cur.flags.getLsbD k = true ↔ s.cur.flags.getLsbD k = true
        ∨ ∃ o ∈ offs, ∃ l < 32, s.cur.active.getLsbD l = true ∧ ∃ j < n, (flag o l j).getLsbD k = true)
    ∧ t.cur.lfsr = if sr then lfsrIter (offs.length * srLanes m.u s.cur.active) s.cur.lfsr else s.cur.lfsr

/-- As `OnLanes`, element by element under MODE.ET: element j of the result is that of `g`, which takes the block offset,
the lane and the element, and raises its flags. -/
def OnElements (i : Instr) (m : Marks) (s : State) (ty : ElemType) (d : BitVec 7) (srcs : List (BitVec 7)) (sr : Bool)
    (g : Nat → Nat → Nat → ElemRes) : Prop :=
  OnLanes i m s d srcs sr ty.count (fun o l v => ∀ j < ty.count, elemBits ty v j = (g o l j).bits % 2 ^ ty.width)
    fun o l j => (g o l j).flags

/-- R137: the exact results of the arithmetic that R55 delivers, over the operands' values. -/
def exactOf : Instr → Option (Marks × BitVec 7 × List (BitVec 7) × (State → List Int → Int))
  | .iadd m d a b => some (m, d, [a, b], fun _ v => v.getD 0 0 + v.getD 1 0)
  | .isub m d a b => some (m, d, [a, b], fun _ v => v.getD 0 0 - v.getD 1 0)
  | .imul m d a b => some (m, d, [a, b], fun _ v => v.getD 0 0 * v.getD 1 0)
  | .imad m d a b => some (m, d, [d, a, b], fun _ v => v.getD 0 0 + v.getD 1 0 * v.getD 2 0)
  | .iabs m d a => some (m, d, [a], fun _ v => ((v.getD 0 0).natAbs : Int))
  | .ineg m d a => some (m, d, [a], fun _ v => -(v.getD 0 0))
  | .iaddi m d i => some (m, d, [d], fun s v => v.getD 0 0 + (s.imm i).toInt)
  | _ => none

/-- R56, R137: the arithmetic with results of its own, over the type and the operands' bits. -/
def elementOf : Instr → Option (Marks × BitVec 7 × List (BitVec 7) × (Bool → ElemType → Nat → Nat → ElemRes))
  | .imulh m d a b => some (m, d, [a, b], fun _ t x y =>
      ⟨((intOf t x * intOf t y / 2 ^ t.width) % 2 ^ t.width).toNat, 0⟩)
  | .imin m d a b => some (m, d, [a, b], fun _ t x y => if intOf t x ≤ intOf t y then ⟨x, 0⟩ else ⟨y, 0⟩)
  | .imax m d a b => some (m, d, [a, b], fun _ t x y => if intOf t x ≤ intOf t y then ⟨y, 0⟩ else ⟨x, 0⟩)
  | .idiv m d a b => some (m, d, [a, b], fun sat t x y => divElem sat t x y)
  | .irem m d a b => some (m, d, [a, b], fun sat t x y => remElem sat t x y)
  | _ => none

/-- R138: what holds between the operands of a shift or a count, of width w, and its result. -/
def shiftOf : Instr → Option (Marks × BitVec 7 × List (BitVec 7) × (Nat → Nat → Nat → Nat → Prop))
  | .shl m d a b => some (m, d, [a, b], fun w x n r => r = if w ≤ n then 0 else x * 2 ^ n % 2 ^ w)
  | .shr m d a b => some (m, d, [a, b], fun w x n r => r = if w ≤ n then 0 else x / 2 ^ n)
  | .sar m d a b => some (m, d, [a, b], fun w x n r =>
      ∀ k < w, r.testBit k = if k + n < w then x.testBit (k + n) else x.testBit (w - 1))
  | .rot m d a b => some (m, d, [a, b], fun w x n r => ∀ k < w, r.testBit ((k + n) % w) = x.testBit k)
  | .popc m d a => some (m, d, [a], fun w x _ r => r = ((List.range w).filter fun k => x.testBit k).length)
  | .clz m d a => some (m, d, [a], fun w x _ r =>
      r ≤ w ∧ (∀ k < r, x.testBit (w - 1 - k) = false) ∧ (r < w → x.testBit (w - 1 - r) = true))
  | .brev m d a => some (m, d, [a], fun w x _ r => ∀ k < w, r.testBit k = x.testBit (w - 1 - k))
  | _ => none

/-- R139: the length L of the field that b names in w bits. -/
def fieldLength (w b : Nat) : Nat :=
  if w ≤ b % 256 ∨ b / 256 % 256 = 0 then 0 else min (b / 256 % 256) (w - b % 256)

/-- R140: the bitwise instructions and moves, bit by bit: whether bit k of the result is 1. -/
def bitOf : Instr → Option (Marks × BitVec 7 × List (BitVec 7) × (State → List Nat → Nat → Bool))
  | .and m d a b => some (m, d, [a, b], fun _ v k => (v.getD 0 0).testBit k && (v.getD 1 0).testBit k)
  | .or m d a b => some (m, d, [a, b], fun _ v k => (v.getD 0 0).testBit k || (v.getD 1 0).testBit k)
  | .xor m d a b => some (m, d, [a, b], fun _ v k => (v.getD 0 0).testBit k != (v.getD 1 0).testBit k)
  | .not m d a => some (m, d, [a], fun _ v k => !(v.getD 0 0).testBit k)
  | .sel m d a b => some (m, d, [d, a, b], fun _ v k =>
      if (v.getD 0 0).testBit k then (v.getD 1 0).testBit k else (v.getD 2 0).testBit k)
  | .mov m d a => some (m, d, [a], fun _ v k => (v.getD 0 0).testBit k)
  | .movi m d i => some (m, d, [], fun s _ k => (s.imm i).getLsbD k)
  | .andi m d i => some (m, d, [d], fun s v k => (v.getD 0 0).testBit k && (s.imm i).getLsbD k)
  | _ => none

/-- R137 to R140: the fields of an element-wise integer, bit-field or bitwise instruction, destination first, and the
element types it accepts. -/
def elementForm (i : Instr) : Option (BitVec 7 × List (BitVec 7) × (ElemType → Bool)) :=
  match i with
  | .bfx _ d a b => some (d, [a, b], wideInt)
  | .bfi _ d a b => some (d, [d, a, b], wideInt)
  | i => ((exactOf i).map fun x => (x.2.1, x.2.2.1, ElemType.isInt)).orElse fun _ =>
      ((elementOf i).map fun x => (x.2.1, x.2.2.1, ElemType.isInt)).orElse fun _ =>
      ((shiftOf i).map fun x => (x.2.1, x.2.2.1, ElemType.isInt)).orElse fun _ =>
      (bitOf i).map fun x => (x.2.1, x.2.2.1, anyType)

end Sys2Proof.Claims

/-- R55: an exact integer result is delivered modulo 2^n without a flag under SAT = 0, and clamped to the type's range
under SAT = 1, with IS exactly when it lies outside; CVT between integer types delivers by the same two rules. -/
def Obligations.IntegerResultsAreDelivered : Prop :=
  ∀ (t : ElemType) (x : Int), t.isInt = true →
    (((deliverInt false t x).bits : Int) = x % 2 ^ t.width ∧ (deliverInt false t x).flags = 0#32)
    ∧ (intOf t (deliverInt true t x).bits = max t.minInt (min t.maxInt x)
      ∧ (deliverInt true t x).flags = if x < t.minInt ∨ t.maxInt < x then flagIS else 0#32)
    ∧ ∀ (c : Cane) (rm : RMode) (g : Nat) (st : ElemType) (y : Nat), st.isInt = true → st ≠ t →
        convertElem c rm g st t y = deliverInt c.sat t (intOf st y)

/-- R56: division truncates toward zero and the remainder takes the sign of the dividend; a divisor 0 gives 0 and the
dividend with DZ; the minimum over −1 gives the minimum and the remainder 0, or under SAT the maximum and the
remainder 0, each with IS. -/
def Obligations.DivisionAndItsEdges : Prop :=
  ∀ (sat : Bool) (t : ElemType) (a b : Nat), t.isInt = true → a < 2 ^ t.width → b < 2 ^ t.width →
    if b = 0 then divElem sat t a b = ⟨0, flagDZ⟩ ∧ remElem sat t a b = ⟨a, flagDZ⟩
    else if t.signed = true ∧ intOf t a = t.minInt ∧ intOf t b = -1 then
      (intOf t (divElem sat t a b).bits = (if sat then t.maxInt else t.minInt)
        ∧ (divElem sat t a b).flags = if sat then flagIS else 0#32)
      ∧ remElem sat t a b = ⟨0, if sat then flagIS else 0#32⟩
    else intOf t (divElem sat t a b).bits = (intOf t a).tdiv (intOf t b) ∧ (divElem sat t a b).flags = 0#32
      ∧ intOf t (remElem sat t a b).bits = (intOf t a).tmod (intOf t b) ∧ (remElem sat t a b).flags = 0#32

/-- R137: IADD, ISUB, IMUL, IMAD, IABS, INEG and IADDI write their exact result, delivered by R55, in each active lane
and element; nothing else changes but the flags they raise, SYS.LFSR not at all, and PC. -/
def Obligations.ExactArithmeticWrites : Prop :=
  ∀ (i : Instr) (m : Marks) (d : BitVec 7) (srcs : List (BitVec 7)) (x : State → List Int → Int) (ty : ElemType)
    (s : State), exactOf i = some (m, d, srcs, x) → s.cur.etype = some ty → CanRun m s ElemType.isInt false d srcs →
    OnElements i m s ty d srcs false fun o l j =>
      deliverInt s.cur.sat ty (x s ((operands s m ty srcs o l j).map (intOf ty)))

/-- R137, R56: IMULH, IMIN, IMAX, IDIV and IREM write their own results in each active lane and element. -/
def Obligations.OtherArithmeticWrites : Prop :=
  ∀ (i : Instr) (m : Marks) (d : BitVec 7) (srcs : List (BitVec 7)) (g : Bool → ElemType → Nat → Nat → ElemRes)
    (ty : ElemType) (s : State), elementOf i = some (m, d, srcs, g) → s.cur.etype = some ty →
    CanRun m s ElemType.isInt false d srcs →
    OnElements i m s ty d srcs false fun o l j =>
      g s.cur.sat ty ((operands s m ty srcs o l j).getD 0 0) ((operands s m ty srcs o l j).getD 1 0)

/-- R138, R139: the shifts, the rotation and the bit counts write their result in each active lane and element, with no
flag. BFX writes the field of A that the low word of B names, sign-extended for I types; BFI writes D with that field
replaced by the low bits of A. -/
def Obligations.ShiftsCountsAndFieldsWrite : Prop :=
  (∀ (i : Instr) (m : Marks) (d : BitVec 7) (srcs : List (BitVec 7)) (p : Nat → Nat → Nat → Nat → Prop)
    (ty : ElemType) (s : State), shiftOf i = some (m, d, srcs, p) → s.cur.etype = some ty →
    CanRun m s ElemType.isInt false d srcs →
    OnLanes i m s d srcs false 0 (fun o l v => ∀ j < ty.count,
      p ty.width ((operands s m ty srcs o l j).getD 0 0) ((operands s m ty srcs o l j).getD 1 0) (elemBits ty v j))
      fun _ _ _ => 0#32)
  ∧ ∀ (m : Marks) (d a b : BitVec 7) (ty : ElemType) (s : State), s.cur.etype = some ty →
    (CanRun m s wideInt false d [a, b] → OnLanes (.bfx m d a b) m s d [a, b] false 0 (fun o l v =>
      let x := (operands s m ty [a, b] o l 0).getD 0 0
      let y := (operands s m ty [a, b] o l 0).getD 1 0
      let n := fieldLength ty.width y
      ∀ k < ty.width, v.testBit k =
        if k < n then x.testBit (y % 256 + k) else ty.signed && decide (0 < n) && x.testBit (y % 256 + n - 1))
      fun _ _ _ => 0#32)
    ∧ (CanRun m s wideInt false d [d, a, b] → OnLanes (.bfi m d a b) m s d [d, a, b] false 0 (fun o l v =>
      let z := (operands s m ty [d, a, b] o l 0).getD 0 0
      let x := (operands s m ty [d, a, b] o l 0).getD 1 0
      let y := (operands s m ty [d, a, b] o l 0).getD 2 0
      let n := fieldLength ty.width y
      ∀ k < ty.width, v.testBit k =
        if y % 256 ≤ k ∧ k < y % 256 + n then x.testBit (k - y % 256) else z.testBit k)
      fun _ _ _ => 0#32)

/-- R140: AND, OR, XOR, NOT, SEL, MOV, MOVI and ANDI write each bit of the lane's 32 bits, or of a pair's 64 under I64 and
N64, under every assigned element type, with no flag. -/
def Obligations.BitwiseAndMovesWrite : Prop :=
  ∀ (i : Instr) (m : Marks) (d : BitVec 7) (srcs : List (BitVec 7)) (f : State → List Nat → Nat → Bool) (s : State),
    bitOf i = some (m, d, srcs, f) → CanRun m s anyType false d srcs →
    OnLanes i m s d srcs false 0 (fun o l v => ∀ k < (if s.cur.is64 then 64 else 32),
      v.testBit k = f s (srcs.map fun r => s.cur.val s.cur.is64 (r.toNat + o) (srcLane m.u s.cur.active l)) k)
      fun _ _ _ => 0#32

/-- R13, R46, R146, R166, R53: an element-wise integer, bit-field or bitwise instruction whose checks fail traps with the
cause of the first one that fails: a field, or an element of the block, in a register that the cane does not have
ILLEGAL_ENCODING, a reserved or unaccepted MODE.ET ILLEGAL_MODE, an odd 64-bit field ILLEGAL_ENCODING, a block that leaves
its row BLOCK_RANGE. That the window is checked before MODE.ET and the block's range, and that elements past v127 are the
range's, is the model's reading (log entry 11). -/
def Obligations.ElementChecksTrap : Prop :=
  ∀ (i : Instr) (d : BitVec 7) (srcs : List (BitVec 7)) (accepts : ElemType → Bool) (s : State),
    elementForm i = some (d, srcs, accepts) →
    if (d :: srcs).any (fun r => decide (s.cur.nreg ≤ r.toNat)) = true
        ∨ s.cur.blockBeyond s.cur.is64 (d :: srcs) = (true, .illegalEncoding) then Traps i s .illegalEncoding
    else if (s.cur.etype.map accepts).getD false = false then Traps i s .illegalMode
    else if s.cur.is64 = true ∧ (d :: srcs).any (fun r => r.getLsbD 0) = true then Traps i s .illegalEncoding
    else if (d :: srcs).any (fun r => decide (8 < r.toNat % 8 + (if s.cur.is64 then 2 else 1) * (s.cur.bc + 1))
        || decide (128 < r.toNat + 8 * s.cur.br + (if s.cur.is64 then 2 else 1) * (s.cur.bc + 1))) = true then
      Traps i s .blockRange
    else ∃ t, exec i s = .next t

/-- R141, R9: ISETP writes the comparison of its two values in each active lane of a predicate; other lanes keep their
bits, p0 is never written, and no flag is set. -/
def Obligations.IsetpWritesPredicate : Prop :=
  ∀ (m : Marks) (c : BitVec 4) (p : BitVec 3) (a b : BitVec 7) (s : State) (ty : ElemType),
    c.toNat ≤ 9 → s.cur.etype = some ty →
    Ready s (operandLanes m.u s.cur.active) (readsOf s.cur.is64 [a, b] 0) [s.cur.beyond [a.toNat, b.toNat], s.cur.badType wideInt,
      oddField s.cur.is64 [a, b], s.cur.beyond (readsOf s.cur.is64 [a, b] 0)] →
    ∃ k : Cane, Completes (.isetp m c p a b) m s s.fall
        (vecCycles m.u s.cur.active [readsOf s.cur.is64 [a, b] 0]) k
      ∧ k = { s.cur with p := k.p } ∧ (∀ q, q ≠ p.toNat ∨ q = 0 → k.pred q = s.cur.pred q)
      ∧ (p ≠ 0#3 → ∀ l < 32, (k.pred p.toNat).getLsbD l =
          if s.cur.active.getLsbD l then
            let x := s.cur.val s.cur.is64 a.toNat (srcLane m.u s.cur.active l)
            let y := s.cur.val s.cur.is64 b.toNat (srcLane m.u s.cur.active l)
            let w := if s.cur.is64 then 64 else 32
            let sx : Int := if 2 ^ (w - 1) ≤ x then (x : Int) - 2 ^ w else x
            let sy : Int := if 2 ^ (w - 1) ≤ y then (y : Int) - 2 ^ w else y
            (match c.toNat with
             | 0 => decide (x = y) | 1 => decide (x ≠ y) | 2 => decide (sx < sy) | 3 => decide (sx ≤ sy)
             | 4 => decide (sx > sy) | 5 => decide (sx ≥ sy) | 6 => decide (x < y) | 7 => decide (x ≤ y)
             | 8 => decide (x > y) | _ => decide (x ≥ y))
          else (s.cur.pred p.toNat).getLsbD l)

namespace Sys2Proof.Claims

/-- R142, R185: a predicate instruction, with the bit that it writes in each active lane. -/
def predicateOf : Instr → Option (Marks × BitVec 3 × (State → Marks → Nat → Bool))
  | .pand m d a b => some (m, d, fun s m l =>
      let k := srcLane m.u s.cur.active l
      (s.cur.pred a.toNat).getLsbD k && (s.cur.pred b.toNat).getLsbD k)
  | .por m d a b => some (m, d, fun s m l =>
      let k := srcLane m.u s.cur.active l
      (s.cur.pred a.toNat).getLsbD k || (s.cur.pred b.toNat).getLsbD k)
  | .pnot m d a => some (m, d, fun s m l => !(s.cur.pred a.toNat).getLsbD (srcLane m.u s.cur.active l))
  | .voteAny m d a => some (m, d, fun s m _ =>
      if m.u then (s.cur.pred a.toNat).getLsbD (firstLane s.cur.active)
      else lanes.any fun l => s.cur.active.getLsbD l && (s.cur.pred a.toNat).getLsbD l)
  | .voteAll m d a => some (m, d, fun s m _ =>
      if m.u then (s.cur.pred a.toNat).getLsbD (firstLane s.cur.active)
      else lanes.all fun l => !s.cur.active.getLsbD l || (s.cur.pred a.toNat).getLsbD l)
  | _ => none

end Sys2Proof.Claims

/-- R142, R185, R9: PAND, POR, PNOT, VOTE.ANY and VOTE.ALL write a predicate in the active lanes, and change nothing else;
VOTE.BAL writes the ballot in the active lanes of a V register. -/
def Obligations.PredicatesAndVotesWrite : Prop :=
  (∀ (i : Instr) (m : Marks) (d : BitVec 3) (f : State → Marks → Nat → Bool) (s : State),
    predicateOf i = some (m, d, f) →
    ∃ k : Cane, Completes i m s s.fall (vecCycles m.u s.cur.active [[]]) k ∧ k = { s.cur with p := k.p }
      ∧ (∀ q, q ≠ d.toNat ∨ q = 0 → k.pred q = s.cur.pred q)
      ∧ (d ≠ 0#3 → ∀ l < 32, (k.pred d.toNat).getLsbD l =
          if s.cur.active.getLsbD l then f s m l else (s.cur.pred d.toNat).getLsbD l))
  ∧ ∀ (m : Marks) (d : BitVec 7) (a : BitVec 3) (s : State), d.toNat < s.cur.nreg →
      ∃ k : Cane, Completes (.voteBal m d a) m s s.fall (vecCycles m.u s.cur.active [[]]) k
        ∧ k = { s.cur with v := k.v, rowPoison := k.rowPoison }
        ∧ ∀ r l, l < 32 → k.V r l =
            if r = d.toNat ∧ s.cur.active.getLsbD l = true then
              (if m.u then (if (s.cur.pred a.toNat).getLsbD (firstLane s.cur.active) then s.cur.active else 0#32)
               else s.cur.pred a.toNat &&& s.cur.active)
            else s.cur.V r l

namespace Sys2Proof.Claims

/-- R175: the operands of an element as reals, flushed under FTZ (R60). -/
def reals (s : State) (m : Marks) (ty : ElemType) (srcs : List (BitVec 7)) (o l j : Nat) : List FReal :=
  (operands s m ty srcs o l j).map fun v => (decodeF ty.fmt (flushIn s.cur.ftz ty.fmt v)).toReal

/-- R63: the generator's value for element j of lane l at block offset o, 0 unless MODE.RM is SR. -/
def generator (s : State) (m : Marks) (rm : RMode) (o l j : Nat) : Nat :=
  if rm = .sr then srBits (s.cur.srAt m.u s.cur.active ((s.cur.blockOffsets s.cur.is64).idxOf o) l) j else 0

/-- R176: the exact results that are rounded once, over the operands as reals. -/
def exactRealOf : Instr → Option (Marks × BitVec 7 × List (BitVec 7) × (RMode → List FReal → FReal))
  | .fadd m d a b => some (m, d, [a, b], fun rm x => addReal rm (nth x 0) (nth x 1))
  | .fsub m d a b => some (m, d, [a, b], fun rm x => addReal rm (nth x 0) (nth x 1).negate)
  | .fmul m d a b => some (m, d, [a, b], fun _ x => mulReal (nth x 0) (nth x 1))
  | .ffma m d a b => some (m, d, [d, a, b], fun rm x => addReal rm (nth x 0) (mulReal (nth x 1) (nth x 2)))
  | .ffms m d a b => some (m, d, [d, a, b], fun rm x => addReal rm (mulReal (nth x 1) (nth x 2)) (nth x 0).negate)
  | .fnma m d a b => some (m, d, [d, a, b], fun rm x => addReal rm (nth x 0) (mulReal (nth x 1) (nth x 2)).negate)
  | .fsqrt m d a => some (m, d, [a], fun _ x => sqrtReal (nth x 0))
  | _ => none

/-- R59, R176, R180, R181: the floating-point instructions with results of their own: whether they read MODE.RM, and the
result over the type, the mode, the generator's value, MODE.FTZ and the operands' bits. -/
def floatOf : Instr → Option (Marks × BitVec 7 × List (BitVec 7) × Bool × (FFmt → RMode → Nat → Bool → List Nat → ElemRes))
  | .fmin m d a b => some (m, d, [a, b], false, fun f _ _ z v =>
      minMaxF f false (flushIn z f (v.getD 0 0)) (flushIn z f (v.getD 1 0)))
  | .fmax m d a b => some (m, d, [a, b], false, fun f _ _ z v =>
      minMaxF f true (flushIn z f (v.getD 0 0)) (flushIn z f (v.getD 1 0)))
  | .fabs m d a => some (m, d, [a], false, fun f _ _ z v =>
      signOp f (fun x => x % f.signBit) (flushIn z f (v.getD 0 0)))
  | .fneg m d a => some (m, d, [a], false, fun f _ _ z v =>
      signOp f (fun x => (x + f.signBit) % (2 * f.signBit)) (flushIn z f (v.getD 0 0)))
  | .fclass m d a => some (m, d, [a], false, fun f _ _ _ v => ⟨classF f (v.getD 0 0), 0⟩)
  | .frnd m d a => some (m, d, [a], true, fun f rm g z v => rndF f rm g (flushIn z f (v.getD 0 0)))
  | _ => none

/-- R66: the approximate functions, with which of the two bracketing values they return. -/
def approxOf : Instr → Option (Marks × BitVec 7 × BitVec 7 × (FFmt → Bool → Bool → FVal → ElemRes))
  | .frcp m d a => some (m, d, a, rcpF)
  | .frsq m d a => some (m, d, a, rsqF)
  | .fexp2 m d a => some (m, d, a, exp2F)
  | .flog2 m d a => some (m, d, a, log2F)
  | _ => none

/-- The number that a finite value stands for. -/
def finValue (neg : Bool) (m : Nat) (e : Int) : ℚ := (if neg then -1 else 1) * (m : ℚ) * (2 : ℚ) ^ e

/-- The bits of an element denote a value of the extended line; those of a NaN denote none. -/
def Denotes (f : FFmt) (x : Nat) (v : EReal) : Prop :=
  match decodeF f x with
  | .nan _ => False
  | .inf neg => v = if neg then ⊥ else ⊤
  | .fin neg m e => v = (((finValue neg m e : ℚ) : ℝ) : EReal)

/-- R66, R61: bits denote one of the two representable values that bracket y, infinities among them; or under FTZ a zero,
where y lies below the least normal value. -/
def Approximates (f : FFmt) (ftz : Bool) (y : ℝ) (r : Nat) : Prop :=
  ∃ v : EReal, Denotes f r v
    ∧ ((v ≤ (y : EReal) ∧ ∀ x w, Denotes f x w → w ≤ (y : EReal) → w ≤ v)
      ∨ ((y : EReal) ≤ v ∧ ∀ x w, Denotes f x w → (y : EReal) ≤ w → v ≤ w)
      ∨ (ftz = true ∧ v = 0 ∧ |y| < (2 : ℝ) ^ f.emin))

/-- R66: the finite operands for which an approximate function has a value that is bracketed. -/
def InDomain (i : Instr) (x : ℝ) : Prop :=
  match i with
  | .frcp _ _ _ => x ≠ 0
  | .fexp2 _ _ _ => True
  | .frsq _ _ _ | .flog2 _ _ _ => 0 < x
  | _ => False

/-- R66: y is the exact value of an approximate function at x; of FEXP2 and FLOG2, where the table gives no exact result, a
value within 2^-150 of it (log entry 32). -/
def IsResult (i : Instr) (x y : ℝ) : Prop :=
  match i with
  | .frcp _ _ _ => y = x⁻¹
  | .frsq _ _ _ => y = (√x)⁻¹
  | .fexp2 _ _ _ => |y - (2 : ℝ) ^ x| ≤ (2 : ℝ) ^ (-150 : ℤ) * (2 : ℝ) ^ x ∧ ((∃ n : ℤ, x = n) → y = (2 : ℝ) ^ x)
  | .flog2 _ _ _ => |y - Real.logb 2 x| ≤ (2 : ℝ) ^ (-150 : ℤ)
      ∧ ((∃ n : ℤ, x = (2 : ℝ) ^ n) → y = Real.logb 2 x)
  | _ => False

end Sys2Proof.Claims

/-- R61 to R63: a magnitude of m units of 2^e is brought to a whole number r of units of 2^q by each rounding mode, and the
inexact condition holds exactly when that changes it. A finite value of a format, delivered to that format without FTZ, is
itself in every rounding mode, with no flag; an infinity is itself, and a NaN becomes the canonical one. -/
def Obligations.RoundedValuesDeliver : Prop :=
  (∀ (rm : RMode) (g : Nat) (neg : Bool) (m : Nat) (e q : Int), g < 2 ^ 24 →
    let r : ℚ := ((roundUnits rm g ⟨neg, m, e, false⟩ q).1 : ℚ)
    let x : ℚ := (m : ℚ) * (2 : ℚ) ^ (e - q)
    ((roundUnits rm g ⟨neg, m, e, false⟩ q).2 = true ↔ (⌊x⌋ : ℚ) ≠ x)
    ∧ match rm with
      | .rne => |r - x| ≤ 1 / 2 ∧ (|r - x| = 1 / 2 → (roundUnits .rne g ⟨neg, m, e, false⟩ q).1 % 2 = 0)
      | .rtz => r ≤ x ∧ x < r + 1
      | .rdn => if neg then x ≤ r ∧ r < x + 1 else r ≤ x ∧ x < r + 1
      | .rup => if neg then r ≤ x ∧ x < r + 1 else x ≤ r ∧ r < x + 1
      | .rna => |r - x| ≤ 1 / 2 ∧ (|r - x| = 1 / 2 → x ≤ r)
      | .sr => r = ⌊x⌋ + if 2 ^ 24 ≤ ⌊(x - ⌊x⌋) * 2 ^ 24⌋ + g then 1 else 0)
  ∧ ∀ (t : ElemType) (rm : RMode) (sat : Bool) (g x : Nat), t.isFloat = true → g < 2 ^ 24 → x < 2 ^ t.width →
    match decodeF t.fmt x with
    | .fin _ _ _ => deliverF t.fmt rm sat false g (decodeF t.fmt x).toReal = ⟨x, 0#32⟩
    | .inf _ => deliverF t.fmt rm sat false g (decodeF t.fmt x).toReal = ⟨x, 0#32⟩
    | .nan sg => deliverF t.fmt rm sat false g (decodeF t.fmt x).toReal
        = ⟨t.fmt.nanBits, if sg then flagNV else 0#32⟩

/-- R175, R176: FADD, FSUB, FMUL, FFMA, FFMS, FNMA and FSQRT deliver their exact result, over inputs flushed under FTZ and
rounded once by MODE.RM, in each active lane and element, with the flags it raises; SYS.LFSR steps under SR alone. -/
def Obligations.RoundedFloatsWrite : Prop :=
  ∀ (i : Instr) (m : Marks) (d : BitVec 7) (srcs : List (BitVec 7)) (x : RMode → List FReal → FReal) (ty : ElemType)
    (rm : RMode) (s : State), exactRealOf i = some (m, d, srcs, x) → s.cur.etype = some ty → s.cur.rmode = some rm →
    CanRun m s ElemType.isFloat true d srcs →
    OnElements i m s ty d srcs (decide (rm = .sr)) fun o l j =>
      deliverF ty.fmt rm s.cur.sat s.cur.ftz (generator s m rm o l j) (x rm (reals s m ty srcs o l j))

/-- R59, R176, R180, R181: FMIN, FMAX, FABS, FNEG, FCLASS and FRND write their own results in each active lane and element;
FRND alone reads MODE.RM. -/
def Obligations.OtherFloatsWrite : Prop :=
  ∀ (i : Instr) (m : Marks) (d : BitVec 7) (srcs : List (BitVec 7)) (usesRM : Bool)
    (g : FFmt → RMode → Nat → Bool → List Nat → ElemRes) (ty : ElemType) (s : State),
    floatOf i = some (m, d, srcs, usesRM, g) → s.cur.etype = some ty → CanRun m s ElemType.isFloat usesRM d srcs →
    let rm := s.cur.rmode.getD .rne
    OnElements i m s ty d srcs (usesRM && decide (rm = .sr)) fun o l j =>
      g ty.fmt rm (generator s m rm o l j) s.cur.ftz (operands s m ty srcs o l j)

/-- R66: FRCP, FRSQ, FEXP2 and FLOG2 complete in every state that meets their conditions, and write a result of their
function in each active lane and element, whatever MODE.RM holds; which of its two values is free (log entry 20). A result
over an operand in the function's domain is one of the two representable values that bracket the exact value, or under FTZ
the zero for a tiny one; of FEXP2 and FLOG2 they bracket a value within 2^-150 of the exact one, which is the exact one
where R66's table gives an exact result (the model's reading, log entry 32). -/
def Obligations.ApproximationsBracket : Prop :=
  (∀ (m : Marks) (d a : BitVec 7) (s : State), CanRun m s wideFloat false d [a] →
    (∃ t, exec (.frcp m d a) s = .next t ∧ OnlyCane s t ∧ GoneTo m s.fall s t)
    ∧ (∃ t, exec (.frsq m d a) s = .next t ∧ OnlyCane s t ∧ GoneTo m s.fall s t)
    ∧ (∃ t, exec (.fexp2 m d a) s = .next t ∧ OnlyCane s t ∧ GoneTo m s.fall s t)
    ∧ (∃ t, exec (.flog2 m d a) s = .next t ∧ OnlyCane s t ∧ GoneTo m s.fall s t))
  ∧ (∀ (i : Instr) (m : Marks) (d a : BitVec 7) (h : FFmt → Bool → Bool → FVal → ElemRes) (ty : ElemType) (s : State),
    approxOf i = some (m, d, a, h) → s.cur.etype = some ty → CanRun m s wideFloat false d [a] →
    ∃ up : Nat → Nat → Nat → Bool, OnElements i m s ty d [a] false fun o l j =>
      h ty.fmt s.cur.ftz (up o l j) (decodeF ty.fmt (flushIn s.cur.ftz ty.fmt ((operands s m ty [a] o l j).getD 0 0))))
  ∧ ∀ (i : Instr) (m : Marks) (d a : BitVec 7) (h : FFmt → Bool → Bool → FVal → ElemRes) (ty : ElemType)
    (ftz up neg : Bool) (k : Nat) (e : Int), approxOf i = some (m, d, a, h) → wideFloat ty = true →
    (∃ x < 2 ^ ty.width, decodeF ty.fmt x = .fin neg k e) → InDomain i (finValue neg k e : ℝ) →
    ∃ y : ℝ, IsResult i (finValue neg k e : ℝ) y ∧ Approximates ty.fmt ftz y (h ty.fmt ftz up (.fin neg k e)).bits

/-- R178, R176: FDOT2 rounds the sum of two exact products once to FP32 in each active lane; FSCALE multiplies each element
by a power of two that the lane's B gives as one I32. -/
def Obligations.DotAndScaleWrite : Prop :=
  ∀ (m : Marks) (d a b : BitVec 7) (ty : ElemType) (rm : RMode) (s : State), s.cur.etype = some ty →
    s.cur.rmode = some rm →
    (CanRun m s halfFloat true d [a, b] →
      let res (o l : Nat) : ElemRes :=
        let x := reals s m ty [a, b] o l 0
        let y := reals s m ty [a, b] o l 1
        deliverF fmt32 rm false s.cur.ftz (generator s m rm o l 0)
          (addReal rm (mulReal (nth x 0) (nth x 1)) (mulReal (nth y 0) (nth y 1)))
      OnLanes (.fdot2 m d a b) m s d [a, b] (decide (rm = .sr)) 1 (fun o l v => v = (res o l).bits % 2 ^ 32)
        fun o l _ => (res o l).flags)
    ∧ (CanRun m s ElemType.isFloat true d [a, b] →
      OnElements (.fscale m d a b) m s ty d [a, b] (decide (rm = .sr)) fun o l j =>
        deliverF ty.fmt rm s.cur.sat s.cur.ftz (generator s m rm o l j)
          (scaleReal (intOf .i32 (s.cur.val false (b.toNat + o) (srcLane m.u s.cur.active l)))
            (nth (reals s m ty [a, b] o l j) 0)))

/-- R179, R47, R9: FSETP writes, in each active lane of a predicate, whether its condition holds for every element pair,
and sets NV for a signalling NaN among them; nothing else changes. -/
def Obligations.FsetpWritesPredicate : Prop :=
  ∀ (m : Marks) (c : BitVec 4) (p : BitVec 3) (a b : BitVec 7) (s : State) (ty : ElemType),
    c.toNat ≤ 5 ∨ 10 ≤ c.toNat → s.cur.etype = some ty →
    Ready s (operandLanes m.u s.cur.active) [a.toNat, b.toNat] [s.cur.beyond [a.toNat, b.toNat], s.cur.badType ElemType.isFloat] →
    let elem (r : BitVec 7) (l j : Nat) : FVal :=
      decodeF ty.fmt (flushIn s.cur.ftz ty.fmt
        (elemBits ty (s.cur.V r.toNat (srcLane m.u s.cur.active l)).toNat j))
    ∃ k : Cane, Completes (.fsetp m c p a b) m s s.fall (vecCycles m.u s.cur.active [[a.toNat, b.toNat]]) k
      ∧ k = { s.cur with p := k.p, flags := k.flags } ∧ (∀ q, q ≠ p.toNat ∨ q = 0 → k.pred q = s.cur.pred q)
      ∧ (p ≠ 0#3 → ∀ l < 32, (k.pred p.toNat).getLsbD l =
          if s.cur.active.getLsbD l then decide (∀ j < ty.count, fcond c.toNat (elem a l j) (elem b l j) = true)
          else (s.cur.pred p.toNat).getLsbD l)
      ∧ ∀ f, k.flags.getLsbD f = true ↔ s.cur.flags.getLsbD f = true
          ∨ f = 0 ∧ ∃ l < 32, s.cur.active.getLsbD l = true ∧ ∃ j < ty.count,
              (elem a l j).isSignalling = true ∨ (elem b l j).isSignalling = true

namespace Sys2Proof.Claims

/-- R143: the elements of one conversion, n, and the registers that they fill in A and in D. -/
def groupSize (st tt : ElemType) : Nat :=
  max (max (if st.is64 then 0 else st.count) (if tt.is64 then 0 else tt.count)) 1

/-- R143, R13, R46, R166: the checks of CVT. -/
def cvtChecks (s : State) (st tt : ElemType) (d a : BitVec 7) (reads writes : List Nat) : List (Bool × Cause) :=
  let n := groupSize st tt
  let grouped : Bool := decide (1 < groupRegs st n) || decide (1 < groupRegs tt n)
  [s.cur.beyond [a.toNat, d.toNat], s.cur.groupBeyond (reads ++ writes), s.cur.badType anyType, (decide (tt = .nq4), .illegalMode)]
    ++ (if st.isInt && tt.isInt then [] else [s.cur.badRM])
    ++ [(grouped && (s.cur.br != 0 || s.cur.bc != 0), .illegalMode), oddField st.is64 [a], oddField tt.is64 [d],
        (grouped && (decide (127 < a.toNat + groupRegs st n - 1) || decide (127 < d.toNat + groupRegs tt n - 1)),
          .blockRange)]
    ++ (if grouped then [] else [s.cur.badBlock false [a, d]])

end Sys2Proof.Claims

/-- R143, R144: CVT reads the n elements of each group of type ET and writes their conversions as a group of type CT in
each active lane; registers outside the groups written, and inactive lanes, keep their values; the flags are those of
the conversions, and SYS.LFSR steps only where CVT reads MODE.RM and it is SR. -/
def Obligations.CvtConvertsGroups : Prop :=
  ∀ (m : Marks) (d a : BitVec 7) (s : State) (st tt : ElemType), s.cur.etype = some st → s.cur.ctype = some tt →
    let n := groupSize st tt
    let grouped : Bool := decide (1 < groupRegs st n) || decide (1 < groupRegs tt n)
    let offs := if grouped then [0] else s.cur.blockOffsets false
    let reads := offs.flatMap fun o => (List.range (groupRegs st n)).map fun r => a.toNat + o + r
    let writes := offs.flatMap fun o => (List.range (groupRegs tt n)).map fun r => d.toNat + o + r
    let sr : Bool := !(st.isInt && tt.isInt) && decide (s.cur.rmode = some .sr)
    let res (o i l : Nat) : ElemRes :=
      convertElem s.cur (s.cur.rmode.getD .rne)
        (if sr then srBits (s.cur.srAt m.u s.cur.active (offs.idxOf o) l) i else 0) st tt
        (s.cur.groupElem st (a.toNat + o) i (srcLane m.u s.cur.active l))
    Ready s (operandLanes m.u s.cur.active) reads (cvtChecks s st tt d a reads writes) →
    ∃ t, exec (.cvt m d a) s = .next t ∧ OnlyCane s t ∧ GoneTo m s.fall s t
      ∧ TookCycles (vecCycles m.u s.cur.active
          (offs.map fun o => (List.range (groupRegs st n)).map fun r => a.toNat + o + r)) s t
      ∧ t.cur.atRest = { s.cur with v := t.cur.v, rowPoison := t.cur.rowPoison, flags := t.cur.flags,
                                    lfsr := t.cur.lfsr }.atRest
      ∧ (∀ o ∈ offs, ∀ l < 32, s.cur.active.getLsbD l = true → ∀ i < n,
          t.cur.groupElem tt (d.toNat + o) i l = (res o i l).bits % 2 ^ tt.width)
      ∧ (∀ r l, l < 32 → (s.cur.active.getLsbD l = true → r ∉ writes) → t.cur.V r l = s.cur.V r l)
      ∧ (∀ k, t.cur.flags.getLsbD k = true ↔ s.cur.flags.getLsbD k = true
          ∨ ∃ o ∈ offs, ∃ l < 32, s.cur.active.getLsbD l = true ∧ ∃ i < n, (res o i l).flags.getLsbD k = true)
      ∧ t.cur.lfsr = if sr then lfsrIter (offs.length * srLanes m.u s.cur.active) s.cur.lfsr else s.cur.lfsr

namespace Sys2Proof.Claims

/-- R182: the affine instructions that write one affine register, with the V registers they read and what they write,
over the lane in which they read them. -/
def affineOf : Instr → Option (Marks × BitVec 4 × List Nat × (State → Nat → Affine))
  | .aset m d a b => some (m, d, [2 * a.toNat, 2 * a.toNat + 1, b.toNat], fun s l =>
      ⟨s.cur.V64 (2 * a.toNat) l, s.cur.V b.toNat l⟩)
  | .aadd m d a b => some (m, d, [b.toNat], fun s l =>
      ⟨(s.cur.aff a.toNat).base + (s.cur.V b.toNat l).signExtend 64, (s.cur.aff a.toNat).stride⟩)
  | .astr m d a b => some (m, d, [b.toNat], fun s l => ⟨(s.cur.aff a.toNat).base, s.cur.V b.toNat l⟩)
  | .amul m d a b => some (m, d, [b.toNat], fun s l =>
      ⟨(s.cur.aff a.toNat).base, (s.cur.aff a.toNat).stride * s.cur.V b.toNat l⟩)
  | .aexp m d a b => some (m, d, [b.toNat], fun s l =>
      ⟨(s.cur.aff a.toNat).base + (s.cur.aff a.toNat).stride.signExtend 64 * (s.cur.V b.toNat l).signExtend 64,
        (s.cur.aff a.toNat).stride⟩)
  | _ => none

/-- R182, R44: AGET and ADDR, with the V registers they read and each lane's value. -/
def pairOf : Instr → Option (Marks × BitVec 6 × List Nat × (State → Nat → Dword))
  | .aget m d a => some (m, d, [], fun s l =>
      (s.cur.aff a.toNat).base + BitVec.ofNat 64 l * (s.cur.aff a.toNat).stride.signExtend 64)
  | .addr m d a b => some (m, d, addrRegs a ++ voffRegs b, fun s l =>
      s.cur.baseAt a l + (if b = 127#7 then 0#64 else (s.cur.V b.toNat l).signExtend 64) + s.off)
  | _ => none

/-- R184: the shuffles, with the source lane of lane l for the selector register at a block offset. -/
def shuffleOf : Instr → Option (Marks × BitVec 7 × BitVec 7 × BitVec 7 × (State → Nat → Nat → Nat))
  | .shfl m d a b => some (m, d, a, b, fun s r l => (s.cur.V r l).toNat % 32)
  | .shflx m d a b => some (m, d, a, b, fun s r l => l ^^^ (s.cur.V r l).toNat % 32)
  | .bcast m d a b => some (m, d, a, b, fun s r _ => (s.cur.V r (firstLane s.cur.active)).toNat % 32)
  | _ => none

/-- R186, R187: the sums over lanes, with the lanes whose sum lane l receives and the tree they are summed in. -/
def sumOf : Instr → Option (Marks × BitVec 7 × BitVec 7 × (Nat → Nat → Bool)
    × (Cane → ElemType → (Nat → TreeVal) → Nat → TreeVal))
  | .redc m d a => some (m, d, a, fun _ _ => true, fun c ty leaf _ => c.node ty leaf 5 0)
  | .scan m d a => some (m, d, a, fun l k => decide (k ≤ l), fun c ty leaf l => c.scanAt ty leaf l)
  | _ => none

end Sys2Proof.Claims

/-- R182, R44: ASET, AADD, ASTR, AMUL and AEXP write their affine register from the first active lane's values when a lane
is active, and only advance PC when none is. AGET and ADDR write an address in each active lane of a pair, without an
access. No other register, no flag and no byte of memory changes. -/
def Obligations.AffineRegistersAndAddressesWrite : Prop :=
  (∀ (i : Instr) (m : Marks) (d : BitVec 4) (regs : List Nat) (x : State → Nat → Affine) (s : State),
    affineOf i = some (m, d, regs, x) → Ready s (operandLanes true s.cur.active) regs [s.cur.beyond regs] →
    ∃ k : Cane, Completes i m s s.fall 1 k ∧ k = { s.cur with a := k.a }
      ∧ ∀ r, k.aff r = if r = d.toNat ∧ s.cur.active ≠ 0#32 then x s (firstLane s.cur.active) else s.cur.aff r)
  ∧ ∀ (i : Instr) (m : Marks) (d : BitVec 6) (regs : List Nat) (x : State → Nat → Dword) (s : State),
    pairOf i = some (m, d, regs, x) →
    Ready s (operandLanes m.u s.cur.active) regs [s.cur.beyond ([2 * d.toNat, 2 * d.toNat + 1] ++ regs)] →
    ∃ k : Cane, Completes i m s s.fall (vecCycles m.u s.cur.active [regs]) k
      ∧ k = { s.cur with v := k.v, rowPoison := k.rowPoison }
      ∧ (∀ l < 32, s.cur.active.getLsbD l = true → k.V64 (2 * d.toNat) l = x s (srcLane m.u s.cur.active l))
      ∧ ∀ r l, l < 32 → (s.cur.active.getLsbD l = true → r ≠ 2 * d.toNat ∧ r ≠ 2 * d.toNat + 1) →
          k.V r l = s.cur.V r l

/-- R184, R186, R187: SHFL, SHFLX and BCAST give each active lane the value of A in its source lane, under U in the first
active lane. REDC and SCAN write the sums of their trees in each active lane, with the flags of every addition made; under
an integer type without SAT, each element is the sum of that element over the active lanes that the instruction names,
modulo 2^w (R55). -/
def Obligations.ShufflesMoveAndLaneSumsWrite : Prop :=
  (∀ (i : Instr) (m : Marks) (d a b : BitVec 7) (sel : State → Nat → Nat → Nat) (s : State),
    shuffleOf i = some (m, d, a, b, sel) →
    (∀ x ∈ s.cur.vChecks (fun _ => true) false [d, a, b], x.1 = false) →
    (∀ x ∈ s.cur.rowPoison, x / 4 ∉ s.cur.blockReads s.cur.is64 [a, b]) →
    OnLanes i m s d [a, b] false 0 (fun o l v => v = s.cur.val s.cur.is64 (a.toNat + o)
      (if m.u then firstLane s.cur.active else sel s (b.toNat + o) l)) fun _ _ _ => 0#32)
  ∧ (∀ (i : Instr) (m : Marks) (d a : BitVec 7) (inSum : Nat → Nat → Bool)
    (tree : Cane → ElemType → (Nat → TreeVal) → Nat → TreeVal) (ty : ElemType) (s : State),
    sumOf i = some (m, d, a, inSum, tree) → s.cur.etype = some ty →
    Ready s (operandLanes m.u s.cur.active) (s.cur.blockReads s.cur.is64 [a]) (s.cur.sumChecks d a) →
    let res (o l : Nat) : LaneRes := (tree s.cur ty (fun k =>
      if s.cur.active.getLsbD k then
        some ⟨s.cur.val s.cur.is64 (a.toNat + o) (srcLane m.u s.cur.active k), 0⟩ else none) l).getD ⟨0, 0⟩
    OnLanes i m s d [a] false 1 (fun o l v => v = (res o l).value % (if s.cur.is64 then 2 ^ 64 else 2 ^ 32))
      fun o l _ => (res o l).flags)
  ∧ ∀ (c : Cane) (ty : ElemType) (v : Nat → Nat) (mk : Mask) (l j : Nat), ty.isInt = true → c.sat = false →
    c.etype = some ty → l < 32 → mk.getLsbD l = true → j < ty.count →
    let leaf : Nat → TreeVal := fun k => if mk.getLsbD k then some ⟨v k, 0⟩ else none
    let sum (p : Nat → Bool) : Int :=
      ((lanes.filter fun k => mk.getLsbD k && p k).map fun k => ((elemBits ty (v k) j : Nat) : Int)).sum
    (∃ x, c.node ty leaf 5 0 = some x ∧ ((elemBits ty x.value j : Nat) : Int) = sum (fun _ => true) % 2 ^ ty.width)
    ∧ ∃ x, c.scanAt ty leaf l = some x
        ∧ ((elemBits ty x.value j : Nat) : Int) = sum (fun k => decide (k ≤ l)) % 2 ^ ty.width

/-! ## Words that execute a word (R21 to R24, R40) -/

/-- R24, R40, R41, R21 to R23: an immx pair executes its word, when that takes an immediate, with the payload above it, and
traps otherwise; a dictionary code executes its entry's word with the code's own S and T, and without a dictionary is NOP
at index 1023 and traps at every other. -/
def Obligations.PairsAndCodesRunTheirWords : Prop :=
  (∀ (s : State) (i : Instr) (w : Word) (x : BitVec 24), encodeWord i = some w → i.wellFormed = true →
    if takesImm w then exec (.immx x w) s = exec i { s with iss := { s.iss with ext := some x } }
    else Traps (.immx x w) s .illegalEncoding)
  ∧ (∀ (m : Marks) (s : State) (j : BitVec 14) (x : BitVec 24),
    (((x ++ j).signExtend 64 : Dword)).extractLsb' 28 36 = 0#36 →
    ∃ t, exec (.immx x (mkFI 0x01 m 0#7 j)) s = .next t ∧ OnlyCane { s with iss := { s.iss with ext := some x } } t
      ∧ GoneTo m s.fall s t
      ∧ t.cur.atRest = { s.cur with mode := (((x ++ j).signExtend 64 : Dword)).extractLsb' 0 32 }.atRest)
  ∧ (∀ (s : State) (i : Instr) (w : Word) (a b : Bool) (n : BitVec 10) (name : Nat × Nat),
    encodeWord i = some w → i.wellFormed = true → s.dictOf (s.wgOf s.cur) = some name →
    withMarks ((s.core s.cur.core).dictEntry name n.toNat) a b = w → exec (.dict a b n) s = exec i s)
  ∧ ∀ (s : State) (a b : Bool) (n : BitVec 10), s.dictOf (s.wgOf s.cur) = none →
    if n = 1023#10 then Completes (.dict a b n) ⟨a, b, false⟩ s s.fall 1 s.cur else Traps (.dict a b n) s .illegalEncoding

/-! ## System (R128 to R135) -/

namespace Sys2Proof.Claims

/-- R18, R129: what SYS.RD of a selector reads in lane l, but for SYS.CYCLE. -/
def sysTable (s : State) (l : Nat) : List (Nat × Nat) :=
  let c := s.cur
  let w := s.wgOf c
  [(0x000, l), (0x001, c.idx), (0x002, w.linear), (0x003, s.clusterNumber c), (0x004, dieNumber (dieOfCore c.core)),
   (0x005, Config.stepping.toNat), (0x007, ((s.imageOf c).codeName s.iss.addr.toNat false).region), (0x008, c.flags.toNat),
   (0x009, c.link.toNat), (0x00A, c.priv), (0x00B, c.lfsr.toNat), (0x00C, (s.core c.core).tagWord), (0x00D, c.qmask.toNat),
   (0x00E, c.mode.toNat), (0x010, c.epc.toNat), (0x011, c.estat.toNat), (0x012, c.emask.toNat), (0x013, c.earg.toNat),
   (0x014, c.tvec.toNat), (0x015, c.gfm.toNat), (0x016, c.batches.length), (0x017, c.stack.length),
   (0x018, s.parcelAddr w.parcel), (0x019, w.priority), (0x01A, c.core % 4), (0x01B, w.member.getD 0xFFFFFFFF),
   (0x01C, w.ncanes), (0x01D, w.scrSize), (0x01E, c.nreg), (0x01F, if w.terrace < 16 then w.terrace else 0xFFFFFFFF),
   (0x020, s.rtime)]

/-- R5, R125, R130: what a write of v to a selector makes of the cane: a read-only one keeps everything. -/
def SysWritten (sel : Nat) (v : Dword) (c k : Cane) : Prop :=
  if sel = 0x008 then
    k = { c with flags := k.flags } ∧ ∀ b, k.flags.getLsbD b = (c.flags.getLsbD b && !(decide (b < 6) && v.getLsbD b))
  else if sel = 0x009 then k = { c with link := v }
  else if sel = 0x00B then k = { c with lfsr := if v.extractLsb' 0 32 = 0#32 then 1#32 else v.extractLsb' 0 32 }
  else if sel = 0x010 then k = { c with epc := v }
  else if sel = 0x011 then
    k = { c with estat := k.estat } ∧ ∀ b < 32, k.estat.getLsbD b = if b < 10 then v.getLsbD b else c.estat.getLsbD b
  else if sel = 0x012 then k = { c with emask := v.extractLsb' 0 32 }
  else if sel = 0x013 then k = { c with earg := v.extractLsb' 0 32 }
  else if sel = 0x014 then
    k = { c with tvec := v, estat := k.estat } ∧ (c.priv < 4 → bitsAt k.estat 10 2 = c.priv
      ∧ ∀ b < 32, b < 10 ∨ 12 ≤ b → k.estat.getLsbD b = c.estat.getLsbD b)
  else if sel = 0x015 then k = { c with gfm := k.gfm } ∧ ∀ b, k.gfm.getLsbD b = (c.gfm.getLsbD b && !v.getLsbD b)
  else k = c

/-- The value that SYS.WR takes from D: of a pair for a 64-bit selector, in the first unguarded lane (R130). -/
def sysSource (s : State) (d : BitVec 7) (i : BitVec 12) : Dword :=
  if sysWide i then s.cur.V64 d.toNat (firstLane s.cur.unguarded)
  else (s.cur.V d.toNat (firstLane s.cur.unguarded)).zeroExtend 64

end Sys2Proof.Claims

/-- R18, R129, R130: SYS.RD writes its selector's value in the unguarded lanes of D and changes nothing else; of SYS.CYCLE,
the cluster's cycles, with those that passed without an issue counted: a free number (log entry 20) that joins at the read
(the model's choice, log entry 21). -/
def Obligations.SysRdReadsSelectors : Prop :=
  ∀ (m : Marks) (d : BitVec 7) (i : BitVec 12) (s : State),
    s.wide.1 = false → (s.cur.beyond (sysRegs (sysWide i) d.toNat)).1 = false →
    (i.toNat ≠ 0x006 → ∃ k : Cane, Completes (.sysRd m d i) m s s.fall 1 k
      ∧ k = { s.cur with v := k.v, rowPoison := k.rowPoison }
      ∧ (∀ l < 32, s.cur.unguarded.getLsbD l = true → ∀ x, (i.toNat, x) ∈ sysTable s (srcLane m.u s.cur.unguarded l) →
          k.val (sysWide i) d.toNat l = x % 2 ^ (if sysWide i then 64 else 32))
      ∧ ∀ r l, l < 32 → (s.cur.unguarded.getLsbD l = true → r ∉ sysRegs (sysWide i) d.toNat) → k.V r l = s.cur.V r l)
    ∧ (i.toNat = 0x006 → ∃ t, exec (.sysRd m d i) s = .next t ∧ GoneTo m s.fall s t ∧ t.mem = s.mem
      ∧ t.freeCount = s.freeCount + 1
      ∧ ∀ l < 32, s.cur.unguarded.getLsbD l = true →
          t.cur.V64 d.toNat l = BitVec.ofNat 64 ((s.cluster (clusterOfCore s.cur.core)).cycle + Config.idleCycles s.freeCount))

/-- R5, R16, R35, R130: SYS.WR writes its selector by the access code of each field, and keeps the cane when no lane is
left; level U may not write the exception registers, and an address register takes no value with bit 63 set. -/
def Obligations.SysWrWritesFields : Prop :=
  ∀ (m : Marks) (d : BitVec 7) (i : BitVec 12) (s : State),
    Ready s (operandLanes true s.cur.unguarded) (sysRegs (sysWide i) d.toNat) [s.wide, s.cur.beyond (sysRegs (sysWide i) d.toNat)] →
    let v := sysSource s d i
    if 0x010 ≤ i.toNat ∧ i.toNat ≤ 0x014 ∧ s.cur.priv = 0 then Traps (.sysWr m d i) s .privilege
    else if s.cur.unguarded = 0#32 then Completes (.sysWr m d i) m s s.fall 1 s.cur
    else if (i.toNat = 0x009 ∨ i.toNat = 0x010 ∨ i.toNat = 0x014) ∧ v.getLsbD 63 = true then
      Traps (.sysWr m d i) s .illegalEncoding
    else ∃ k : Cane, Completes (.sysWr m d i) m s s.fall 1 k ∧ SysWritten i.toNat v s.cur k

/-- R131, R354, R383: PERF.RD writes a 64-bit counter in the unguarded lanes of a pair: a counter of the core, or what the
power controller holds for a cluster, and all ones for a logical cluster that the terrace does not have. -/
def Obligations.PerfRdReadsCounters : Prop :=
  ∀ (m : Marks) (d : BitVec 6) (i : BitVec 12) (s : State),
    s.wide.1 = false → (s.cur.beyond [2 * d.toNat, 2 * d.toNat + 1]).1 = false →
    let c := s.cluster (clusterOfCore s.cur.core)
    let power (c : Cluster) (x : Nat) : Prop := c.ratio ≤ 65536 → c.point < 8 → c.target < 8 →
      x % 2 ^ 17 = c.ratio ∧ x / 2 ^ 17 % 8 = c.point ∧ x / 2 ^ 20 % 8 = (if c.stage = .idle then c.point else c.target)
        ∧ x / 2 ^ 23 % 2 = (if c.stage = .idle then 0 else 1) ∧ x / 2 ^ 32 = c.sampleSeq % 2 ^ 32
    ∃ (k : Cane) (x : Nat), Completes (.perfRd m d i) m s s.fall 1 k
      ∧ k = { s.cur with v := k.v, rowPoison := k.rowPoison }
      ∧ (∀ l < 32, s.cur.unguarded.getLsbD l = true → k.V64 (2 * d.toNat) l = BitVec.ofNat 64 x)
      ∧ (∀ r l, l < 32 → (s.cur.unguarded.getLsbD l = true → r ≠ 2 * d.toNat ∧ r ≠ 2 * d.toNat + 1) →
          k.V r l = s.cur.V r l)
      ∧ (i.toNat < 0x040 → x = getI 0 (s.core s.cur.core).perf i.toNat % 2 ^ 64)
      ∧ (i.toNat = 0x040 → power c x) ∧ (i.toNat = 0x041 → x = c.energy) ∧ (i.toNat = 0x042 → x = c.hot)
      ∧ (i.toNat = 0x043 → x = c.switches)
      ∧ (0x050 ≤ i.toNat → i.toNat ≤ 0x05F → match s.clusterOfLogical (s.wgOf s.cur).terrace (i.toNat - 0x050) with
          | some j => power (s.cluster j) x
          | none => x = 2 ^ 64 - 1)

/-- R132, R35, R135: MARK puts a record into the core sample of its die, TRIG meets the conditions of type 2 and its number,
and TLB.INV drops the cached translations of the terrace, or of its virtual device, once the cane's stores have reached
their homes and no earlier walk is left; with no lane left, each only advances PC; TRIG and TLB.INV trap at level U. -/
def Obligations.MarksTriggersAndTlbInv : Prop :=
  ∀ (m : Marks) (s : State), s.wide.1 = false →
    let w := s.wgOf s.cur
    let d := dieOfCore s.cur.core
    (∀ i : BitVec 14, (s.imm i).toNat ≤ 65535 →
      if s.cur.unguarded = 0#32 then Completes (.mark m i) m s s.fall 1 s.cur
      else ∃ t, exec (.mark m i) s = .next t ∧ GoneTo m s.fall s t ∧ t.mem = s.mem
        ∧ (t.die d).sample.events = (s.die d).sample.events + 1
        ∧ ∃ b, (t.die d).sample.slots.head? = some ((s.die d).sample.events % 4096, b) ∧ leField b 0 1 = 2
            ∧ leField b 16 2 = (s.imm i).toNat)
    ∧ (∀ e : BitVec 4, if s.cur.priv = 0 then Traps (.trig m e) s .privilege
      else if s.cur.unguarded = 0#32 ∨ (s.die d).trace.owner = none then Completes (.trig m e) m s s.fall 1 s.cur
      else ∃ t, exec (.trig m e) s = .next t ∧ GoneTo m s.fall s t ∧ t.mem = s.mem
        ∧ ∀ o, (s.die d).trace.owner = some o →
          ((t.die d).trace.start = true ↔ (s.die d).trace.start = true
            ∨ ∃ g ∈ (s.terrace o).dbg.triggers, bitsAt g.start 0 4 = 2 ∧ bitsAt g.start 8 8 = e.toNat))
    ∧ ∀ (i : Instr) (hit : TlbEntry → Bool),
      (i = .tlbInvTerrace m ∧ hit = fun e => e.terrace == w.terrace)
        ∨ (i = .tlbInvVdev m ∧ hit = fun e => e.terrace == w.terrace && e.vdev == w.vdev) →
      if s.cur.priv = 0 then Traps i s .privilege
      else if s.cur.unguarded = 0#32 then Completes i m s s.fall 1 s.cur
      else s.cur.stage = 0 → s.cur.hcnt = 0 → s.walksOf w.terrace = [] →
        ∃ t, exec i s = .next t ∧ GoneTo m s.fall s t ∧ t.mem = s.mem
          ∧ (∀ c e, e ∈ (t.core c).utlb ↔ e ∈ (s.core c).utlb ∧ hit e = false)
          ∧ (∀ k e, e ∈ (t.cluster k).tlb ↔ e ∈ (s.cluster k).tlb ∧ hit e = false)

/-! ## Operating points (R375 to R386) -/

/-- R133, R376, R378, R379, R381 to R386: PWR.REQ answers, in the unguarded lanes of D: while a transition runs, 0 for its
target and 1 for any other point; 2 below the floor; 3 for a raise beyond the energy budget or above HOTLIM; and otherwise
0, or 3 where the package has no energy left, and with 0 a transition to another point begins; level U traps. The events of
a cluster's power controller set its meters, pass the stages of a transition, and follow its hotspots: each event that ends
a window samples one, and HOTSPOT_CLEAR gives HOT any value up to HOTLIM. That a window's slots are counted when its event
comes, that a critical up-step is followed by a down-step to point 0, and that PWR.REQ counts as an outstanding result are
the model's readings (log entry 42), as is that a name of no cluster that the part has is a fault (log entry 60). -/
def Obligations.PowerMoves : Prop :=
  (∀ (m : Marks) (d : BitVec 7) (p : BitVec 3) (s : State),
    Ready s (operandLanes true s.cur.unguarded) [d.toNat] [s.wide, s.cur.beyond [d.toNat]] →
    if s.cur.priv = 0 then Traps (.pwrReq m d p) s .privilege
    else if s.cur.unguarded = 0#32 then Completes (.pwrReq m d p) m s s.fall 1 s.cur
    else match s.powerTarget (s.cur.V d.toNat (firstLane s.cur.unguarded)).toNat with
      | none => Traps (.pwrReq m d p) s .illegalEncoding
      | some i =>
        let k := s.cluster i
        ∃ (t : State) (r : Nat), exec (.pwrReq m d p) s = .next t ∧ GoneTo m s.fall s t ∧ t.mem = s.mem
          ∧ t.cur.outstanding = s.cur.outstanding + 1
          ∧ (∀ l < 32, s.cur.unguarded.getLsbD l = true → t.cur.V d.toNat l = BitVec.ofNat 32 r)
          ∧ (k.stage ≠ .idle → r = (if k.target = p.toNat then 0 else 1) ∧ (t.cluster i).target = k.target
              ∧ (t.cluster i).stage = k.stage)
          ∧ (k.stage = .idle → p.toNat < s.floorOf i → r = 2 ∧ (t.cluster i).stage = .idle)
          ∧ (k.stage = .idle → s.floorOf i ≤ p.toNat → k.point < p.toNat →
              (k.budget ≠ 0 ∧ k.budget * pointPower k.point < k.energy * pointPower p.toNat) ∨ k.hotlim < k.hot →
              r = 3 ∧ (t.cluster i).stage = .idle)
          ∧ (k.stage = .idle → s.floorOf i ≤ p.toNat → k.point < p.toNat → r = 3 ∨ r = 0)
          ∧ (k.stage = .idle → k.point < p.toNat → r = 0 →
              (t.cluster i).stage = .rampUp ∧ (t.cluster i).target = p.toNat)
          ∧ (k.stage = .idle → s.floorOf i ≤ p.toNat → p.toNat < k.point → r = 0 ∧ (t.cluster i).stage = .switchDown
              ∧ (t.cluster i).target = p.toNat ∧ (t.cluster i).issuePaused = true)
          ∧ (k.stage = .idle → s.floorOf i ≤ p.toNat → p.toNat = k.point → r = 0 ∧ (t.cluster i).stage = .idle))
  ∧ ∀ (n : Nat) (x : BitVec 32) (s : State), let k := s.cluster n
    (s.hasCluster n = false → ∀ i ∈ [Instr.energyUpdate n x, .stallRatioSample n x, .voltageSettled n, .frequencySwitchEnd n,
        .hotspotOverLimit n x, .hotspotClear n x, .hotspotCritical n x], exec i s = .fault .noSuchUnit)
    ∧ (s.hasCluster n = true →
      exec (.energyUpdate n x) s = .next (s.setCluster n { k with energy := x.toNat })
      ∧ (k.window < s.rtime / 10 → ∃ t, exec (.stallRatioSample n x) s = .next t
          ∧ (t.cluster n).ratio = stallRatio ((t.slotCounts n).1 - k.windowBase.1) ((t.slotCounts n).2 - k.windowBase.2)
          ∧ (t.cluster n).sampleSeq = k.sampleSeq + 1 ∧ (t.cluster n).window = k.window + 1
          ∧ (t.cluster n).windowBase = t.slotCounts n)
      ∧ (s.rtime / 10 ≤ k.window → exec (.stallRatioSample n x) s = .next s)
      ∧ (k.stage = .rampUp → k.critical = false → ∃ t, exec (.voltageSettled n) s = .next t ∧ t.mem = s.mem
          ∧ (t.cluster n = { k with stage := .switchUp, issuePaused := true, switches := k.switches + 1,
                                    cycle := (t.cluster n).cycle })
          ∧ (k.issuePaused = false → (t.cluster n).cycle = k.cycle) ∧ ∀ j, j ≠ n → t.cluster j = s.cluster j)
      ∧ (k.stage = .rampUp → k.critical = true → ∃ t, exec (.voltageSettled n) s = .next t
          ∧ (t.cluster n).stage = .switchDown ∧ (t.cluster n).target = 0 ∧ (t.cluster n).issuePaused = true)
      ∧ (k.stage = .rampDown → k.critical = false → k.toSeven = false → (s.matmulOn n = false ∨ 2 ≤ k.point) →
          ∃ t, exec (.voltageSettled n) s = .next t ∧ (t.cluster n).stage = .idle ∧ (t.cluster n).point = k.point)
      ∧ (k.stage = .switchDown → ∃ t, exec (.frequencySwitchEnd n) s = .next t ∧ t.mem = s.mem
          ∧ (t.cluster n = { k with point := k.target, stage := .rampDown, issuePaused := k.critical,
                                    cycle := (t.cluster n).cycle })
          ∧ (k.issuePaused = true → (t.cluster n).cycle = k.cycle + Config.idleCycles s.freeCount)
          ∧ ∀ j, j ≠ n → t.cluster j = s.cluster j)
      ∧ (k.stage = .switchUp → k.critical = false → k.toSeven = false → (s.matmulOn n = false ∨ 2 ≤ k.target) →
          ∃ t, exec (.frequencySwitchEnd n) s = .next t ∧ (t.cluster n).stage = .idle ∧ (t.cluster n).point = k.target
            ∧ (t.cluster n).issuePaused = false)
      ∧ (x.toNat < 65536 → k.hotlim < x.toNat → ∃ t, exec (.hotspotOverLimit n x) s = .next t
          ∧ (t.cluster n).hot = x.toNat ∧ (t.cluster n).serialPaused = true)
      ∧ (if x.toNat ≤ k.hotlim then ∃ t, exec (.hotspotClear n x) s = .next t ∧ (t.cluster n).hot = x.toNat
          ∧ (t.cluster n).serialPaused = (k.serialPaused && decide (k.hotlim < x.toNat + 48))
        else exec (.hotspotClear n x) s = .next s)
      ∧ (x.toNat < 65536 → k.hotlim + 80 < x.toNat → ∃ t, exec (.hotspotCritical n x) s = .next t
          ∧ (t.cluster n).hot = x.toNat ∧ (t.cluster n).serialPaused = true
          ∧ (k.critical = false → k.stage = .idle → k.point ≠ 0 → (t.cluster n).target = 0
              ∧ (t.cluster n).stage = .switchDown ∧ (t.cluster n).issuePaused = true)))

/-! ## SUP (R134, R309 to R314, R333, R340 to R350) -/

namespace Sys2Proof.Claims

/-- R134, R349: the SUP functions, each with its level and the bytes of its argument block, 0 where A is the argument
itself. -/
def supOf : Instr → Option (Marks × BitVec 7 × Nat × Nat)
  | .faultResume m d => some (m, d, 1, 14)
  | .faultRetire m d => some (m, d, 1, 14)
  | .fqSet m d => some (m, d, 1, 9)
  | .s1Root m d => some (m, d, 1, 17)
  | .vdSelect m d => some (m, d, 1, 0)
  | .s1Page m d => some (m, d, 1, 16)
  | .decantSet m d => some (m, d, 1, 40)
  | .decantClr m d => some (m, d, 1, 0)
  | .urgent m d => some (m, d, 1, 8)
  | .supDrain m d => some (m, d, 1, 8)
  | .terraceGet m d => some (m, d, 2, 64)
  | .terraceSet m d => some (m, d, 2, 384)
  | .terraceCommit m d => some (m, d, 2, 0)
  | .terraceQuiesce m d => some (m, d, 2, 0)
  | .terraceOff m d => some (m, d, 2, 0)
  | .keyLoad m d => some (m, d, 2, 48)
  | .terraceScrub m d => some (m, d, 2, 0)
  | .s2Inv m d => some (m, d, 2, 0)
  | .s2Page m d => some (m, d, 2, 16)
  | .headlandRevoke m d => some (m, d, 2, 0)
  | .terraceSave m d => some (m, d, 2, 16)
  | .terraceRestore m d => some (m, d, 2, 16)
  | .stewardSet m d => some (m, d, 2, 33)
  | .mfqSet m d => some (m, d, 2, 9)
  | _ => none

/-- A SUP of a level starts: its checks pass, a lane is left, everything earlier of the cane is performed, and no other
SUP is under way (R349). -/
structure Called (s : State) (d : BitVec 7) (level : Nat) : Prop where
  ready : Ready s (operandLanes true s.cur.unguarded) [d.toNat] [s.wide, s.cur.beyond [d.toNat], s.below level]
  lanes : s.cur.unguarded ≠ 0#32
  first : s.cur.stage = 0
  released : s.cur.released 5 = true
  alone : s.sups = []

/-- R134: the argument A, read through uread. -/
def supArg (s : State) (d : BitVec 7) : Nat := (s.cur.V d.toNat (firstLane s.cur.unguarded)).toNat

/-- R349: the argument block of n bytes lies within the workgroup's scratch, at a multiple of 64. -/
def InScratch (s : State) (d : BitVec 7) (n : Nat) : Prop :=
  supArg s d % 64 = 0 ∧ supArg s d + n ≤ (s.wgOf s.cur).scrSize

/-- R349, R209: the argument block lies in scratch, and none of it is poisoned. -/
def HasBlock (s : State) (d : BitVec 7) (n : Nat) : Prop :=
  InScratch s d n ∧ s.scratchPoisoned (s.wgOf s.cur).id (supArg s d) n = false

/-- A field of the argument block: n bytes from byte lo. -/
def arg (s : State) (d : BitVec 7) (len lo n : Nat) : Nat :=
  leField (Memory.readBytes (s.wgOf s.cur).scratch (supArg s d) len) lo n

/-- The function completes with a status in the unguarded lanes of D, in a state that p holds of; PC moves on, and memory
at its home is as p says. -/
def Answers (i : Instr) (m : Marks) (s : State) (d : BitVec 7) (status : Nat) (p : State → Prop) : Prop :=
  ∃ t, exec i s = .next t ∧ GoneTo m s.fall s t
    ∧ (∀ l < 32, s.cur.unguarded.getLsbD l = true → t.cur.V d.toNat l = BitVec.ofNat 32 status) ∧ p t

/-- R309: no cane is fault-parked. -/
def NoneFaulted (s : State) : Prop := ∀ c ∈ s.canes, c.wait ≠ .fault

/-- R310: in t the header of an empty queue of an order is on its way to an address of a context; once its home has applied
what the context's die shows (R217) the next step writes it there, and no other byte. -/
def QueueSet (s t : State) (x : Ctx) (base order : Nat) : Prop :=
  let q : Post := ⟨x.terrace, x.vdev, x.die, x.parcel, [], base,
    leBytes 4 0x51554146 ++ leBytes 1 order ++ List.replicate 59 0#8, false⟩
  t.mem = s.mem ∧ t.posts = s.posts ++ [q]
    ∧ ∀ pa, s.posts = [] → s.ctxTranslate x base needW = some pa → s.reaches x.terrace x.die (s.homeDie pa) = true →
      s.clockCovered x.die (s.homeDie pa) = true →
      (∀ i < 64, t.settlePosts.homeByte (pa + i) = getI 0#8 q.bytes i)
        ∧ ∀ y, y < pa ∨ pa + 64 ≤ y → t.settlePosts.homeByte y = s.homeByte y

/-- Neither memory at its home nor any terrace has changed. -/
def Untouched (s t : State) : Prop := t.mem = s.mem ∧ t.terraces = s.terraces

/-- No core and no cluster holds a translation for which p holds. -/
def NoTlb (t : State) (p : TlbEntry → Prop) : Prop :=
  (∀ c, ∀ e ∈ (t.core c).utlb, ¬ p e) ∧ ∀ k, ∀ e ∈ (t.cluster k).tlb, ¬ p e

end Sys2Proof.Claims

/-- R134, R35, R349: SUP traps PRIVILEGE below its function's level and only advances PC with no lane left; it waits until
the cane's stores have reached their homes; a level 1 function of a cane on no terrace answers 6, and a block that is not at a
multiple of 64 within SYS.SCRSZ answers 3, with no other effect. A poisoned block traps POISONED_DATA, which R209 does not
list (the model's reading, log entry 30). A function waits for an earlier one on its terrace. -/
def Obligations.SupCallsAreChecked : Prop :=
  ∀ (i : Instr) (m : Marks) (d : BitVec 7) (level n : Nat) (s : State), supOf i = some (m, d, level, n) →
    (Ready s (operandLanes true s.cur.unguarded) [d.toNat] [s.wide, s.cur.beyond [d.toNat]] → s.cur.priv < level → Traps i s .privilege)
    ∧ (Ready s (operandLanes true s.cur.unguarded) [d.toNat] [s.wide, s.cur.beyond [d.toNat], s.below level] → s.cur.unguarded = 0#32 →
        Completes i m s s.fall 1 s.cur)
    ∧ (Ready s (operandLanes true s.cur.unguarded) [d.toNat] [s.wide, s.cur.beyond [d.toNat], s.below level] → s.cur.unguarded ≠ 0#32 →
        s.cur.stage = 0 → s.cur.released 5 = false → exec i s = .next (s.park (.release 5)))
    ∧ (Called s d level → level = 1 → 16 ≤ (s.wgOf s.cur).terrace → Answers i m s d 6 (Untouched s))
    ∧ (Called s d level → (level = 1 → (s.wgOf s.cur).terrace < 16) → 0 < n →
        (¬ InScratch s d n → Answers i m s d 3 (Untouched s))
        ∧ (InScratch s d n → s.scratchPoisoned (s.wgOf s.cur).id (supArg s d) n = true → Traps i s .poisonedData))
    ∧ (i = .terraceCommit m d → Ready s (operandLanes true s.cur.unguarded) [d.toNat] [s.wide, s.cur.beyond [d.toNat], s.below level] →
        s.cur.unguarded ≠ 0#32 → s.cur.stage = 0 → s.cur.released 5 = true →
        ∀ c, s.supFirst (supArg s d) = some c → c ≠ s.cur.id →
          ∃ t, exec i s = .next t ∧ t.cur.wait = .sup ∧ t.cur.pc = s.cur.pc ∧ Untouched s t)

/-- R309, R310, R314, R313, R344, R349, R259: what each function of level S does when nothing refuses it: status 0, and its
effect. That DECANT.CLR succeeds on an invalid handle and how a parcel is named are the model's readings (log entry 51), and
the home of a decant entry is its choice (log entry 63). -/
def Obligations.SupervisorFunctionsSucceed : Prop :=
  ∀ (m : Marks) (d : BitVec 7) (s : State), Called s d 1 → (s.wgOf s.cur).terrace < 16 →
    let w := s.wgOf s.cur
    let n := w.terrace
    let a := supArg s d
    let x : Ctx := ⟨n, w.vdev, dieOfCore s.cur.core, none⟩
    (HasBlock s d 14 → ∀ c, s.faultedCane (Memory.readBytes w.scratch a 14) = some c →
      Answers (.faultResume m d) m s d 0 (fun t => t.mem = s.mem
          ∧ ∀ k ∈ t.others, k.id = c.id → k.live = true → k.wait = .none)
      ∧ Answers (.faultRetire m d) m s d 0 (fun t => t.mem = s.mem ∧ ∀ k ∈ t.others, k.id ≠ c.id))
    ∧ (HasBlock s d 9 →
        let base := arg s d 9 0 8
        let order := arg s d 9 8 1
        base % 64 = 0 → base < 2 ^ 52 → 4 ≤ order → order ≤ 16 → s.ctxPagesOk x base (64 + 32 * 2 ^ order) needRW = true →
        (∀ e ∈ s.transEntries, e.queue ≠ n) → Memory.wf s.mem = true →
        Answers (.fqSet m d) m s d 0 fun t =>
          QueueSet s t x base order ∧ (t.terrace n).faultQueue = some ⟨base, order, w.vdev⟩)
    ∧ (HasBlock s d 17 → arg s d 17 0 1 < (s.terrace n).part.vdevs → arg s d 17 1 7 = 0 →
        rootBad (arg s d 17 8 8) (arg s d 17 16 1) = false → s.walksOf n = [] →
        Answers (.s1Root m d) m s d 0 fun t => t.mem = s.mem
          ∧ getI none (t.terrace n).roots (arg s d 17 0 1) = some ⟨arg s d 17 8 8, arg s d 17 16 1⟩
          ∧ NoTlb t fun e => e.terrace = n ∧ e.vdev = arg s d 17 0 1)
    ∧ (if a < (s.terrace n).part.vdevs then
        Answers (.vdSelect m d) m s d 0 fun t => t.mem = s.mem ∧ (t.terrace n).vdev = a
      else Answers (.vdSelect m d) m s d 3 (Untouched s))
    ∧ (HasBlock s d 16 → arg s d 16 0 1 < (s.terrace n).part.vdevs → arg s d 16 1 7 = 0 → arg s d 16 8 8 < 2 ^ 52 →
        s.walksOf n = [] → Answers (.s1Page m d) m s d 0 fun t => Untouched s t
          ∧ NoTlb t fun e => e.terrace = n ∧ e.vdev = arg s d 16 0 1 ∧ e.meets (arg s d 16 8 8) = true)
    ∧ (HasBlock s d 40 → s.decantBad n (Memory.readBytes w.scratch a 40) = false →
        (s.decantEntry n (arg s d 40 0 1)).valid = false →
        (∀ e ∈ (s.terrace n).decants, e.valid = true →
          ¬ (arg s d 40 8 8 < e.base + e.size ∧ e.base < arg s d 40 8 8 + arg s d 40 16 8)) → s.walksOf n = [] →
        let e : DecantEntry :=
          ⟨arg s d 40 8 8, arg s d 40 16 8, arg s d 40 24 8, arg s d 40 32 8, true, false, 0, [], 0⟩
        Answers (.decantSet m d) m s d 0 fun t => t.mem = s.mem ∧ t.decantEntry n (arg s d 40 0 1)
          = { e with home := s.decantHome (dieOfCore s.cur.core) n e })
    ∧ (if 255 < a then Answers (.decantClr m d) m s d 3 (Untouched s)
      else s.walksOf n = [] → Answers (.decantClr m d) m s d 0 fun t =>
        t.mem = s.mem ∧ (t.decantEntry n a).valid = false)
    ∧ (HasBlock s d 8 → match s.namedParcel (arg s d 8 0 8) with
      | none => Answers (.urgent m d) m s d 6 (Untouched s) ∧ Answers (.supDrain m d) m s d 6 (Untouched s)
      | some p =>
        Answers (.urgent m d) m s d 0 (fun t => (NoneFaulted s → t.mem = s.mem)
          ∧ ∀ k ∈ t.tasks, k.parcel = some p.id → k.status = .running → k.isMatmul = true → k.stopping = true)
        ∧ Answers (.supDrain m d) m s d 0 (fun t => t.mem = s.mem
          ∧ (∀ k ∈ t.tasks, k.parcel = some p.id → k.status = .running → k.isMatmul = true → k.stopping = true)
          ∧ ∀ q ∈ t.parcels, q.id = p.id → q.drained = true))

/-- R333, R339, R340 to R342, R346 to R350, R311, R419: what each function of level M does when nothing refuses it: status 0,
and its effect; COMMIT, OFF, KEY.LOAD and SCRUB once the terrace's writes have reached their homes, and COMMIT once no walk
of it is left. That S2.PAGE drops every translation of its terrace, that SET of an OFF terrace changes the pending entry
alone and that SCRUB writes under the terrace's own keys are the model's readings (log entry 51), as are details of SAVE and
RESTORE (log entry 52). -/
def Obligations.ManagementFunctionsSucceed : Prop :=
  ∀ (m : Marks) (d : BitVec 7) (s : State), Called s d 2 →
    let w := s.wgOf s.cur
    let a := supArg s d
    let st (n : Nat) : TerraceState := (s.terrace n).part.state
    let idle (n : Nat) : Prop := s.writesDone n = true
    (HasBlock s d 64 → arg s d 64 0 1 < 16 → arg s d 64 1 63 = 0 → a + 256 ≤ w.scrSize → Memory.wf w.scratch = true →
      Answers (.terraceGet m d) m s d 0 fun t => Untouched s t
        ∧ Memory.readBytes (t.wgOf t.cur).scratch a 256 = (s.entryOf (arg s d 64 0 1)).bytes (arg s d 64 0 1))
    ∧ (HasBlock s d 384 → arg s d 384 0 1 < 16 → arg s d 384 1 127 = 0 →
        let n := arg s d 384 0 1
        let b := (Memory.readBytes w.scratch a 384).drop 128
        let e := PartEntry.ofBytes b (st n)
        if s.entryBad b then Answers (.terraceSet m d) m s d 3 (Untouched s)
        else if st n = .quiescing ∨ (st n = .running ∧ e.fixedPart ≠ (s.terrace n).part.fixedPart) then
          Answers (.terraceSet m d) m s d 4 (Untouched s)
        else if s.overlapBad n e then Answers (.terraceSet m d) m s d 5 (Untouched s)
        else if e.quantumBad then Answers (.terraceSet m d) m s d 1 (Untouched s)
        else Answers (.terraceSet m d) m s d 0 fun t => t.mem = s.mem
          ∧ if st n = .running then (t.terrace n).part = e
            else (t.terrace n).part = (s.terrace n).part ∧ (t.terrace n).pending = some e)
    ∧ (a < 16 →
      (if st a = .running ∨ st a = .quiescing then Answers (.terraceCommit m d) m s d 4 (Untouched s)
       else if (s.terrace a).steward = none then Answers (.terraceCommit m d) m s d 6 (Untouched s)
       else (s.commit a).stewardTask a ≠ none → idle a → s.walksOf a = [] →
         Answers (.terraceCommit m d) m s d 0 fun t => (t.terrace a).part.state = .running
           ∧ (t.terrace a).pending = none)
      ∧ (if st a = .running then s.walksOf a = [] →
          Answers (.terraceQuiesce m d) m s d 0 fun t => (NoneFaulted s → t.mem = s.mem)
            ∧ (t.terrace a).part.state = .quiescing
        else Answers (.terraceQuiesce m d) m s d 4 (Untouched s))
      ∧ (if st a = .running ∨ st a = .quiescing then Answers (.terraceOff m d) m s d 4 (Untouched s)
        else if st a = .off then Answers (.terraceOff m d) m s d 0 (Untouched s)
        else idle a → s.walksOf a = [] →
          Answers (.terraceOff m d) m s d 0 fun t => t.mem = s.mem ∧ (t.terrace a).part.state = .off
            ∧ (∀ p ∈ t.parcels, p.terrace ≠ a) ∧ ∀ k < 128, (t.cluster k).owner ≠ some a)
      ∧ (if st a = .off then idle a → Answers (.terraceScrub m d) m s d 0 fun t =>
          ∀ r ∈ (s.entryOf a).regions, ∀ x, r.base ≤ x → x < r.base + r.size → s.keyOf x = a → t.homeByte x = 0#8
        else Answers (.terraceScrub m d) m s d 4 (Untouched s))
      ∧ (s.walksOf a = [] → Answers (.s2Inv m d) m s d 0 fun t => Untouched s t ∧ NoTlb t fun e => e.terrace = a))
    ∧ (HasBlock s d 48 → arg s d 48 0 1 < 16 → arg s d 48 1 15 = 0 → arg s d 48 16 16 ≠ arg s d 48 32 16 →
        let n := arg s d 48 0 1
        if st n = .off then idle n → Answers (.keyLoad m d) m s d 0 fun t => t.mem = s.mem
          ∧ (t.terrace n).dataKey = BitVec.ofNat 128 (arg s d 48 16 16)
          ∧ (t.terrace n).tweakKey = BitVec.ofNat 128 (arg s d 48 32 16)
        else Answers (.keyLoad m d) m s d 4 (Untouched s))
    ∧ (HasBlock s d 16 → arg s d 16 0 1 < 16 → arg s d 16 1 7 = 0 →
        let n := arg s d 16 0 1
        let pa := arg s d 16 8 8
        (pa < 2 ^ 52 → s.walksOf n = [] →
          Answers (.s2Page m d) m s d 0 fun t => Untouched s t ∧ NoTlb t fun e => e.terrace = n)
        ∧ (imageFits pa (s.saveImage n).length = true →
          if st n = .quiesced then Answers (.terraceSave m d) m s d 0 fun t =>
            t.mem = s.mem ∧ s.flights.length < t.flights.length
          else Answers (.terraceSave m d) m s d 4 (Untouched s))
        ∧ (if st n = .off then match s.readImage pa with
          | none => Answers (.terraceRestore m d) m s d 3 (Untouched s)
          | some img => if rankIn (s.entryOf n).guaranteed 128 < leField img 4 2 then
              Answers (.terraceRestore m d) m s d 2 (Untouched s)
            else s.walksOf n = [] → Answers (.terraceRestore m d) m s d 0 fun t =>
              t.mem = s.mem ∧ (t.terrace n).part.state = .quiesced ∧ NoTlb t fun e => e.terrace = n
          else Answers (.terraceRestore m d) m s d 4 (Untouched s)))
    ∧ (if 127 < a then Answers (.headlandRevoke m d) m s d 3 (Untouched s)
      else if (s.cluster a).lender = none then Answers (.headlandRevoke m d) m s d 6 (Untouched s)
      else Answers (.headlandRevoke m d) m s d 0 fun t => (NoneFaulted s → t.mem = s.mem)
        ∧ (t.cluster a).revoking = true)
    ∧ (HasBlock s d 33 → arg s d 33 0 1 < 16 → arg s d 33 1 7 = 0 → rootBad (arg s d 33 24 8) (arg s d 33 32 1) = false →
        let n := arg s d 33 0 1
        if st n = .off ∨ st n = .quiesced then Answers (.stewardSet m d) m s d 0 fun t => t.mem = s.mem
          ∧ (t.terrace n).steward
            = some ⟨arg s d 33 8 8, arg s d 33 16 8, arg s d 33 24 8, arg s d 33 32 1⟩
        else Answers (.stewardSet m d) m s d 4 (Untouched s))
    ∧ (HasBlock s d 9 →
        let base := arg s d 9 0 8
        let order := arg s d 9 8 1
        base % 64 = 0 → base < 2 ^ 52 → 4 ≤ order → order ≤ 16 →
        s.ctxPagesOk ⟨mgmt, 0, dieOfCore s.cur.core, none⟩ base (64 + 32 * 2 ^ order) needRW = true →
        (∀ e ∈ s.transEntries, e.queue ≠ mgmt) → Memory.wf s.mem = true →
        Answers (.mfqSet m d) m s d 0 fun t =>
          QueueSet s t ⟨mgmt, 0, dieOfCore s.cur.core, none⟩ base order ∧ (t.terrace mgmt).faultQueue = some ⟨base, order, 0⟩)

/-! ## Memory (R200 to R243) -/

namespace Sys2Proof.Claims

/-- Where a byte of an access lies: in memory, in a workgroup's scratch, or in the issuing cane's register window. -/
inductive Spot where
  | glob (pa : Nat)
  | scr (wg off : Nat)
  | reg (off : Nat)
  deriving DecidableEq, Repr

/-- The places of a segment's bytes, upward. -/
def spots : Seg → List Spot
  | .glob pa n => (List.range n).map fun i => .glob (pa + i)
  | .scr wg off n => (List.range n).map fun i => .scr wg (off + i)
  | .reg off n => (List.range n).map fun i => .reg (off + i)
  | _ => []

/-- What the last of some byte writes leaves at a place. -/
def lastAt (q : Spot) (ws : List (Spot × Byte)) : Option Byte := ((ws.filter fun x => x.1 == q).getLast?).map (·.2)

/-- The byte at a place, as the home, the workgroup's scratch and the register file hold it. -/
def held (s : State) : Spot → Byte
  | .glob pa => s.homeByte pa
  | .scr wg off => Memory.read (s.scratchOf wg) off
  | .reg off => getI 0#8 (s.cur.windowBytes off 1) 0

/-- The byte at a place, as the issuing cane reads it at its die: a copy under another key id is a miss (R210). -/
def heldAtDie (s : State) : Spot → Byte
  | .glob pa => s.byteFor (s.wgOf s.cur).terrace (dieOfCore s.cur.core) pa
  | q => held s q

/-- R201: the accesses of n bytes of these lanes, given with their addresses, pass every check, reach memory, scratch or
registers where `segs` says, and meet no poison; no debugger is attached. -/
structure Reaches (s : State) (f : MemForm) (n : Nat) (ls : List (Nat × Nat)) (segs : Nat → List Seg) : Prop where
  free : (s.terrace (s.wgOf s.cur).terrace).dbg.attach = false
  inside : ∀ x ∈ ls, s.laneFault s.cur f x.2 n = none
  mapped : ∀ x ∈ ls, s.laneTranslate s.cur f x.2 n = .ok (segs x.1)
  plain : ∀ x ∈ ls, ∀ g ∈ segs x.1, (spots g).length = g.size ∧ s.segPoisoned f.view g = false

/-- Memory, scratch and FIFO banks are in their canonical form. -/
def Canonical (s : State) : Prop :=
  Memory.wf s.mem = true ∧ (∀ w ∈ s.workgroups, Memory.wf w.scratch = true)
    ∧ ∀ c ∈ s.cores, Memory.wf c.fifo = true

/-- R217: a die has applied the causal past of what it reads in a line. -/
def Applied (s : State) (d line : Nat) : Prop :=
  s.covers d (s.pastOf line) = true ∧ ∀ x ∈ (s.die d).l2, x.line = line → s.covers d x.past = true

/-- Every line of some segments has its past applied at the issuing cane's die. -/
def AllApplied (s : State) (gs : List Seg) : Prop :=
  ∀ pa n, Seg.glob pa n ∈ gs → ∀ line ∈ linesOf pa n, Applied s (dieOfCore s.cur.core) line

/-- The caches, the requests to the channels, the FIFO of the cluster and the counters of the issue slots may have changed
beside the issuing cane; every byte of memory reads as before. -/
structure OnlyRead (s t : State) : Prop where
  rest : t = { s with cur := t.cur, cores := t.cores, clusters := t.clusters, dies := t.dies, terraces := t.terraces,
                      channels := t.channels, cellar := t.cellar, freeCount := t.freeCount }
  cores : ∀ i, ∃ p u l, t.core i = { s.core i with perf := p, utlb := u, l1 := l }
  clusters : ∀ k, ∃ n o, t.cluster k = { s.cluster k with cycle := n, outbound := o }
  dies : ∀ d, ∃ l n f, t.die d = { s.die d with l2 := l, monitor := n, filled := f }
  terraces : ∀ k, ∃ n, t.terrace k = { s.terrace k with usage := { (s.terrace k).usage with bytes := n } }
  bytes : SameBytes s t

/-- Nothing of the issuing cane is recorded, replayed or held at a gate (R366 to R372). -/
structure Unlogged (s : State) : Prop where
  off : (s.terrace (s.wgOf s.cur).terrace).dbg.replayActive = 0
  runs : (s.terrace (s.wgOf s.cur).terrace).dbg.runs = []
  held : ∀ h ∈ s.heldReds, h.cane ≠ s.cur.id
  hash : s.backlog? s.cur.id = none

/-- R377: the request beats that some accesses of the issuing cane have yet to enter. -/
def toEnter (s : State) (f : MemForm) (gs : List Seg) : Nat := s.requestBeats f gs - s.cur.entered

/-- R204 to R206: byte k of a segment reads as the cane reads it at its die; a plain load may read an older copy that its
core's L1 holds (R206). Scratch and registers read exactly. -/
def ByteReads (s : State) (nc : Bool) (q : Spot) (b : Byte) : Prop :=
  b = heldAtDie s q ∨ ∃ pa, q = .glob pa ∧ nc = false
    ∧ ∃ x ∈ (s.core s.cur.core).l1, x.line = lineOf pa ∧ b = getI 0#8 x.bytes (pa % 128)

/-- The loads: their form, whether each leaves L1 aside, acquires, and moves a block, and their fields. -/
def loadOf (s : State) :
    Instr → Option (Marks × MemForm × Bool × Bool × Bool × BitVec 7 × BitVec 7 × BitVec 7)
  | .ld m d a b => some (m, loadForm 1 false, false, false, false, d, a, b)
  | .ldNc m d a b => some (m, loadForm 1 true, true, false, false, d, a, b)
  | .ldBlk m d a b => some (m, loadForm 6 false, false, false, true, d, a, b)
  | .ldAcq m d a b => some (m, { loadForm 4 false with align := if s.cur.is64 then 8 else 4, admits := sharedWindows },
      false, true, false, d, a, b)
  | _ => none

/-- The stores: their form, whether each is signalled, releases, and moves a block, and their fields. -/
def storeOf (s : State) :
    Instr → Option (Marks × MemForm × Bool × Bool × Bool × BitVec 7 × BitVec 7 × BitVec 7)
  | .st m d a b => some (m, storeForm 2, false, false, false, d, a, b)
  | .stBlk m d a b => some (m, storeForm 7, false, false, true, d, a, b)
  | .stRel m d a b => some (m, releaseForm s.cur.is64 s.cur.scope, false, true, false, d, a, b)
  | .stSig m d a b => some (m, releaseForm s.cur.is64 s.cur.scope, true, true, false, d, a, b)
  | _ => none

/-- A cane without what a signalled write changes in it. -/
def unwatched (c : Cane) : Cane := { c with watch := ⟨none, false⟩, wait := .none, answer := none }

/-- A workgroup without its scratch and the notes on its exit record. -/
def unscratched (w : Workgroup) : Workgroup := { w with scratch := [], scrPoison := [], exitRec := none }

/-- The parts of an atomic or a RED: fields, data registers, the check of its data field, the types that it accepts and
those that host memory takes, and the value stored from the old one in a lane (R229). -/
structure AtomParts where
  m : Marks
  dest : Option (BitVec 7)
  base : BitVec 7
  voff : BitVec 7
  data : List Nat
  parity : Bool × Cause
  accepts : ElemType → Bool
  host : ElemType → Bool
  new : Nat → Nat → Nat

/-- An atomic of one data operand at b. -/
def atomParts (s : State) (m : Marks) (accepts host : ElemType → Bool) (d a b : BitVec 7) (f : Nat → Nat → Nat) :
    AtomParts :=
  { m := m, dest := some d, base := a, voff := 127#7,
    data := if s.cur.is64 then [b.toNat, b.toNat + 1] else [b.toNat], parity := oddField s.cur.is64 [b],
    accepts := accepts, host := host, new := fun l o => f o (s.cur.val s.cur.is64 b.toNat l) }

/-- The type in force. -/
def typeOf (s : State) : ElemType := s.cur.etype.getD .i32

/-- R229, R230, R232: what each atomic stores. -/
def atomOf (s : State) : Instr → Option AtomParts
  | .atomAdd m d a b => some (atomParts s m atomSum atomInt d a b fun o x => atomAddBits (typeOf s) o x)
  | .atomMin m d a b => some (atomParts s m atomInt noHost d a b fun o x =>
      if intOf (typeOf s) o ≤ intOf (typeOf s) x then o else x)
  | .atomMax m d a b => some (atomParts s m atomInt noHost d a b fun o x =>
      if intOf (typeOf s) x ≤ intOf (typeOf s) o then o else x)
  | .atomAnd m d a b => some (atomParts s m atomInt noHost d a b fun o x => o &&& x)
  | .atomOr m d a b => some (atomParts s m atomInt noHost d a b fun o x => o ||| x)
  | .atomXor m d a b => some (atomParts s m atomInt noHost d a b fun o x => o ^^^ x)
  | .atomXchg m d a b => some (atomParts s m atomMove atomMove d a b fun _ x => x)
  | .atomCas m d a b =>
    let n := 2 * b.toNat
    let k := if s.cur.is64 then 2 else 1
    some { m := m, dest := some d, base := a, voff := 127#7, data := (List.range (2 * k)).map fun i => n + i,
           parity := (s.cur.is64 && b.getLsbD 0, .illegalEncoding), accepts := atomMove, host := atomMove,
           new := fun l o => if o = s.cur.val s.cur.is64 n l then s.cur.val s.cur.is64 (n + k) l else o }
  | .red m d a b => some
      { m := m, dest := none, base := d, voff := b,
        data := if s.cur.is64 then [a.toNat, a.toNat + 1] else [a.toNat], parity := oddField s.cur.is64 [a],
        accepts := atomSum, host := noHost,
        new := fun l o => atomAddBits (typeOf s) o (s.cur.val s.cur.is64 a.toNat l) }
  | _ => none

/-- R223, R229: the lanes' operations one after another on some contents: what each lane found, and what stands at the
end. -/
def chain (w : Nat) (new : Nat → Nat → Nat) : List (Nat × Seg) → (Spot → Byte) → List (Nat × Nat) × (Spot → Byte)
  | [], c => ([], c)
  | (l, g) :: rest, c =>
    let old := leNat ((spots g).map c)
    let r := chain w new rest fun q => (lastAt q ((spots g).zip (leBytes w (new l old)))).getD (c q)
    ((l, old) :: r.1, r.2)

end Sys2Proof.Claims

/-- R201, R204, R224 to R226: a load puts into each active lane of D, element by element, the bytes at the lane's
address; LD.ACQ also sets the watch and, from cluster scope up, empties L1. It changes nothing in memory, no other
register and nothing else but caches, requests and counters. Where its cluster's outbound FIFO does not take all its request
beats the access waits before any effect (R377). The lanes all read one state, in one step (the model's reading, log entry
25), and an access has one beat for each line that L1 does not serve (the model's choice, log entry 71). -/
def Obligations.LoadsRead : Prop :=
  ∀ (i : Instr) (s : State) (m : Marks) (f : MemForm) (nc acq block : Bool) (d a b : BitVec 7),
    loadOf s i = some (m, f, nc, acq, block, d, a, b) →
    let w := if s.cur.is64 then 8 else 4
    let regs := addrRegs a ++ voffRegs b
    let offs := s.cur.memOffsets block
    let ls := lanesFor m.u s.cur.active (s.addrAt a b)
    Ready s (operandLanes m.u s.cur.active) regs (s.cur.memChecks (fun _ => true) acq block d regs) →
    (s.cur.active = 0#32 → Completes i m s s.fall (vecCycles m.u 0#32 (offs.map fun _ => regs)) s.cur)
    ∧ ∀ segs : Nat → List Seg, s.cur.active ≠ 0#32 → Reaches s f (w * offs.length) ls segs →
      let beats := toEnter s f (ls.flatMap fun x => segs x.1)
      (s.outboundRoom s.cur.core beats = false →
        ∃ t, exec i s = .next t ∧ OnlyRead s t
          ∧ t.cur = { s.cur with entered := s.cur.entered + (32 - (s.cluster (clusterOfCore s.cur.core)).outbound),
                                 wait := .fifo, pipe := none })
      ∧ (s.outboundRoom s.cur.core beats = true → (acq = true → 4 ≤ s.cur.scope → ∀ x ∈ ls, AllApplied s (segs x.1)) →
      ∃ (t : State) (bytes : Nat → List Byte), exec i s = .next t ∧ GoneTo m s.fall s t ∧ OnlyRead s t
        ∧ (∀ x ∈ ls, List.Forall₂ (ByteReads s nc) ((segs x.1).flatMap spots) (bytes x.1))
        ∧ (∀ o ∈ offs, ∀ l < 32, s.cur.active.getLsbD l = true →
            t.cur.val s.cur.is64 (d.toNat + o) l
              = leField (bytes (srcLane m.u s.cur.active l)) (w * offs.idxOf o) w)
        ∧ (∀ r l, l < 32 → (s.cur.active.getLsbD l = true → ∀ o ∈ offs, r ∉ readsOf s.cur.is64 [d] o) →
            t.cur.V r l = s.cur.V r l)
        ∧ t.cur.atRest = { s.cur with v := t.cur.v, rowPoison := t.cur.rowPoison, outstanding := t.cur.outstanding,
                                      seen := t.cur.seen, watch := t.cur.watch }.atRest
        ∧ (if acq then
             t.cur.watch = ⟨((ls.head?).bind fun x => (segs x.1).head?).bind Seg.word, false⟩
               ∧ (2 ≤ s.cur.scope → (t.core s.cur.core).l1 = [])
           else t.cur.watch = s.cur.watch))

/-- R201, R206, R211, R218, R224, R225, R227: a store leaves, at every byte that some active lane stores to, the byte of
the last such lane: at once as its die and its core read it, in scratch, or in its own registers; the write then travels to the home, counted in the cane's counters. Every other byte of memory reads as
before, at the home and at every die. No granule that it meets is poisoned, and no RED of the cane is held at a gate. -/
def Obligations.StoresWrite : Prop :=
  ∀ (i : Instr) (s : State) (m : Marks) (f : MemForm) (sig rel block : Bool) (d a b : BitVec 7),
    storeOf s i = some (m, f, sig, rel, block, d, a, b) →
    let w := if s.cur.is64 then 8 else 4
    let regs := addrRegs d ++ voffRegs b
    let offs := s.cur.memOffsets block
    let ls := lanesFor m.u s.cur.active (s.addrAt d b)
    let reads := offs.flatMap (readsOf s.cur.is64 [a])
    Ready s (operandLanes m.u s.cur.active) (regs ++ reads) (s.cur.memChecks (fun t => t != .nq4) rel block a regs) →
    (s.cur.active = 0#32 →
      Completes i m s s.fall (vecCycles m.u 0#32 (offs.map fun o => regs ++ readsOf s.cur.is64 [a] o)) s.cur)
    ∧ ∀ segs : Nat → List Seg, s.cur.active ≠ 0#32 → Reaches s f (w * offs.length) ls segs → Canonical s →
      s.cur.heldBy (if rel then some s.cur.scope else none) = none →
      s.cur.storeFull (ls.map fun x => ⟨x.1, x.2, segs x.1⟩) = false →
      s.outboundRoom s.cur.core (toEnter s f (ls.flatMap fun x => segs x.1)) = true →
      (∀ x ∈ ls, ∀ g ∈ segs x.1, s.segPoisoned .l2 g = false) → s.backlog? s.cur.id = none →
      let n := (s.wgOf s.cur).terrace
      let ws := ls.flatMap fun x => ((segs x.1).flatMap spots).zip
        (offs.flatMap fun o => leBytes w (s.cur.val s.cur.is64 (a.toNat + o) x.1))
      ∃ (t : State) (fs : List Flight), exec i s = .next t ∧ GoneTo m s.fall s t
        ∧ t = { s with cur := t.cur, others := t.others, cores := t.cores, clusters := t.clusters, dies := t.dies,
                       terraces := t.terraces, channels := t.channels, cellar := t.cellar, nextId := t.nextId,
                       flights := s.flights ++ fs, workgroups := t.workgroups }
        ∧ (∀ x,
            t.dieByte (dieOfCore s.cur.core) x = (lastAt (.glob x) ws).getD (s.dieByte (dieOfCore s.cur.core) x)
            ∧ t.coreByte s.cur.core n x false = (lastAt (.glob x) ws).getD (s.coreByte s.cur.core n x false))
        ∧ (∀ e x, e ≠ dieOfCore s.cur.core → t.dieByte e x = s.dieByte e x)
        ∧ (∀ q, (∀ x, q ≠ .glob x) → (∀ x, q = .reg x → x < 16384) → held t q = (lastAt q ws).getD (held s q))
        ∧ (∀ x ∈ fs, x.die = dieOfCore s.cur.core ∧ x.cane = some s.cur.id ∧ x.signalled = sig ∧ x.acked = false
            ∧ x.seq = none)
        ∧ (∀ p : Nat × Byte, (∃ x ∈ fs, ∃ k < x.bytes.length, p = (x.addr + k, getI 0#8 x.bytes k)) ↔
            (Spot.glob p.1, p.2) ∈ ws)
        ∧ (s.cur.live = true → t.cur.hcnt = s.cur.hcnt + fs.length ∧ t.cur.dcnt = s.cur.dcnt + fs.length)
        ∧ t.cur.atRest = { s.cur with v := t.cur.v, rowPoison := t.cur.rowPoison, hash := t.cur.hash, wcnt := t.cur.wcnt,
                                      dcnt := t.cur.dcnt, hcnt := t.cur.hcnt, unfenced := t.cur.unfenced,
                                      fenceScope := none, watch := t.cur.watch }.atRest
        ∧ ((∀ c ∈ s.others, c.id ≠ s.cur.id) → t.others.map unwatched = s.others.map unwatched
            ∧ (sig = false → t.others = s.others))
        ∧ t.workgroups.map unscratched = s.workgroups.map unscratched
        ∧ ∀ j, ∃ p u l, t.core j = { s.core j with perf := p, utlb := u, l1 := l }

/-- R219, R223, R229, R230, R232: the active lanes of an atomic or a RED act one after another, in ascending order, on what
the home or the scratch holds: each lane's D takes what the lane found, and what the last one leaves stands there at the
end; the cane's counters count each until it is acknowledged. No other byte changes, no register but D, and only the
issuing and the owner die. The home has applied what the die's clock shows, and the die the past of the lines (R217);
nothing is recorded or replayed. That a RED is performed at its home in the step that issues it is the model's reading (log
entry 29). -/
def Obligations.AtomicsUpdate : Prop :=
  ∀ (i : Instr) (s : State) (p : AtomParts), atomOf s i = some p →
    let w := if s.cur.is64 then 8 else 4
    let regs := addrRegs p.base ++ voffRegs p.voff
    let ls := lanesFor p.m.u s.cur.active (s.addrAt p.base p.voff)
    Ready s (operandLanes p.m.u s.cur.active) (regs ++ p.data)
      [s.cur.beyond (regs ++ p.data ++ p.dest.toList.map (·.toNat)), s.cur.badType p.accepts, s.cur.badScope,
       oddField s.cur.is64 p.dest.toList, p.parity] →
    (s.cur.active = 0#32 → Completes i p.m s s.fall (vecCycles p.m.u 0#32 [regs ++ p.data]) s.cur)
    ∧ ∀ (g : Nat → Seg) (o : Nat), s.cur.active ≠ 0#32 → s.cur.stage = 0 → s.cur.stageArg = 0 → s.cur.wait = .none →
      Reaches s (atomForm w (p.host (typeOf s)) p.dest.isNone (if 2 ≤ s.cur.ord then some s.cur.scope else none)) w ls
        (fun l => [g l]) → Canonical s →
      s.outboundRoom s.cur.core (toEnter s (atomForm w (p.host (typeOf s)) p.dest.isNone
        (if 2 ≤ s.cur.ord then some s.cur.scope else none)) (ls.map fun x => g x.1)) = true →
      s.cur.storeFull (ls.map fun x => ⟨x.1, x.2, [g x.1]⟩) = false → (∀ c ∈ s.others, c.id ≠ s.cur.id) →
      Unlogged s →
      s.cur.heldBy (if 2 ≤ s.cur.ord then some s.cur.scope else none) = none →
      (∀ x ∈ ls, ∀ pa n, g x.1 = .glob pa n →
        s.homeDie pa = o ∧ s.clockCovered (dieOfCore s.cur.core) o = true
          ∧ s.covers (dieOfCore s.cur.core) (s.pastOf (lineOf pa)) = true) →
      (s.cur.ord % 2 = 1 → 4 ≤ s.cur.scope →
        s.covers (dieOfCore s.cur.core) s.cur.seen = true
          ∧ s.covers (dieOfCore s.cur.core) (s.die (dieOfCore s.cur.core)).filled = true ∧ ∀ x ∈ ls, AllApplied s [g x.1]) →
      let r := chain w p.new (ls.map fun x => (x.1, g x.1)) (held s)
      ∃ (t : State) (fs : List Flight), exec i s = .next t ∧ GoneTo p.m s.fall s t
        ∧ t = { s with cur := t.cur, others := t.others, cores := t.cores, clusters := t.clusters, dies := t.dies,
                       terraces := t.terraces, channels := t.channels, cellar := t.cellar, nextId := t.nextId,
                       flights := s.flights ++ fs, workgroups := t.workgroups, mem := t.mem, veils := t.veils,
                       lineSeq := t.lineSeq, linePast := t.linePast }
        ∧ (∀ x, held t (.glob x) = r.2 (.glob x)) ∧ (∀ k x, held t (.scr k x) = r.2 (.scr k x))
        ∧ (∀ e x, (∀ y ∈ ls, Spot.glob x ∉ spots (g y.1)) → t.dieByte e x = s.dieByte e x)
        ∧ (∀ e, e ≠ dieOfCore s.cur.core → e ≠ o → t.die e = s.die e)
        ∧ (∀ d, p.dest = some d → ∀ l < 32, s.cur.active.getLsbD l = true →
            (srcLane p.m.u s.cur.active l, t.cur.val s.cur.is64 d.toNat l) ∈ r.1)
        ∧ (∀ q l, l < 32 →
            (s.cur.active.getLsbD l = true → ∀ d, p.dest = some d → q ∉ readsOf s.cur.is64 [d] 0) →
            t.cur.V q l = s.cur.V q l)
        ∧ t.cur.atRest = { s.cur with v := t.cur.v, rowPoison := t.cur.rowPoison, hash := t.cur.hash, seen := t.cur.seen,
                                      outstanding := t.cur.outstanding, fenceScope := none, wcnt := t.cur.wcnt,
                                      dcnt := t.cur.dcnt, hcnt := t.cur.hcnt, watch := t.cur.watch }.atRest
        ∧ (s.cur.live = true → t.cur.hcnt = s.cur.hcnt + fs.length ∧ t.cur.dcnt = s.cur.dcnt + fs.length
            ∧ (p.dest = none → t.cur.wcnt = s.cur.wcnt))
        ∧ (∀ x ∈ fs, x.cane = some s.cur.id ∧ x.acked = false ∧ x.seq.isSome = true)
        ∧ t.others.map unwatched = s.others.map unwatched
        ∧ t.workgroups.map unscratched = s.workgroups.map unscratched
        ∧ (s.cur.ord % 2 = 1 → 2 ≤ s.cur.scope → (t.core s.cur.core).l1 = [])

namespace Sys2Proof.Claims

/-- R213, R228: the acquire of a FENCE at a scope, for a cane that has become k: none at scope lane; otherwise it waits
for the cane's outstanding results, and then, once the die has applied what they brought, empties L1 from cluster scope
up. -/
def Acquires (i : Instr) (m : Marks) (s : State) (scope : Nat) (k : Cane) : Prop :=
  (scope = 0 → Completes i m s s.fall 1 k)
  ∧ (scope ≠ 0 → s.cur.outstanding ≠ 0 → exec i s = .next { s with cur := { k with wait := .results, pipe := none } })
  ∧ (scope ≠ 0 → s.cur.outstanding = 0 → (4 ≤ scope → s.covers (dieOfCore s.cur.core) s.cur.seen = true) →
      ∃ t, exec i s = .next t ∧ GoneTo m s.fall s t ∧ TookCycles 1 s t ∧ t.cur.atRest = k.atRest
        ∧ OnlyRead s t ∧ t.dies = s.dies ∧ t.terraces = s.terraces ∧ t.channels = s.channels
        ∧ ∀ j, (t.core j).l1 = if j = s.cur.core ∧ 2 ≤ scope then [] else (s.core j).l1)

end Sys2Proof.Claims

/-- R215, R228, R242, R243: FENCE acquires, releases or both; a release holds back what follows until its condition is
met, a full one waits for it. INVAL drops its lanes' lines from the core's L1 and nothing else. BANK.ROLE gives a bank a
role when it is free to change, and says in p[D] whether it has it. -/
def Obligations.FencesInvalAndBankRole : Prop :=
  ∀ (m : Marks) (s : State),
    (∀ (y : BitVec 1) (c : BitVec 3), s.wide.1 = false →
      let k := if y = 1#1 then { s.cur with unfenced := [] } else s.cur
      Acquires (.fenceAcquire m y c) m s c.toNat s.cur
      ∧ Completes (.fenceRelease m y c) m s s.fall 1
          (if s.cur.released c.toNat then k else { k with fenceScope := some (max c.toNat (s.cur.fenceScope.getD 0)) })
      ∧ (s.cur.released c.toNat = true → Acquires (.fenceFull m y c) m s c.toNat k)
      ∧ (s.cur.released c.toNat = false → exec (.fenceFull m y c) s
          = .next { s with cur := { s.cur with wait := .release c.toNat, pipe := none } }))
    ∧ (∀ a b : BitVec 7, Ready s (operandLanes m.u s.cur.unguarded) (addrRegs a ++ voffRegs b) [s.cur.beyond (addrRegs a ++ voffRegs b)] →
        (∀ x ∈ lanesFor m.u s.cur.unguarded (s.addrAt a b), windowAt x.2 ≠ none) →
        ∃ t, exec (.inval m a b) s = .next t ∧ GoneTo m s.fall s t ∧ OnlyRead s t ∧ t.cur.atRest = s.cur.atRest
          ∧ t.dies = s.dies ∧ t.terraces = s.terraces
          ∧ (∀ j, j ≠ s.cur.core → (t.core j).l1 = (s.core j).l1)
          ∧ ∀ x, x ∈ (t.core s.cur.core).l1 ↔ x ∈ (s.core s.cur.core).l1 ∧ (s.cur.unguarded ≠ 0#32 →
              ∀ y ∈ lanesFor m.u s.cur.unguarded (s.addrAt a b), ∀ pa, windowAt y.2 = some .global →
                s.ctxTranslate (s.wgOf s.cur).ctx y.2 ⟨false, false, false⟩ = some pa → x.line ≠ lineOf pa))
    ∧ ∀ (d : BitVec 3) (a b : BitVec 7), Ready s (operandLanes true s.cur.unguarded) [a.toNat, b.toNat] [s.cur.beyond [a.toNat, b.toNat]] →
        let bank := (s.cur.uread a.toNat).toNat
        let role := (s.cur.uread b.toNat).toNat
        let k := s.core s.cur.core
        let old := getI 0 k.roles bank
        let limit := (((s.wgOf s.cur).parcel.bind s.findParcel).map (·.maxBanks)).getD 0
        let ok := role = old ∨ (s.roleFree s.cur.core bank old = true ∧ s.roleFree s.cur.core bank role = true)
        if s.cur.unguarded = 0#32 then Completes (.bankRole m d a b) m s s.fall 1 s.cur
        else if 47 < bank ∨ 3 < role then Traps (.bankRole m d a b) s .illegalEncoding
        else if s.cur.priv = 0 ∧ role ≠ 2 ∧ limit < k.budgeted bank role then Traps (.bankRole m d a b) s .privilege
        else (¬ok → Completes (.bankRole m d a b) m s s.fall 1 (s.cur.setP s.cur.unguarded d.toNat 0#32))
          ∧ (ok → ∃ t, exec (.bankRole m d a b) s = .next t ∧ GoneTo m s.fall s t ∧ TookCycles 1 s t
            ∧ t.cur.atRest = (s.cur.setP s.cur.unguarded d.toNat 0xFFFFFFFF#32).atRest
            ∧ t = { s with cur := t.cur, cores := t.cores, clusters := t.clusters }
            ∧ (∀ j, j ≠ s.cur.core → ∃ p, t.core j = { s.core j with perf := p })
            ∧ ∃ p r l, t.core s.cur.core = { k with perf := p, roles := r, l1 := l,
                                                    changed := if role = old then k.changed else true }
              ∧ (∀ n, getI 0 r n = if n = bank then role else getI 0 k.roles n)
              ∧ l = if role = old then k.l1 else k.l1.filter fun x => x.bank != bank)

namespace Sys2Proof.Claims

/-- R233: WAIT.ADDR ends with a result in the active lanes of p[D], and the cane leaves the monitor tables. -/
def WaitEnds (i : Instr) (m : Marks) (s : State) (d : BitVec 3) (r : Nat) : Prop :=
  ∃ t, exec i s = .next t ∧ GoneTo m s.fall s t ∧ OnlyRead s t
    ∧ t.cur.atRest = (s.cur.setP s.cur.active d.toNat (if r = 1 then 0xFFFFFFFF#32 else 0#32)).atRest
    ∧ ∀ k, ∀ e ∈ (t.die k).monitor, s.cur.id ∉ e.canes

/-- The n bytes of a ring slot from its first, as the issuing cane's die, its workgroup's scratch or its core's FIFO banks
hold them. -/
def slotBytes (s : State) (n : Nat) : SlotAt → List Byte
  | .fifo off => Memory.readBytes (s.core s.cur.core).fifo off n
  | .mem _ gs => ((gs.flatMap spots).take n).map (heldAtDie s)

/-- A ring's header g and one of its slots p, in memory, scratch or FIFO banks, are ready to use: slot and header lie
apart, outside host memory, and nothing is poisoned, recorded or replayed. -/
structure RingSpot (s : State) (h : RingHead) (g : Seg) (p : SlotAt) : Prop where
  size : (spots g).length = 64
  place : ∀ v gs, p = .mem v gs → (gs.flatMap spots ++ spots g).Nodup ∧ ((gs.flatMap spots).length = h.stride)
    ∧ ∀ x ∈ gs, (∀ view, s.segPoisoned view x = false) ∧ ∀ pa n, x = .glob pa n → isHost (pa + n) = false
  clean : (s.core s.cur.core).fifoPoison = []
  canonical : Canonical s
  quiet : Unlogged s

/-- R235, R237: a ring at an address, with its header g and one of its slots p ready to use: the header's fields are h,
the registers that it moves exist, every page is cached and translates, nothing is watched, the die has applied the past of what
it reads, and the outbound FIFO takes the requests (log entry 71: one for the header, three more and one for each line of a
slot). -/
structure RingAt (s : State) (va reg extra : Nat) (h : RingHead) (g : Seg) (p : SlotAt) : Prop where
  header : Reaches s (waitForm 64 needRW) 64 [(firstLane s.cur.active, va)] fun _ => [g]
  fields : ringHead va ((spots g).map (held s)) = some h
  regs : reg + h.width + extra ≤ 128 ∧ reg + h.width + extra ≤ s.cur.nreg
  banks : h.fifo = true → h.fifoOk (s.core s.cur.core) = true
  slots : h.fifo = false → ∃ gs, Reaches s { waitForm 1 needRW with reads := false, writes := false } h.size
    [(firstLane s.cur.active, h.base)] fun _ => gs
  cached : s.touchLanes 64 [(firstLane s.cur.active, va)] = s
    ∧ s.touchLanes h.size [(firstLane s.cur.active, h.base)] = s
  spot : RingSpot s h g p
  direct : ∀ x < h.size, s.decantAt (s.wgOf s.cur).terrace (h.base + x) = none
  home : s.pressReady g = true
  past : AllApplied s [g] ∧ ∀ v gs, p = .mem v gs → AllApplied s gs
  room : s.outboundRoom s.cur.core (h.stride / 128 + 3) = true

/-- The instruction traps with a cause, after reads alone. -/
def ReadsAndTraps (i : Instr) (s : State) (c : Cause) : Prop :=
  ∃ u, OnlyRead s u ∧ u.cur.atRest = s.cur.atRest ∧ u.cur.pc = s.cur.pc ∧ exec i s = .next (u.raise c)

/-- R236, R237: what RING.PUT makes of a slot for claim n. -/
def putImage (s : State) (h : RingHead) (a : BitVec 7) (n : Nat) : List Byte :=
  slotHead 1 ((s.wgOf s.cur).linear % 65536) (h.putMask s.cur.active).toNat n
    ++ s.cur.ringPayload h (h.putMask s.cur.active) a.toNat

/-- R219: an 8-byte count of a ring's header, as the press holds it. -/
def ringField (s : State) (g : Seg) (field : Nat) : Nat := leNat (((spots g).map (held s)).drop field |>.take 8)

end Sys2Proof.Claims

/-- R220, R233: WAIT.ADDR ends at once with 1 on a hit of the watch, with 0 on a zero timeout, under an exit-grade
request or with a full monitor table, and with the answer of an event that has ended its wait; otherwise the cane parks on
its word. A wait on scratch stands in the die's monitor table as one on memory does (the model's reading, log entry 33).
WAIT_ADDR_TIMEOUT ends a wait with 0, and moves the cluster's clock to its deadline (the model's choice, log entry 22). -/
def Obligations.WaitAddrWaits : Prop :=
  (∀ (m : Marks) (d : BitVec 3) (a b : BitVec 7) (s : State),
    Ready s (operandLanes true s.cur.active) (addrRegs a ++ voffRegs b)
      [s.cur.beyond (addrRegs a ++ voffRegs b), (s.cur.routine == .exit, .illegalEncoding)] →
    Unlogged s →
    let l := firstLane s.cur.active
    let timeout := if b = 127#7 then none else some (s.cur.V b.toNat l).toNat
    let k := dieOfCore s.cur.core
    if s.cur.active = 0#32 then Completes (.waitAddr m d a b) m s s.fall 1 s.cur
    else
      (∀ r, s.cur.answer = some r → WaitEnds (.waitAddr m d a b) m s d r)
      ∧ ∀ (g : Seg) (word : Place), s.cur.answer = none → Seg.word g = some word →
        Reaches s (waitForm 8 needR) 8 [(l, (s.addrOnly a l).toNat)] (fun _ => [g]) →
        s.outboundRoom s.cur.core (toEnter s (waitForm 8 needR) [g]) = true →
        (s.cur.watch.word = some word ∧ s.cur.watch.hit = true → WaitEnds (.waitAddr m d a b) m s d 1)
        ∧ (¬(s.cur.watch.word = some word ∧ s.cur.watch.hit = true) →
          if timeout = some 0 ∨ (s.wgOf s.cur).exiting = true ∨ (s.die k).monitorRoom word = false then
            WaitEnds (.waitAddr m d a b) m s d 0
          else ∃ t, exec (.waitAddr m d a b) s = .next t ∧ OnlyRead s t ∧ t.cur.atRest = s.cur.atRest
            ∧ t.cur.pc = s.cur.pc ∧ t.cur.pipe = none
            ∧ t.cur.wait = .waitAddr word (timeout.map fun n =>
                ((s.wgOf s.cur).pause.map (·.2)).getD (s.cycleOf s.cur.core) + n)
            ∧ ∃ e ∈ (t.die k).monitor, e.word = word ∧ s.cur.id ∈ e.canes))
  ∧ ∀ (s : State) (cane dl : Nat) (c : Cane) (w : Place), s.findCane cane = some c → c.wait = .waitAddr w (some dl) →
      s.debugHeld c.wg = false →
      ∃ t, exec (.waitAddrTimeout cane) s = .next t ∧ t.mem = s.mem ∧ t.workgroups = s.workgroups
        ∧ t.findCane cane = some { c with wait := .none, answer := some 0 }
        ∧ t.cycleOf c.core = max dl (s.cycleOf c.core) ∧ ∀ k, ∀ e ∈ (t.die k).monitor, cane ∉ e.canes

/-- R235 to R241: on a ring of any of the three kinds, RING.PUT claims the slot that head names, and once what a release at
the ring's scope waits for is performed (the claim itself included, where the header lies in global memory) fills it and
marks it FULL; RING.ACQ takes the oldest FULL slot's payload and sequence and marks it CLAIMED; RING.REL marks a claimed slot EMPTY and then, once
the header's home has applied that (at once in scratch), advances released. A closed ring refuses puts and, when it is
empty, answers with ones. -/
def Obligations.RingsMoveSlots : Prop :=
  ∀ (m : Marks) (d a : BitVec 7) (b : BitVec 3) (s : State) (h : RingHead) (g : Seg),
    s.cur.active ≠ 0#32 → s.cur.routine ≠ .exit →
    let l := firstLane s.cur.active
    (∀ p, p = s.slotAt h h.head → Ready s (operandLanes true s.cur.active) (addrRegs d) [s.cur.beyond (addrRegs d ++ [a.toNat])] →
      RingAt s (s.addrOnly d l).toNat a.toNat 0 h g p → s.cur.claim = none → s.cur.stageArg = 0 →
      (h.closed = true → ReadsAndTraps (.ringPut m d a) s .illegalEncoding)
      ∧ (h.closed = false → leField (slotBytes s 16 p) 0 1 = 0 → s.cur.heldBy (some h.scope) = none →
        s.cur.hcnt ≤ 1000 →
        s.cur.poisonedRow (h.putMask s.cur.active) ((List.range h.width).map fun i => a.toNat + i) = none →
        ∃ t, exec (.ringPut m d a) s = .next t ∧ ringField t g 24 = (h.head + 1) % 2 ^ 64 ∧ ringField t g 32 = h.tail
          ∧ t.cur.v = s.cur.v ∧ t.cur.p = s.cur.p
          ∧ ((∃ k off n, g = .scr k off n) → GoneTo m s.fall s t
            ∧ slotBytes t (putImage s h a h.head).length p = putImage s h a h.head)))
    ∧ (∀ p n, Ready s (operandLanes true s.cur.active) (addrRegs d) [s.cur.beyond (addrRegs d ++ [a.toNat])] → RingSpot s h g p →
      s.cur.claim = some ⟨h, g, n, p⟩ → s.cur.heldBy (some h.scope) = none → s.cur.hcnt ≤ 1000 →
      s.cur.poisonedRow (h.putMask s.cur.active) ((List.range h.width).map fun i => a.toNat + i) = none →
      (putImage s h a n).length ≤ h.stride →
      ∃ t, exec (.ringPut m d a) s = .next t ∧ GoneTo m s.fall s t
        ∧ slotBytes t (putImage s h a n).length p = putImage s h a n
        ∧ (∀ f, ringField t g f = ringField s g f) ∧ t.cur.v = s.cur.v ∧ t.cur.p = s.cur.p)
    ∧ (∀ p, p = s.slotAt h h.tail → Ready s (operandLanes true s.cur.active) (addrRegs a) [s.cur.beyond (addrRegs a ++ [d.toNat])] →
      RingAt s (s.addrOnly a l).toNat d.toNat 1 h g p → s.cur.claim = none →
      if h.closed = true ∧ h.tail = h.head then
        ∃ t, exec (.ringAcq m d a b) s = .next t ∧ GoneTo m s.fall s t ∧ ringField t g 32 = h.tail
          ∧ t.cur.p = (s.cur.setP s.cur.active b.toNat 0#32).p
          ∧ ∀ k < 32, s.cur.active.getLsbD k = true →
              t.cur.V d.toNat k = 0xFFFFFFFF#32 ∧ t.cur.V (d.toNat + h.width) k = 0xFFFFFFFF#32
      else
        let bs := slotBytes s h.stride p
        (leField bs 0 1 = 1 ∨ leField bs 0 1 = 2) → leField bs 8 8 = h.tail → s.cur.heldBy none = none →
        s.cur.hcnt < 1000 → h.scope < 4 →
        ∃ t, exec (.ringAcq m d a b) s = .next t ∧ GoneTo m s.fall s t ∧ ringField t g 32 = (h.tail + 1) % 2 ^ 64
          ∧ ringField t g 24 = h.head ∧ leField (slotBytes t 16 p) 0 1 = 3
          ∧ t.cur.p = (s.cur.setP s.cur.active b.toNat (if leField bs 0 1 = 1 then 0xFFFFFFFF#32 else 0#32)).p
          ∧ (∀ k < 32, s.cur.active.getLsbD k = true → (t.cur.V (d.toNat + h.width) k).toNat = leField bs 8 4
            ∧ if leField bs 0 1 = 1 then ∀ i < h.width, (t.cur.V (d.toNat + i) k).toNat
                  = leField bs (if h.wide then 128 * (i + 1) + 4 * k else 16 + 4 * i) 4
              else (t.cur.V d.toNat k).toNat = leField bs 2 2)
          ∧ ∀ r k, k < 32 → (r < d.toNat ∨ d.toNat + h.width < r ∨ s.cur.active.getLsbD k = false) →
              t.cur.V r k = s.cur.V r k)
    ∧ ∀ p, p = s.slotAt h (s.cur.V d.toNat l).toNat → Ready s (operandLanes true s.cur.active) (d.toNat :: addrRegs a)
        [s.cur.beyond (d.toNat :: addrRegs a)] →
      let q := (s.cur.V d.toNat l).toNat
      (RingSpot s h g p → s.cur.claim = some ⟨h, g, q, p⟩ → s.pressReady g = true → ∃ t, exec (.ringRel m d a) s = .next t ∧ GoneTo m s.fall s t
        ∧ ringField t g 40 = (ringField s g 40 + 1) % 2 ^ 64 ∧ t.cur.v = s.cur.v ∧ t.cur.p = s.cur.p)
      ∧ (RingAt s (s.addrOnly a l).toNat 0 0 h g p → s.cur.claim = none → s.cur.heldBy (some h.scope) = none →
        if leField (slotBytes s 16 p) 0 1 ≠ 3 ∨ leField (slotBytes s 16 p) 8 4 ≠ q then
          ReadsAndTraps (.ringRel m d a) s .illegalEncoding
        else ∃ t, exec (.ringRel m d a) s = .next t ∧ leField (slotBytes t 16 p) 0 1 = 0
          ∧ ((∃ k off n, g = .scr k off n) → GoneTo m s.fall s t
            ∧ ringField t g 40 = (ringField s g 40 + 1) % 2 ^ 64))

/-! ## The device's events of memory and issue (R207, R215 to R218, R324, R325, R411) -/

namespace Sys2Proof.Claims

/-- R208: a write merges into no poisoned granule, at its home or in a die's copy of its line, or is of no lane's store. -/
def MergesNone (s : State) (f : Flight) (d : Nat) : Prop :=
  f.origin = none ∨ partialGranules (s.poison ++ s.copyPoison d (lineOf f.addr)) f.addr f.bytes.length = []

end Sys2Proof.Claims

/-- R28, R212, R217, R218, R411: a write that its home may take is numbered and applied there, and stands in the owner
die's clock; each other die applies it once its own clock shows the write's past, keeping a byte that holds a later
number; the parts of one press update are applied at a die together (R284); a die outside the rectangle takes the count
alone (the model's reading, log entry 65); the acknowledgements of the L2 and of the owning slice, which the inbound FIFO of
the cane's cluster takes (R377, log entry 71), lower the counters of its cane. None of these events changes what may not
happen yet; a die or a function that does not exist is a fault (the model's choice, log entry 60). What a die's clock and
copies become is said of a write that merges into no poisoned granule (R208's record is a write of its own). -/
def Obligations.WritesTravel : Prop :=
  ∀ (s : State) (n : Nat) (f : Flight), s.flight n = some f → (∀ g ∈ s.flights, g.id = n → g = f) →
    Memory.wf s.mem = true →
    let line := lineOf f.addr
    let me := dieNumber f.die
    (if s.homeDue f = true then
      ∃ t, exec (.homeWriteApply n) s = .next t ∧ t.seqOf line = s.seqOf line + 1
        ∧ (∀ l, l ≠ line → t.seqOf l = s.seqOf l) ∧ t.workgroups = s.workgroups
        ∧ (∀ a, t.homeByte a = if f.addr ≤ a ∧ a < f.addr + f.bytes.length then getI 0#8 f.bytes (a - f.addr)
            else s.homeByte a)
        ∧ (∀ g ∈ t.flights, g.id = n → g.seq = some (s.seqOf line + 1)
            ∧ g.todo = otherDies f.leaves [f.die, s.homeDie f.addr])
        ∧ (∀ g, g ∈ t.poison ↔ (g ∈ s.poison ∧ fills f.addr f.bytes.length g = false)
            ∨ (g ∈ f.bad ∧ touches f.addr f.bytes.length g = true))
        ∧ (s.homeDie f.addr ≠ f.die → MergesNone s f (s.homeDie f.addr) → ∀ e, getI 0 (t.die (s.homeDie f.addr)).clock e
            = if e = me then max (getI 0 (s.die (s.homeDie f.addr)).clock e) (getI 0 f.stamp e)
              else getI 0 (s.die (s.homeDie f.addr)).clock e)
     else exec (.homeWriteApply n) s = .next s)
    ∧ (∀ d, if 4 ≤ d then exec (.remoteWriteApply n d) s = .fault .noSuchUnit
      else if s.remoteDue f d = true then
        ∃ t, exec (.remoteWriteApply n d) s = .next t ∧ t.mem = s.mem ∧ t.workgroups = s.workgroups
          ∧ (∀ x ∈ s.partsOf f, d ∈ x.todo → ∀ g ∈ t.flights, g.id = x.id → d ∉ g.todo)
          ∧ (s.partsOf f = [f] → MergesNone s f d → (∀ e, e ≠ d → t.die e = s.die e)
          ∧ (∀ e, getI 0 (t.die d).clock e = if e = me then max (getI 0 (s.die d).clock e) (getI 0 f.stamp e)
              else getI 0 (s.die d).clock e)
          ∧ (s.inRectangle f.terrace d = false → (t.die d).l2 = (s.die d).l2)
          ∧ (s.inRectangle f.terrace d = true → ∀ x, s.l2Copy d line = some x → lineOf (f.addr + f.bytes.length - 1) = line →
              ∀ i < f.bytes.length, t.dieByte d (f.addr + i)
                = match getI none x.seqs ((f.addr + i) % 128) with
                  | some k => if f.seq.getD 0 < k then s.dieByte d (f.addr + i) else getI 0#8 f.bytes i
                  | none => getI 0#8 f.bytes i))
      else exec (.remoteWriteApply n d) s = .next s)
    ∧ (∀ c : Cane, f.cane = some c.id → s.findCane c.id = some c → s.ackDue f = true →
      (f.l2Acked = false → ∃ t k, exec (.ownWriteAck n) s = .next t ∧ t.mem = s.mem ∧ t.findCane c.id = some k
        ∧ k.dcnt = c.dcnt - 1 ∧ k.wcnt = c.wcnt - (if f.inWcnt then 1 else 0) ∧ k.hcnt = c.hcnt)
      ∧ (f.l2Acked = true → (isHost f.addr = false ∨ 16 ≤ f.terrace) →
        ∃ t k, exec (.ownWriteAck n) s = .next t ∧ t.mem = s.mem ∧ t.findCane c.id = some k
          ∧ k.hcnt = c.hcnt - 1 ∧ k.dcnt = c.dcnt ∧ k.wcnt = c.wcnt ∧ t.flight n = none)
      ∧ (f.l2Acked = true → isHost f.addr = true → f.terrace < 16 → exec (.ownWriteAck n) s = .next s))
    ∧ (s.ackDue f = false → exec (.ownWriteAck n) s = .next s)
    ∧ ∀ v, if 16 ≤ v then exec (.hostWriteAck v) s = .fault .noSuchUnit
      else ∃ t, exec (.hostWriteAck v) s = .next t ∧ t.mem = s.mem
        ∧ (isHost f.addr = true → f.terrace = v → f.l2Acked = true → s.ackDue f = true →
            (∀ c, f.cane.bind s.findCane = some c → s.inboundRoom c.core (s.hostAcks v).length = true) →
            t.flight n = none)

/-- R25, R28, R150 to R152, R207, R324, R325, R377: results, code and the answers of walks return through an inbound FIFO that
takes them, one beat each (the model's choice, log entry 71); a walk fills the TLBs of the clusters that wait for it, or
leaves its canes to a fault-queue entry, or to a refusal; an answer lets the instruction execute again; a
free pipe takes the cane that comes first; a cane that has waited 4096 cycles ages; a cane that has issued 128
instructions switches; soft errors are counted or poison what they meet (their kinds and numbers are the model's choice, log
entry 17), and one of a place that does not exist is a fault (log entry 60). -/
def Obligations.CaneEventsAct : Prop :=
  ∀ (s : State) (c : Cane), s.findCane c.id = some c →
    (if c.outstanding = 0 ∨ s.inboundRoom c.core 1 = false then
        ∃ t, exec (.resultReturn c.id) s = .next t ∧ t.mem = s.mem ∧ t.findCane c.id = some c
      else ∃ t k, exec (.resultReturn c.id) s = .next t ∧ t.mem = s.mem ∧ t.findCane c.id = some k
        ∧ k.outstanding = c.outstanding - 1 ∧ (c.wait = .results → c.outstanding = 1 → k.wait = .none)
        ∧ (c.wait = .results → c.outstanding ≠ 1 → k.wait = .results)
        ∧ (c.core < 512 → (t.cluster (clusterOfCore c.core)).inbound = (s.cluster (clusterOfCore c.core)).inbound + 1))
    ∧ (∀ (n : Nat) (w : Walk), s.findWalk n = some w → c ∈ s.walkers w →
        if s.walkRoom w = false then exec (.pageWalkComplete n) s = .next s else
        (∀ e, s.walk w.die w.terrace w.vdev (w.page * 65536) = .ok e →
          ∃ t k, exec (.pageWalkComplete n) s = .next t ∧ t.mem = s.mem ∧ t.findCane c.id = some k ∧ k.wait = .none
            ∧ k.denied = c.denied ∧ (t.cluster (clusterOfCore c.core)).tlb.head? = some e)
        ∧ (s.walk w.die w.terrace w.vdev (w.page * 65536) = .noRoot →
          ∃ t k, exec (.pageWalkComplete n) s = .next t ∧ t.mem = s.mem ∧ t.findCane c.id = some k ∧ k.wait = .none
            ∧ w.page ∈ k.denied)
        ∧ (s.walk w.die w.terrace w.vdev (w.page * 65536) = .miss1 → (s.terrace w.terrace).faultQueue = none →
          (∀ x ∈ s.walkers w, x.routine ≠ .exit) →
          ∃ t k, exec (.pageWalkComplete n) s = .next t ∧ t.mem = s.mem ∧ t.findCane c.id = some k ∧ k.wait = .none
            ∧ w.page ∈ k.denied))
    ∧ (∀ (e : TransEntry), s.transEntries.find? (fun x => x.id == e.id && x.queue == e.queue) = some e → e.queue < 17 →
        c.wait = .service e.id →
        (s.response e = 1 ∨ s.response e = 2 → ∃ t k, exec (.translationResponse e.queue e.id) s = .next t
          ∧ t.mem = s.mem ∧ t.findCane c.id = some k ∧ k.wait = .none ∧ (s.response e = 2 ↔ k.denied = e.page :: c.denied)
          ∧ ∀ x ∈ t.transEntries, x.id ≠ e.id)
        ∧ (s.response e ≠ 1 → s.response e ≠ 2 → exec (.translationResponse e.queue e.id) s = .next s))
    ∧ (∃ t, exec (.codeFetchReturn c.id) s = .next t ∧ t.mem = s.mem
        ∧ (c.wait = .fetch → s.inboundRoom c.core 1 = true → ∃ k, t.findCane c.id = some k ∧ k = { c with wait := .none })
        ∧ (c.wait ≠ .fetch ∨ s.inboundRoom c.core 1 = false → t = s))
    ∧ (c.pipe = none → s.cur.id ≠ c.id → ∃ t, exec (.pipeSelect c.id) s = .next t ∧ t.mem = s.mem
        ∧ if s.chosen c = true then t.cur = { c with pipe := t.cur.pipe } ∧ ∃ p, t.cur.pipe = some p ∧ p < 4
            ∧ ∀ d ∈ s.canes, d.core = c.core → d.pipe ≠ some p
          else t = s)
    ∧ (∃ t k, exec (.agePriority c.id) s = .next t ∧ t.mem = s.mem ∧ t.findCane c.id = some k
        ∧ k = { c with aged := c.aged || (c.ready && decide (4096 ≤ s.cycleOf c.core - c.readyAt)) })
    ∧ (∃ t k, exec (.forcedSwitch c.id) s = .next t ∧ t.mem = s.mem ∧ t.findCane c.id = some k
        ∧ k = if 128 ≤ c.sinceSwitch ∧ c.wait = .none then
            { c with pipe := none, sinceSwitch := 0, wait := if c.outstanding = 0 then .none else .results } else c)
    ∧ (∀ r < 512, ∃ t k, exec (.memorySoftError 3 (512 * c.id + r)) s = .next t ∧ t.mem = s.mem
        ∧ t.findCane c.id = some k ∧ k.v = c.v
        ∧ ∀ x, x ∈ k.rowPoison ↔ x ∈ c.rowPoison ∨ (x = r ∧ r / 4 < c.nreg))
    ∧ ∀ n : Nat,
      (if n < 4 then ∃ t, exec (.memorySoftError 0 n) s = .next t ∧ (t.die n).sample.ecc = (s.die n).sample.ecc + 1
          ∧ t = { s with dies := t.dies }
        else exec (.memorySoftError 0 n) s = .fault .noSuchUnit)
      ∧ (if n < 2 ^ 33 then ∃ t, exec (.memorySoftError 2 n) s = .next t
          ∧ t = { s with poison := t.poison, dies := t.dies } ∧ (∀ g, g ∈ t.poison ↔ g ∈ s.poison ∨ g = n)
          ∧ (n ∉ s.poison → (t.die (s.homeDie (32 * n))).sample.events = (s.die (s.homeDie (32 * n))).sample.events + 1)
        else exec (.memorySoftError 2 n) s = .fault .noSuchUnit)
      ∧ ∀ d < 4, (s.l2Copy d (n / 4)).isSome = true →
          ∃ t, exec (.memorySoftError 5 (4 * n + d)) s = .next t ∧ t.mem = s.mem ∧ t.diePoison d n = true

/-! ## Workgroups (R162 to R170, R188 to R196) -/

namespace Sys2Proof.Claims

/-- The checks that the workgroup group shares pass (R188, R317). -/
def GroupRuns (s : State) : Prop := s.wide.1 = false ∧ s.cur.routine ≠ .exit

/-- R189, R422: in t a cane has arrived at barrier b of s: its generation stands with one arrival more, or, when that was
the last, the next generation begins and no cane waits for the old one. -/
def Arrived (s t : State) (c : Cane) (b : BarrierId) : Prop :=
  let x := s.barrier b
  let y := { x with arrived := c.id :: x.arrived }
  if s.barrierFull y = true then
    (t.barrier b).gen = x.gen + 1 ∧ (t.barrier b).arrived = [] ∧ ∀ k ∈ t.others, k.wait ≠ .barrier b x.gen
  else (t.barrier b).gen = x.gen ∧ (t.barrier b).arrived = c.id :: x.arrived

/-- R174, R192, R194: the issuing cane arrives at BAR.PHASE or GRAFT; once every live cane of its workgroup has, they
stand, or they all trap with the cause that the last arrival finds. Under an exit-grade request it stands unissued. -/
def ArrivesAt (i : Instr) (s : State) (w : Wait) : Prop :=
  let u : State := { s.charge 0 1 0 with cur := { s.cur with stageArg := s.fall.toNat, wait := w, pipe := none } }
  if (s.wgOf s.cur).exiting = true then exec i s = .next { s with cur := { s.cur with wait := .withheld, pipe := none } }
  else (u.everyArrived s.cur.wg = false → exec i s = .next u)
    ∧ ∀ (g : Workgroup) (p : Machine.Parcel), u.findWg s.cur.wg = some g → g.parcel.bind u.findParcel = some p →
        u.everyArrived s.cur.wg = true → exec i s = .next (match u.lastArrival g p with
          | some cause => u.trapAll s.cur.wg cause
          | none => u)

/-- The names of canes and workgroups are used once, and none is in use that the device has yet to give. -/
structure OneName (s : State) : Prop where
  canes : ((s.cur :: s.others).map (·.id)).Nodup
  idx : ∀ c ∈ s.canes, ∀ d ∈ s.canes, c.wg = d.wg → c.idx = d.idx → c = d
  small : ∀ c ∈ s.canes, c.idx < 32
  wgs : (s.workgroups.map (·.id)).Nodup
  fresh : ∀ c ∈ s.cur :: s.others, c.id < s.nextId

end Sys2Proof.Claims

/-- R174, R189, R190, R192, R194, R212, R228: BAR.ARR arrives, at once when the cane's loads have returned and its writes
are performed at the barrier's scope, or at that of an earlier FENCE release, and else when BARRIER_ARRIVAL finds them so; BAR.WAIT arrives if the cane has not, waits for its generation, and then
acquires. BAR.PHASE and GRAFT make their cane arrive. -/
def Obligations.BarriersAndArrivals : Prop :=
  (∀ (m : Marks) (c : BitVec 3) (n : BitVec 4) (s : State) (b : BarrierId), GroupRuns s → c ≠ 0#3 →
    s.barrierOf c.toNat n.toNat = some b →
    if s.cur.unguarded = 0#32 then
      Completes (.barArr m c n) m s s.fall 1 s.cur ∧ Completes (.barWait m c n) m s s.fall 1 s.cur
    else
      let scope := max b.scope (s.cur.fenceScope.getD 0)
      let ws := s.unperformed s.cur.id scope
      let now : Prop := ws = [] ∧ s.cur.outstanding = 0
      let mine : Arrival := ⟨b, (s.barrier b).gen⟩
      let later : List PendingArrival :=
        s.pendingArrivals ++ [⟨s.nextId, s.cur.id, b, (s.barrier b).gen, scope, s.cur.outstanding, ws⟩]
      (∀ g, s.pendingGen b = some g →
        exec (.barArr m c n) s = .next { s with cur := { s.cur with wait := .barrier b g, pipe := none } }
        ∧ exec (.barWait m c n) s = .next { s with cur := { s.cur with wait := .barrier b g, pipe := none } })
      ∧ (s.pendingGen b = none → ∃ t, exec (.barArr m c n) s = .next t ∧ GoneTo m s.fall s t ∧ TookCycles 1 s t
        ∧ t.mem = s.mem ∧ t.workgroups = s.workgroups
        ∧ t.cur.atRest = { s.cur with arrivals := mine :: s.cur.arrivals.filter fun a => a.bar != b }.atRest
        ∧ (now → Arrived s t s.cur b ∧ t.pendingArrivals = s.pendingArrivals)
        ∧ (¬ now → t.barriers = s.barriers ∧ t.pendingArrivals = later))
      ∧ ((∀ a ∈ s.cur.arrivals, a.bar ≠ b) → ∃ t, exec (.barWait m c n) s = .next t ∧ t.mem = s.mem
        ∧ (¬ now → t.cur.wait = .barrier b (s.barrier b).gen ∧ t.cur.pc = s.cur.pc ∧ t.pendingArrivals = later)
        ∧ (now → Arrived s t s.cur b)
        ∧ (now → s.barrierFull { s.barrier b with arrived := s.cur.id :: (s.barrier b).arrived } = false →
            t.cur.wait = .barrier b (s.barrier b).gen ∧ t.cur.pc = s.cur.pc))
      ∧ ((∃ a ∈ s.cur.arrivals, a.bar = b) → s.pendingGen b = none →
        (4 ≤ b.scope → s.covers (dieOfCore s.cur.core) (s.barrier b).done = true) →
        ∃ t, exec (.barWait m c n) s = .next t ∧ GoneTo m s.fall s t ∧ TookCycles 1 s t ∧ SameBytes s t
          ∧ t.barriers = s.barriers ∧ t.others = s.others
          ∧ t.cur.atRest = { s.cur with arrivals := s.cur.arrivals.filter fun a => a.bar != b
                                        seen := joinClocks s.cur.seen (s.barrier b).done }.atRest
          ∧ (2 ≤ b.scope → (t.core s.cur.core).l1 = [])))
  ∧ (∀ (s : State) (a : PendingArrival), s.pendingArrivals.find? (fun x => x.id == a.id) = some a →
      if s.arrivalDue a = true then ∃ t, exec (.barrierArrival a.id) s = .next t ∧ t.mem = s.mem
        ∧ (∀ x ∈ t.pendingArrivals, x.id ≠ a.id) ∧ ∀ c, s.findCane a.cane = some c → Arrived s t c a.bar
      else exec (.barrierArrival a.id) s = .next s)
  ∧ ∀ (m : Marks) (s : State), GroupRuns s → (s.wgOf s.cur).parcel ≠ none → s.cur.stack = [] → s.cur.arrivals = [] →
      s.soloParcel = true →
      (if s.cur.unguarded = 0#32 then Completes (.barPhase m) m s s.fall 1 s.cur
        else ArrivesAt (.barPhase m) s .phase)
      ∧ ∀ (g : BitVec 13) (gr : Graft) (t : TaskType), (s.imageOf s.cur).grafts[g.toNat]? = some gr →
          (s.imageOf s.cur).taskType? gr.taskType = some t → t.priv ≤ s.cur.priv →
          if s.cur.unguarded = 0#32 then Completes (.graft m g) m s s.fall 1 s.cur
          else ArrivesAt (.graft m g) s (.graft g.toNat)

/-- R162, R165, R168 to R170, R432: PHASE_END completes: a workgroup whose canes have all arrived at BAR.PHASE, whose
record's pages pass and whose writes are performed, leaves once its record is written, and its next phase is queued.
GRAFT_EXECUTE completes: a graft that has room (R169's conditions) starts its canes at the graft's entry, on the same core,
with the carried registers and the carried scratch alone; without room it falls back to a record as a phase end does.
Nothing happens before the last arrival. -/
def Obligations.PhasesAndGraftsAct : Prop :=
  ∀ (s : State) (w : Workgroup) (p : Machine.Parcel), OneName s → s.findWg w.id = some w →
    w.parcel.bind s.findParcel = some p →
    let next : Item := ⟨p.id, p.priority, .phase w.linear, s.levelOf w, (s.die (dieOfCore w.core)).clock⟩
    let addr := p.phaseRecord w.linear
    let im := s.image w.terrace
    (s.everyArrived w.id = false → exec (.phaseEnd w.id) s = .next s ∧ exec (.graftExecute w.id) s = .next s)
    ∧ (s.everyArrived w.id = true → s.lastArrival w p = none → (∀ c ∈ s.canesOf w.id, c.wait = .phase) →
        s.recordCheck w addr (s.phasePlan w).size = .ok → s.settled w.id 5 = true →
        ∃ t item, exec (.phaseEnd w.id) s = .next t
          ∧ t = (s.writeRecord w (s.phasePlan w) addr (·.stageArg) fun c => im.ordinalAt c.pc.toNat true).leaveForPhase w p
          ∧ t.mem = s.mem ∧ t.canesOf w.id = [] ∧ t.findWg w.id = none
          ∧ (t.die p.die).queue = (s.die p.die).queue ++ [item] ∧ item.kind = next.kind ∧ item.parcel = p.id
          ∧ item.priority = p.priority ∧ item.level = next.level)
    ∧ ∀ (g : Nat) (gr : Graft) (tt : TaskType), (∀ c ∈ s.canesOf w.id, c.wait = .graft g) →
        s.everyArrived w.id = true → s.lastArrival w p = none → (s.image w.terrace).grafts[g]? = some gr →
        (s.image w.terrace).taskType? gr.taskType = some tt → s.settled w.id 1 = true →
        let n := ((List.range tt.canes).filter fun i => (s.canesOf w.id).any fun c => c.idx == i).length
        (w.recordMap = none → sameRoles (s.core w.core).roles tt.roles = true →
          (s.graftScratch w tt.scratch).isSome = true →
          (s.dictRoom w.core (tt.dict.map fun o => (w.terrace, o))).isSome = true →
          (s.graftRows w (((s.lowestCane w.id).map (·.stripe)).getD 0) tt.units n (tt.canes - n)).isSome = true →
          tt.canes - n ≤ (s.freeSlots w.core).length →
          ∃ t u, exec (.graftExecute w.id) s = .next t ∧ s.graftInPlace w gr tt = some u ∧ t = u.checkBarriers
          ∧ t.mem = s.mem
          ∧ (∀ c ∈ t.canesOf w.id, c.pc = BitVec.ofNat 64 ((s.image w.terrace).text + gr.entry) ∧ c.idx < tt.canes
            ∧ c.nreg = tt.regs ∧ c.priv = tt.priv ∧ c.core = w.core ∧ c.recon = 0xFFFFFFFF#32 ∧ c.qmask = 0#32
            ∧ ∀ old ∈ s.canesOf w.id, old.idx = c.idx → (∀ r l, gr.carry.getLsbD r = true → r < 128 → c.V r l = old.V r l)
              ∧ c.mode = if gr.carry.getLsbD 151 then old.mode else 0#32)
          ∧ ∀ x, t.findWg w.id = some x → x.taskType = gr.taskType ∧ x.ncanes = tt.canes ∧ x.scrSize = tt.scratch
            ∧ ∀ c ∈ x.scratch, c ∈ w.scratch ∧ ∃ r ∈ gr.ranges, r.1 ≤ c.1 ∧ c.1 < r.1 + r.2)
        ∧ (w.recordMap ≠ none ∨ s.graftInPlace w gr tt = none → (s.graftPlan w g gr).size ≤ p.stride →
          s.recordCheck w addr (s.graftPlan w g gr).size = .ok → s.settled w.id 5 = true →
          ∃ t item, exec (.graftExecute w.id) s = .next t ∧ t.mem = s.mem ∧ t.canesOf w.id = []
            ∧ item ∈ (t.die p.die).queue ∧ item.kind = next.kind ∧ item.parcel = p.id)

/-- R166, R167, R174, R188, R193: with no lane GROW, GROW.TRY and SHRINK have no effect. GROW and GROW.TRY give a cane
registers that read 0 behind those it has, when its stripe has room; without it GROW parks and GROW.TRY answers 0. Under
an exit-grade request a GROW that had parked, or would park, stands unissued. SHRINK takes the highest registers away. A parked request is granted in the
order of the pipes' choice, and a core whose canes all wait for room has its lowest-priority workgroup pre-empted. Which
request is granted first, and that an exiting workgroup is no victim, are the model's readings (log entry 38), as is the
fault for an absent core (log entry 60). -/
def Obligations.WindowsGrowAndShrink : Prop :=
  (∀ (m : Marks) (k : BitVec 4) (d : BitVec 3) (s : State), GroupRuns s → k ≠ 0#4 →
    let bigger (c : Cane) (e : Nat × Nat) : Prop :=
      c = { s.cur with v := c.v, rowPoison := c.rowPoison, ext1 := e, nreg := s.cur.nreg + 8 * k.toNat }
      ∧ (∀ r l, r < s.cur.nreg → c.V r l = s.cur.V r l) ∧ ∀ r l, s.cur.nreg ≤ r → c.V r l = 0#32
    (s.cur.unguarded = 0#32 →
        Completes (.grow m k) m s s.fall 1 s.cur ∧ Completes (.growTry m d k) m s s.fall 1 s.cur
          ∧ Completes (.shrink m k) m s s.fall 1 s.cur)
    ∧ (s.cur.unguarded ≠ 0#32 → s.cur.nreg + 8 * k.toNat ≤ 128 → s.cur.answer = none →
      ((s.wgOf s.cur).exiting = true → s.cur.stageArg ≠ 0 →
        exec (.grow m k) s = .next { s with cur := { s.cur with parkLeaf := some 8, wait := .withheld, pipe := none } })
      ∧ match s.growRoom s.cur k.toNat with
        | some e => ∃ c, bigger c e
            ∧ ((s.wgOf s.cur).exiting = false ∨ s.cur.stageArg = 0 → Completes (.grow m k) m s s.fall 1 c)
            ∧ Completes (.growTry m d k) m s s.fall 1 (c.setP s.cur.unguarded d.toNat 0xFFFFFFFF#32)
        | none =>
            ((s.wgOf s.cur).exiting = false →
              exec (.grow m k) s
                = .next { s with cur := { s.cur with parkLeaf := some 8, wait := .grow k.toNat, pipe := none } })
            ∧ ((s.wgOf s.cur).exiting = true →
              exec (.grow m k) s
                = .next { s with cur := { s.cur with parkLeaf := some 8, wait := .withheld, pipe := none } })
            ∧ Completes (.growTry m d k) m s s.fall 1 (s.cur.setP s.cur.unguarded d.toNat 0#32))
    ∧ (s.cur.answer ≠ none → s.cur.unguarded ≠ 0#32 → Completes (.grow m k) m s s.fall 1 s.cur)
    ∧ (s.cur.unguarded ≠ 0#32 → 128 < s.cur.nreg + 8 * k.toNat → s.cur.answer = none →
        Traps (.grow m k) s .illegalEncoding ∧ Traps (.growTry m d k) s .illegalEncoding)
    ∧ (s.cur.unguarded ≠ 0#32 → if s.cur.nreg < 8 + 8 * k.toNat then Traps (.shrink m k) s .illegalEncoding
      else ∃ c, Completes (.shrink m k) m s s.fall 1 c ∧ c.nreg = s.cur.nreg - 8 * k.toNat
        ∧ c = { s.cur with v := c.v, rowPoison := c.rowPoison, ext0 := c.ext0, ext1 := c.ext1, nreg := c.nreg }
        ∧ (k.toNat ≤ s.cur.ext1.2 → c.ext0 = s.cur.ext0 ∧ c.ext1.2 + k.toNat = s.cur.ext1.2)
        ∧ (∀ r l, r < c.nreg → c.V r l = s.cur.V r l) ∧ ∀ r l, c.nreg ≤ r → c.V r l = 0#32))
  ∧ (∀ (s : State) (c : Cane), OneName s → s.findCane c.id = some c →
      (c.growAsk = none → exec (.growGrant c.id) s = .next s)
      ∧ ∀ k e, c.wait = .grow k → s.growRoom c k = some e →
        (∀ d ∈ s.canes, d.core = c.core → d.id ≠ c.id → (s.grantable d).isSome = true → s.before d c = false) →
        ∃ t x, exec (.growGrant c.id) s = .next t ∧ t.mem = s.mem ∧ t.findCane c.id = some x ∧ x.wait = .none
          ∧ x.answer = some 1 ∧ x.nreg = c.nreg + 8 * k ∧ ∀ r l, r < c.nreg → x.V r l = c.V r l)
  ∧ ∀ (s : State) (core : Nat), OneName s →
      if 512 ≤ core then exec (.growVictimSelect core) s = .fault .noSuchUnit
      else if s.growStuck core = false then exec (.growVictimSelect core) s = .next s
      else ∃ t, exec (.growVictimSelect core) s = .next t ∧ ∀ w, lowestLast ((s.workgroups.filter fun w => w.core == core
          && !(s.canesOf w.id).isEmpty).filter fun w => !w.exiting && w.parcel.isSome) = some w → w.terrace < 16 →
        ∀ c ∈ t.canesOf w.id, ∀ k, c.wait ≠ .grow k

/-! ## Parcels and pre-emption (R153 to R161, R171, R195, R196, R313 to R321, R399) -/

namespace Sys2Proof.Claims

/-- R154: a leaf's cooperative set is placed as a whole: its members take the next linear ids on the cores of one group. -/
def OffersSets (s : State) (d : Nat) (it : Item) (p : Machine.Parcel) : Prop :=
  ∀ (tt : TaskType) (ps : List (Nat × Room)), it.kind = .leaf → (s.image p.terrace).taskType? p.taskType = some tt →
    p.setLog ≠ 0 → s.firstGroup p tt (2 ^ p.setLog) = some ps → (∀ x ∈ ps, s.startable x.1 it.stamp = true) →
    ∃ (t : State) (ws : List Workgroup), exec (.distributorOffer d) s = .next t ∧ t.mem = s.mem
      ∧ t.workgroups = s.workgroups ++ ws ∧ ws.length = 2 ^ p.setLog ∧ ws.map (·.core) = ps.map (·.1)
      ∧ ∀ i (h : i < ws.length), ws[i].linear = p.nextWg + i ∧ ws[i].parcel = some p.id
          ∧ ws[i].member = some ((p.nextWg + i) % 2 ^ p.setLog)

/-- R165, R319, R321: a cane of a workgroup that an item places again starts as the item says: at its kernel's entry, at
the place that its section of the phase record gives, or in the entry routine of the exit record's region. -/
def StartsAs (s : State) (p : Machine.Parcel) (i : Item) (c : Cane) : Prop :=
  let im := s.image p.terrace
  match i.kind with
  | .restart _ => c.pc = BitVec.ofNat 64 p.entry ∧ c.routine = .none ∧ c.mode = 0#32
  | .phase n => ∃ r, s.readRecord p.ctx im (p.phaseRecord n) false = some r ∧ (r.kind ≠ 2 →
      ∃ j < r.canes, leField (r.part j) 13 1 ≠ 2 ∧ c.idx = leField (r.part j) 12 1
        ∧ c.pc = BitVec.ofNat 64 (leField (r.part j) 0 8) ∧ c.mode = headMode r.carry (r.part j))
  | .resume n => ∃ r g off, s.readRecord p.ctx im (p.exitRecord n) true = some r ∧ g ∈ im.regions ∧ g.id = r.region
      ∧ g.entryOff = some off ∧ c.routine = .entry ∧ c.pc = BitVec.ofNat 64 (im.text + off)
  | _ => False

/-- R154, R161, R165, R173, R319, R321: what an item places again, alone or with the items of its set, takes cores that have
room, and leaves the queue; one whose task type is above its creator's level is placed nowhere (R34). -/
def OffersAgain (s : State) (d : Nat) (it : Item) (p : Machine.Parcel) : Prop :=
  let items := s.together d it p
  (∃ n, it.kind.linear = some n ∧ s.setStands p n = false) → (∀ i ∈ items, s.covers p.die i.stamp = true) →
    (∀ xs ys, s.plansOf p items = .ok xs → s.planPlaces p xs = some ys →
      (∀ z ∈ xs.zip ys, s.startable z.2.1 z.1.item.stamp = true) →
      ∃ (t : State) (ws : List Workgroup), exec (.distributorOffer d) s = .next t ∧ t.mem = s.mem
        ∧ t.workgroups = s.workgroups ++ ws ∧ ws.map (·.core) = ys.map (·.1)
        ∧ ws.map (fun w => some w.linear) = items.map (fun i => i.kind.linear)
        ∧ (t.die d).queue = items.foldl List.erase (s.die d).queue
        ∧ ∀ c ∈ t.others, c ∈ s.others ∨ ∃ w ∈ ws, ∃ i ∈ items, c.wg = w.id ∧ c.core = w.core
            ∧ i.kind.linear = some w.linear ∧ StartsAs s p i c)
    ∧ ∀ i, s.plansOf p items = .error (i, .refused) →
      ∃ t, exec (.distributorOffer d) s = .next t ∧ t.mem = s.mem ∧ (t.die d).queue = (s.die d).queue.erase i
        ∧ ∀ q ∈ t.parcels, q.id = p.id → q.faulted = true

end Sys2Proof.Claims

/-- R153 to R157, R160, R171, R172, R195, R196, R399: SPAWN makes a parcel of its record with what R156 leaves it of its parent:
accepted, refused, or, a terrace's root, waiting for ROUTE_CHECK, which does one or the other. PARCEL.WAIT ends once the
record has status 3 or 4 and the parcel is gone. PARCEL_COMPLETE ends the recording or replay of a root that is done,
writes the status of a parcel that is done, a root's being a launch completed (counted then: the model's reading, log entry
53), and then, in its second part, counts and ends it. An offer places a leaf's workgroup with its canes as R19 starts them,
a cooperative set on the cores of one group, what is placed again (a next phase, a resume, a restart) as its record or its
kernel's entry gives it, and a terrace's steward; an item of a level above its creator's is placed nowhere (R34). A
distributor of a die that does not exist is a fault (the model's choice, log entry 60), and a poisoned record traps
POISONED_DATA (log entry 30). -/
def Obligations.ParcelsSpawnAndComplete : Prop :=
  (∀ (m : Marks) (a : BitVec 6) (s : State), GroupRuns s →
    let n := 2 * a.toNat
    let r := (s.cur.uread64 n).toNat
    let d := dieOfCore s.cur.core
    Ready s (operandLanes true s.cur.unguarded) [n, n + 1] [s.cur.beyond [n, n + 1]] →
    if s.cur.unguarded = 0#32 then
      Completes (.spawn m a) m s s.fall 1 s.cur ∧ Completes (.parcelWait m a) m s s.fall 1 s.cur
    else if r % 256 ≠ 0 then Traps (.spawn m a) s .illegalEncoding ∧ Traps (.parcelWait m a) s .illegalEncoding
    else
      (s.cur.stage = 1 → Completes (.spawn m a) m s s.fall 1 s.cur)
      ∧ (s.cur.stage ≠ 1 → s.cur.released 5 = false →
          exec (.spawn m a) s = .next { s with cur := { s.cur with wait := .release 5, pipe := none } })
      ∧ (∀ pa, s.cur.stage ≠ 1 → s.cur.released 5 = true → s.recordPage m r needRW = .ok pa →
        let bs := s.dieBytes d pa 256
        if s.poisonedAt d pa 256 = true then Traps (.spawn m a) s .poisonedData else
        if leField bs 84 4 ≠ 0 ∧ leField bs 84 4 ≠ 3 ∧ leField bs 84 4 ≠ 4 then Traps (.spawn m a) s .illegalEncoding
        else ∀ (parent : Option Machine.Parcel) (p : Machine.Parcel),
          s.parentOf s.cur (leField bs 16 8) = some parent →
          p = (match parent with
            | none => Parcel.ofRecord bs s.nextId r pa (s.wgOf s.cur).terrace (s.recordVdev s.cur) d none (s.causal d)
            | some q => (Parcel.ofRecord bs s.nextId r pa (s.wgOf s.cur).terrace q.vdev d (some q)
                (s.causal d)).inherit q (leField bs 6 2)) →
          s.headerMiss p = false →
          ∃ t q, exec (.spawn m a) s = .next t ∧ t.mem = s.mem ∧ q ∈ t.parcels ∧ q.id = s.nextId ∧ q.addr = r
            ∧ q.parent = parent.map (·.id) ∧ q.priority = p.priority ∧ q.entry = p.entry ∧ q.count = p.count
            ∧ (recordBad bs = true ∨ s.parcelBad p s.cur.priv = true → q.status = 4 ∧ GoneTo m s.fall s t)
            ∧ (recordBad bs = false → s.parcelBad p s.cur.priv = false →
              if parent = none ∧ p.terrace < 16 then
                q.status = 0 ∧ t.cur.wait = .route ∧ t.cur.pc = s.cur.pc ∧ t.cur.stage = 1 ∧ t.cur.stageArg = s.nextId
              else q.status = 1 ∧ GoneTo m s.fall s t ∧ (p.kind = 1 → p.nextWg < p.count →
                ⟨s.nextId, p.priority, .leaf, 2, p.stamp⟩ ∈ (t.die d).queue)))
      ∧ (∀ past, past = s.cur.seen → s.cur.answer ≠ none → s.covers d past = true →
          ∃ t, exec (.parcelWait m a) s = .next t ∧ GoneTo m s.fall s t ∧ SameBytes s t
            ∧ (t.core s.cur.core).l1 = [] ∧ t.cur.atRest = s.cur.atRest)
      ∧ ∀ pa, s.cur.answer = none → s.recordPage m r needR = .ok pa →
          let st := leNat ((List.range 4).map fun i => s.homeByte (pa + 84 + i))
          if s.poisoned (pa + 84) 4 = true then Traps (.parcelWait m a) s .poisonedData
          else if (st = 3 ∨ st = 4) ∧ ∀ p ∈ s.parcels, p.pa ≠ pa then
            s.covers d (joinClocks s.cur.seen (s.pastOf (lineOf pa))) = true →
            ∃ t, exec (.parcelWait m a) s = .next t ∧ GoneTo m s.fall s t ∧ SameBytes s t
              ∧ (t.core s.cur.core).l1 = [] ∧ t.cur.atRest = s.cur.atRest
          else exec (.parcelWait m a) s = .next { s with cur := { s.cur with wait := .parcel pa, pipe := none } })
  ∧ (∀ (s : State) (p : Machine.Parcel), s.findParcel p.id = some p →
      (p.status ≠ 0 → exec (.routeCheck p.id) s = .next s)
      ∧ (p.status = 0 → ∃ t q, exec (.routeCheck p.id) s = .next t ∧ q ∈ t.parcels ∧ q.id = p.id
        ∧ q.status = (if !p.retagged && s.routesOk p.terrace p.die (fun d => s.rowCrcOk d p.terrace) then 1 else 4)
        ∧ (p.retagged = false → (s.routesOk p.terrace p.die fun d => s.rowCrcOk d p.terrace) = true → t.mem = s.mem)
        ∧ ∀ c ∈ t.cur :: t.others, c.wait = .route → c.stageArg ≠ p.id)
      ∧ (s.completeDue p = false → exec (.parcelComplete p.id) s = .next s)
      ∧ (s.completeDue p = true → p.status < 3 →
        if s.replayRoot p = true then ∃ t, exec (.parcelComplete p.id) s = .next t ∧ t.mem = s.mem
          ∧ (t.terrace p.terrace).dbg.replayActive = 0 ∧ t.parcels = s.parcels
        else ∃ t q, exec (.parcelComplete p.id) s = .next t ∧ t.mem = s.mem
          ∧ q ∈ t.parcels ∧ q.id = p.id ∧ (q.status = if p.faulted then 4 else 3)
          ∧ (t.terrace p.terrace).usage.launches
            = (s.terrace p.terrace).usage.launches + if p.parent.isSome then 0 else 1)
      ∧ (s.completeDue p = true → 3 ≤ p.status → Memory.wf s.mem = true →
        ∃ t, exec (.parcelComplete p.id) s = .next t ∧ (∀ q ∈ t.parcels, q.id ≠ p.id)
          ∧ (∀ c ∈ t.cur :: t.others, c.wait ≠ .parcel p.pa)
          ∧ ∀ pa, p.counter ≠ 0 → s.ctxTranslate p.ctx p.counter needRW = some pa → s.poisoned pa 8 = false →
              leNat ((List.range 8).map fun i => t.homeByte (pa + i))
                = (leNat ((List.range 8).map fun i => s.homeByte (pa + i)) + 1) % 2 ^ 64))
  ∧ ∀ (s : State) (d : Nat),
      if 4 ≤ d then exec (.distributorOffer d) s = .fault .noSuchUnit
      else (s.offer d = none → ∃ t, exec (.distributorOffer d) s = .next t ∧ t = { s with freeCount := t.freeCount })
        ∧ (∀ (it : Item) (p : Machine.Parcel), s.headOf d = some it → s.findParcel it.parcel = some p →
          OffersSets s d it p ∧ OffersAgain s d it p)
        ∧ (∀ (it : Item) (k : Nat) (v : StewardValues), s.headOf d = some it → it.kind = .steward k →
          (s.terrace k).steward = some v → (s.placeSteward k).isSome = true →
          ∃ (t : State) (w : Workgroup) (c : Cane), exec (.distributorOffer d) s = .next t ∧ t.mem = s.mem
            ∧ t.workgroups = s.workgroups ++ [w] ∧ w.terrace = k ∧ w.parcel = none ∧ t.others = s.others ++ [c]
            ∧ c.wg = w.id ∧ c.idx = 0 ∧ c.pc = BitVec.ofNat 64 v.entry ∧ c.priv = 1 ∧ c.recon = 0xFFFFFFFF#32)
        ∧ ∀ (it : Item) (p : Machine.Parcel) (tt : TaskType), s.headOf d = some it → it.kind = .leaf →
          s.findParcel it.parcel = some p → (s.image p.terrace).taskType? p.taskType = some tt → p.setLog = 0 →
          (s.placeLeaf d it p tt).isSome = true →
          ∃ (t : State) (w : Workgroup) (cs : List Cane), exec (.distributorOffer d) s = .next t ∧ t.mem = s.mem
            ∧ t.workgroups = s.workgroups ++ [w] ∧ w.linear = p.nextWg ∧ w.parcel = some p.id ∧ w.scratch = []
            ∧ w.core ∈ s.searchCores p.terrace ∧ t.others = s.others ++ cs ∧ cs.length = tt.canes
            ∧ ∀ i (h : i < cs.length), cs[i].idx = i ∧ cs[i].live = true ∧ cs[i].pc = BitVec.ofNat 64 p.entry
                ∧ cs[i].nreg = tt.regs ∧ cs[i].priv = tt.priv ∧ cs[i].mode = 0#32 ∧ cs[i].flags = 0#32
                ∧ cs[i].recon = 0xFFFFFFFF#32 ∧ cs[i].qmask = 0#32 ∧ cs[i].stack = [] ∧ (∀ r l, cs[i].V r l = 0#32)
                ∧ cs[i].lfsr = 0x9E370000#32 ^^^ BitVec.ofNat 32 (p.nextWg % 2048 * 32 + i)

/-- R167, R313 to R320: under an exit-grade request a cane is vectored at a stop point into its region's exit routine, with its
registers kept and the place of its carried words in the lowest affine register that is not carried. When every cane's
routine has ended the workgroup leaves; its resume item is queued if the record is trusted. A bound that expires takes the
workgroup away at once, and a drain bound that expires makes an exit-grade request with a fresh bound; both events move the
reference timer to the bound (the model's choice, log entry 22). A breakpoint at the stop point comes first (R357), and the
stack is kept at vectoring (the model's reading, log entry 40). -/
def Obligations.ExitsAct : Prop :=
  (∀ (s : State) (id : Nat), (s.cur.id ≠ id ∨ s.vectorDue = false ∨ s.breakpointDue = true) → exec (.exitVector id) s = .next s)
  ∧ (∀ (s : State) (p : Machine.Parcel) (r : Region), s.vectorDue = true → s.breakpointDue = false →
      let w := s.wgOf s.cur
      let im := s.image w.terrace
      w.parcel.bind s.findParcel = some p → im.regionAt s.cur.pc.toNat = some r →
      s.recordOpen w (p.exitRecord w.linear) (exitBytes (s.sectionCount w) r.carry r.ranges) = true →
      (w.exitRec = none → exitBytes (s.sectionCount w) r.carry r.ranges ≤ p.stride) →
      let place := (w.exitRec.map fun e => (e.addr, e.carry)).getD (p.exitRecord w.linear, r.carry)
      (r.restart = true → ∃ t, exec (.exitVector s.cur.id) s = .next t ∧ t.canesOf w.id = []
        ∧ (w.returns = true → p.restartable = true → t.mem = s.mem))
      ∧ ∀ k off, r.restart = false → r.exitOff = some off → freeAffine r.carry = some k →
        ∃ t, exec (.exitVector s.cur.id) s = .next t ∧ t.mem = s.mem ∧ t.cur.routine = .exit ∧ t.cur.vectored = true
          ∧ t.cur.vecPc = s.cur.pc ∧ t.cur.pc = BitVec.ofNat 64 (im.text + off) ∧ t.cur.mode = 0#32
          ∧ t.cur.recon = 0xFFFFFFFF#32 ∧ t.cur.v = s.cur.v ∧ t.cur.p = s.cur.p ∧ t.cur.stack = s.cur.stack
          ∧ t.cur.qmask = s.cur.qmask
          ∧ t.cur.aff k = ⟨BitVec.ofNat 64 (place.1 + firstCarried place.2 s.cur.idx), 4#32⟩
          ∧ ∀ j, j ≠ k → t.cur.aff j = s.cur.aff j)
  ∧ ∀ (s : State) (w : Workgroup) (p : Machine.Parcel), s.findWg w.id = some w → w.parcel.bind s.findParcel = some p →
      (∀ e, w.exitRec = some e →
        if s.exitsDone w = false ∨ s.settled w.id 5 = false then exec (.exitDecision w.id) s = .next s
        else s.recordOpen w e.addr (exitBytes e.canes e.carry e.ranges) = true →
          ∃ t, exec (.exitDecision w.id) s = .next t ∧ t.canesOf w.id = []
            ∧ (s.exitTrusted w e = true ∨ (w.returns = true ∧ p.restartable = true) → t.mem = s.mem)
            ∧ (t.terrace w.terrace).usage.preemptions = (s.terrace w.terrace).usage.preemptions + 1
            ∧ (s.exitTrusted w e = true → w.returns = true →
              ∃ item ∈ (t.die p.die).queue, item.kind = .resume w.linear ∧ item.parcel = p.id
                ∧ item.level = s.levelOf w))
      ∧ (if s.boundDue w = false then exec (.exitBoundExpiry w.id) s = .next s
        else ∃ t, exec (.exitBoundExpiry w.id) s = .next t ∧ t.canesOf w.id = []
          ∧ (w.returns = true → p.restartable = true → t.mem = s.mem)
          ∧ ∀ q, w.request = some q → q.deadline ≤ t.rtime)
      ∧ (if s.drainDue w = false then exec (.drainEscalation w.id) s = .next s
        else w.terrace < 16 → w.member = none → s.canesOf w.id ≠ [] → (∀ c ∈ s.canesOf w.id, c.wait ≠ .fault) →
          ∃ t x, exec (.drainEscalation w.id) s = .next t ∧ t.mem = s.mem ∧ t.findWg w.id = some x
            ∧ (∀ q, w.request = some q → t.rtime = max s.rtime q.deadline)
            ∧ x.request = some ⟨true, (w.pause.map (·.1)).getD t.rtime + (s.terrace w.terrace).part.exitBound, false, false, none⟩)

/-! ## Engines (R244 to R265) -/

namespace Sys2Proof.Claims

/-- An engine instruction that moves n bytes between two windows. -/
def movesBytes (n : Nat) (src dst : Window → Bool) (host : Bool) : EngineForm :=
  { src := engineSource n src, dst := engineDest n dst host, srcBytes := n, dstBytes := n, rowBytes := 1,
    rows := noRows }

/-- Its operations. -/
def planOf (kind : OpKind) (tag n : Nat) (targets : List Nat) : OpPlan :=
  { kind := kind, tag := tag, size := n, strict := false, base := 0, stride := 0, rows := 0, targets := targets,
    srcBytes := n, dstBytes := n, dstElem := 4 }

/-- R246, R254 to R257: the engine instructions: address fields, descriptor registers, checks, form and operations. -/
def engineOf (s : State) :
    Instr → Option (Marks × BitVec 7 × BitVec 7 × List Nat × List (Bool × Cause) × EngineForm × OpPlan)
  | .cp4 m d a b => some (m, d, a, [], [], movesBytes 4 sharedWindows sharedWindows true, planOf .copy b.toNat 4 [])
  | .cp8 m d a b => some (m, d, a, [], [], movesBytes 8 sharedWindows sharedWindows true, planOf .copy b.toNat 8 [])
  | .cp16 m d a b => some (m, d, a, [], [], movesBytes 16 sharedWindows sharedWindows true, planOf .copy b.toNat 16 [])
  | .pull m d a b => some (m, d, a, [], [], movesBytes 16 remoteOnly scratchOnly false, planOf .pull b.toNat 16 [])
  | .mcast m d a b =>
    let x := s.cur.V b.toNat (firstLane s.cur.active)
    some (m, d, a, [b.toNat],
      [(s.cur.active != 0 && (bitsAt x 22 10 != 0 || bitsAt x 0 16 == 0), .illegalEncoding),
       (s.cur.active != 0 && s.mcastBad (bitsAt x 0 16), .mcastTarget)],
      movesBytes 16 globalOnly scratchOnly false, planOf .mcast (bitsAt x 16 6) 16 (s.mcastTargets (bitsAt x 0 16)))
  | .gather m d a b =>
    let x := s.cur.V b.toNat (firstLane s.cur.active)
    let e := 2 ^ bitsAt x 16 4
    let n := bitsAt x 20 8
    let t := s.tensor (dieOfCore s.cur.core) (s.wgOf s.cur).terrace (bitsAt x 0 8)
    let base := (t.map TensorEntry.base).getD 0
    let stride := (t.map TensorEntry.stride).getD 0
    let rows := (t.map TensorEntry.outer).getD 0
    some (m, d, a, [b.toNat],
      [(s.cur.active != 0 && (x.getLsbD 15 || decide (bitsAt x 16 4 < 2) || decide (7 < bitsAt x 16 4) || n == 0
          || bitsAt x 28 4 != 0), .illegalEncoding), (s.cur.active != 0 && t.isNone, .tensorId)],
      { src := engineSource 4 sharedWindows, dst := engineDest e sharedWindows false, srcBytes := 4 * n,
        dstBytes := e * n, rowBytes := e, rows := gatherRows (4 * n) base stride rows },
      { kind := .gather, tag := bitsAt x 8 6, size := e, strict := x.getLsbD 14, base := base, stride := stride,
        rows := rows, targets := [], srcBytes := 4 * n, dstBytes := e * n, dstElem := e })
  | _ => none

/-- The tag waits: whether each waits for any tag, its registers and its mask. -/
def tagWaitOf (s : State) : Instr → Option (Marks × Bool × List Nat × Nat)
  | .tagWanyImm m i => some (m, true, [], (s.imm i).toNat)
  | .tagWallImm m i => some (m, false, [], (s.imm i).toNat)
  | .tagWanyReg m d => some (m, true, [2 * d.toNat, 2 * d.toNat + 1], (s.cur.uread64 (2 * d.toNat)).toNat)
  | .tagWallReg m d => some (m, false, [2 * d.toNat, 2 * d.toNat + 1], (s.cur.uread64 (2 * d.toNat)).toNat)
  | _ => none

/-- TAG.CLR in its two forms. -/
def tagClrOf (s : State) : Instr → Option (Marks × List Nat × Nat)
  | .tagClrImm m i => some (m, [], (s.imm i).toNat)
  | .tagClrReg m d => some (m, [2 * d.toNat, 2 * d.toNat + 1], (s.cur.uread64 (2 * d.toNat)).toNat)
  | _ => none

/-- R248: a tag of the issuing cane's core that has been used and has nothing outstanding. -/
def DoneTag (s : State) (t : Nat) : Prop :=
  t < 64 ∧ ((s.core s.cur.core).tag t).used = true ∧ ((s.core s.cur.core).tag t).count = 0

/-- R249, R253: a wait ends with a result in p[MODE.GP]. -/
def TagEnds (i : Instr) (m : Marks) (s : State) (r : Nat) : Prop :=
  Completes i m s s.fall 1 (s.cur.setP s.cur.unguarded s.cur.gp (if r = 0 then 0#32 else 0xFFFFFFFF#32))

/-- The cane stands at its instruction in a wait. -/
def Parks (i : Instr) (s : State) (c : Cane) (w : Wait) : Prop :=
  exec i s = .next { s with cur := { c with wait := w, pipe := none } }

/-- The places of n bytes of an engine's element. -/
def placeSpots : Place → Nat → List Spot
  | .glob pa, n => (List.range n).map fun i => .glob (pa + i)
  | .scratch wg off, n => (List.range n).map fun i => .scr wg (off + i)
  | _, _ => []

/-- What an engine of a terrace reads there at a die. -/
def placeBytes (s : State) (t d : Nat) : Place → Nat → List Byte
  | .glob pa, n => s.bytesFor t d pa n
  | .scratch wg off, n => Memory.readBytes (s.scratchOf wg) off n
  | _, _ => []

/-- An element lies in memory whose home a terrace reaches, or in a workgroup's scratch. -/
def OpenPlace (s : State) (t d : Nat) (p : Place) : Prop :=
  match p with
  | .glob pa => s.pathTo t d pa = .arrives
  | .scratch wg _ => (s.findWg wg).isSome = true
  | _ => False

/-- An element that an engine reads, which its requests reach and which is not poisoned. -/
def CleanPlace (s : State) (t d : Nat) (p : Place) (n : Nat) : Prop :=
  OpenPlace s t d p ∧ match p with
  | .glob pa => s.poisonFor t d pa n = false
  | .scratch wg off => s.scratchPoisoned wg off n = false ∧ s.reaches t d (s.scratchDie wg) = true
  | _ => False

/-- R247: an element as an operation may read it: as it stands, or, in its cane's scratch, as it stood before a plain store
that no fence orders before the operation. -/
def ReadAs (s : State) (o : AsyncOp) (p : Place) (n : Nat) (bytes : List Byte) : Prop :=
  bytes = placeBytes s o.terrace (dieOfCore o.core) p n ∨ ∃ off, p = .scratch o.wg off ∧ (off, bytes) ∈ o.stale

/-- In t exactly these bytes of memory and scratch have been written since s. -/
def Wrote (s t : State) (p : Place) (bytes : List Byte) : Prop :=
  ∀ q, (∀ x, q ≠ .reg x) → held t q = (lastAt q ((placeSpots p bytes.length).zip bytes)).getD (held s q)

end Sys2Proof.Claims

/-- R244 to R246, R249 to R257, R261: an engine instruction accepts one operation for each active lane, counted in its tag
and in the cane's open batch, and waits when the engine has no room; nothing is moved yet. The waits on tags and batches
end with their result in p[MODE.GP] or park; TAG.FFR finds a done tag; TAG.CLR frees tags; CP.SEAL seals the open batch;
DECANT notes the writes that its flip waits for, releases, and then asks for the flip and waits for it. -/
def Obligations.EnginesAcceptAndWait : Prop :=
  (∀ (i : Instr) (s : State) (m : Marks) (d a : BitVec 7) (desc : List Nat) (checks : List (Bool × Cause))
      (f : EngineForm) (p : OpPlan), engineOf s i = some (m, d, a, desc, checks, f, p) →
    let regs := addrRegs d ++ addrRegs a ++ desc
    let srcs := lanesFor m.u s.cur.active (s.cur.baseAt a)
    let dsts := lanesFor m.u s.cur.active (s.cur.baseAt d)
    Ready s (operandLanes m.u s.cur.active) (addrRegs d ++ addrRegs a) (s.cur.beyond regs :: checks) →
    s.cur.poisonedRow (operandLanes true s.cur.active) desc = none →
    (s.cur.active = 0#32 → Completes i m s s.fall (vecCycles m.u 0#32 [regs]) s.cur)
    ∧ ∀ (ss ds : Nat → List Seg) (ra : List LaneAcc), s.cur.active ≠ 0#32 → s.cur.heldBy none = none →
      Reaches s f.src f.srcBytes srcs ss → Reaches s f.dst f.dstBytes dsts ds →
      s.judge (engineSource 1 globalOnly) f.rowBytes ((srcs.map fun x => ⟨x.1, x.2, ss x.1⟩).flatMap (f.rows s))
        = .lanes ra [] → (∀ x ∈ ra, x.hitsBlocks = false) →
      if (if p.kind = .gather then 1024 else 4096) < s.engineLoad s.cur.core (p.kind == .gather) + srcs.length then
        ∃ t, exec i s = .next t ∧ OnlyRead s t ∧ t.cur.wait = .engineRoom ∧ t.cur.pipe = none ∧ t.cur.pc = s.cur.pc
      else ∃ (t : State) (ops : List AsyncOp), exec i s = .next t ∧ GoneTo m s.fall s t ∧ SameBytes s t
        ∧ t.asyncOps = s.asyncOps ++ ops ∧ ops.length = srcs.length
        ∧ (∀ k (h : k < ops.length), ops[k].id = s.nextId + k ∧ ops[k].group = s.nextId ∧ ops[k].kind = p.kind
          ∧ ops[k].cane = some s.cur.id ∧ ops[k].wg = s.cur.wg ∧ ops[k].core = s.cur.core ∧ ops[k].tag = p.tag
          ∧ ops[k].batch = s.cur.sealCount ∧ ops[k].size = p.size ∧ ops[k].targets = p.targets
          ∧ ops[k].done = 0 ∧ ops[k].failed = none ∧ some ops[k].srcVa = (srcs[k]?).map (·.2)
          ∧ some ops[k].dstVa = (dsts[k]?).map (·.2) ∧ 4 * ops[k].src.length = f.srcBytes / 4 * 4)
        ∧ (t.core s.cur.core).tag p.tag = { (s.core s.cur.core).tag p.tag with
            count := ((s.core s.cur.core).tag p.tag).count + srcs.length, used := true }
        ∧ (∀ x, x ≠ p.tag → (t.core s.cur.core).tag x = (s.core s.cur.core).tag x)
        ∧ t.cur.atRest = { s.cur with openPending := s.cur.openPending + srcs.length, openUsed := true,
                                      fenceScope := none }.atRest)
  ∧ (∀ (i : Instr) (s : State) (m : Marks) (any : Bool) (regs : List Nat) (mask : Nat),
    tagWaitOf s i = some (m, any, regs, mask) →
    Ready s (operandLanes true s.cur.unguarded) regs [s.cur.beyond regs, (s.cur.routine == .exit, .illegalEncoding)] →
    let met := if any then ∃ t, mask.testBit t = true ∧ DoneTag s t else ∀ t, mask.testBit t = true → DoneTag s t
    let err := ∃ t, mask.testBit t = true ∧ DoneTag s t ∧ ((s.core s.cur.core).tag t).err = true
    (∀ r, s.cur.answer = some r → TagEnds i m s r)
    ∧ (s.cur.answer = none → any = true → mask = 0 → TagEnds i m s 0)
    ∧ (s.cur.answer = none → (any = true → mask ≠ 0) →
      (met → err → TagEnds i m s 0) ∧ (met → ¬err → TagEnds i m s 1)
      ∧ (¬met → if (s.wgOf s.cur).exiting = true then TagEnds i m s 0 else Parks i s s.cur (.tags any mask))))
  ∧ (∀ (i : Instr) (s : State) (m : Marks) (regs : List Nat) (mask : Nat), tagClrOf s i = some (m, regs, mask) →
    Ready s (operandLanes true s.cur.unguarded) regs [s.cur.beyond regs, (s.cur.routine == .exit, .illegalEncoding)] →
    let free := ∀ t < 64, mask.testBit t = true → ((s.core s.cur.core).tag t).count = 0
    (free → ∃ t, exec i s = .next t ∧ GoneTo m s.fall s t ∧ SameBytes s t ∧ ∀ x < 64, (t.core s.cur.core).tag x
        = if mask.testBit x then { (s.core s.cur.core).tag x with used := false, err := false }
          else (s.core s.cur.core).tag x)
    ∧ (¬free → Parks i s s.cur (.tagClear mask)))
  ∧ (∀ (m : Marks) (d : BitVec 7) (a : BitVec 6) (s : State),
    Ready s (operandLanes true s.cur.unguarded) [2 * a.toNat, 2 * a.toNat + 1] [s.cur.beyond (d.toNat :: [2 * a.toNat, 2 * a.toNat + 1])] →
    ∃ (k : Cane) (r : Word), Completes (.tagFfr m d a) m s s.fall 1 k ∧ k = { s.cur with v := k.v, rowPoison := k.rowPoison }
      ∧ (∀ x l, l < 32 → k.V x l = if x = d.toNat ∧ s.cur.unguarded.getLsbD l = true then r else s.cur.V x l)
      ∧ ((∃ t, (s.cur.uread64 (2 * a.toNat)).toNat.testBit t = true ∧ DoneTag s t ∧ r = BitVec.ofNat 32 t
          ∧ ∀ u < t, (s.cur.uread64 (2 * a.toNat)).toNat.testBit u = true → ¬DoneTag s u)
        ∨ (r = 0xFFFFFFFF#32 ∧ ∀ t, (s.cur.uread64 (2 * a.toNat)).toNat.testBit t = true → ¬DoneTag s t)))
  ∧ (∀ (m : Marks) (s : State),
    (s.cur.openUsed = false → Completes (.cpSeal m) m s s.fall 1 s.cur)
    ∧ (s.cur.openUsed = true → 15 ≤ s.cur.batches.length → Parks (.cpSeal m) s s.cur .engineRoom)
    ∧ (s.cur.openUsed = true → s.cur.batches.length < 15 → Completes (.cpSeal m) m s s.fall 1
        { s.cur with
          batches := if s.cur.openPending = 0 then s.cur.batches
            else s.cur.batches ++ [⟨s.cur.sealCount, s.cur.openPending, s.cur.openErr⟩]
          sealCount := s.cur.sealCount + 1, openPending := 0, openUsed := false, openErr := false })
    ∧ ∀ n : BitVec 4, GroupRuns s →
      (∀ r, s.cur.answer = some r → TagEnds (.cpWaitb m n) m s r)
      ∧ (s.cur.answer = none → if s.cur.batches.length ≤ n.toNat then TagEnds (.cpWaitb m n) m s 1
        else if (s.wgOf s.cur).exiting = true then TagEnds (.cpWaitb m n) m s 0
        else Parks (.cpWaitb m n) s { s.cur with waitSet := s.cur.batches.map (·.serial), waitErr := false }
          (.batch n.toNat)))
  ∧ ∀ (m : Marks) (d : BitVec 3) (a : BitVec 7) (s : State), s.cur.routine ≠ .exit →
    Ready s (operandLanes true s.cur.unguarded) [a.toNat] [s.cur.beyond [a.toNat]] →
    let h := (s.cur.uread a.toNat).toNat
    let t := (s.wgOf s.cur).terrace
    if s.cur.unguarded = 0#32 ∨ s.cur.stage = 2 then Completes (.decant m d a) m s s.fall 1 s.cur
    else (s.cur.stage = 0 → (∀ x ∈ s.decantOps, x.id ≠ s.nextId) →
      if d.toNat < 2 ∨ 5 < d.toNat ∨ 255 < h ∨ (s.decantEntry t h).valid = false then
        Traps (.decant m d a) s .illegalEncoding
      else ∃ (u : State) (o : DecantOp), exec (.decant m d a) s = .next u ∧ SameBytes s u
            ∧ u.decantOps = s.decantOps ++ [o] ∧ o.terrace = t ∧ o.handle = h ∧ o.cane = s.cur.id ∧ o.flipped = false
            ∧ o.die = dieOfCore s.cur.core ∧ (o.ops, o.lines) = s.acceptedWrites t h ∧ u.cur.stageArg = o.id
            ∧ u.cur.pc = s.cur.pc ∧ u.terraces = s.terraces
            ∧ match s.cur.heldBy (some d.toNat) with
              | some sc => o.asked = false ∧ u.cur.wait = .release sc ∧ u.cur.stage = 1
              | none => o.asked = true ∧ u.cur.wait = .decant o.id ∧ u.cur.stage = 2)
    ∧ (s.cur.stage = 1 → match s.cur.heldBy (some d.toNat) with
      | some sc => Parks (.decant m d a) s { s.cur with parkLeaf := some 5 } (.release sc)
      | none => ∃ u, exec (.decant m d a) s = .next u ∧ SameBytes s u ∧ u.terraces = s.terraces
          ∧ (∀ o ∈ u.decantOps, o.id = s.cur.stageArg → o.asked = true) ∧ u.cur.wait = .decant s.cur.stageArg
          ∧ u.cur.stage = 2 ∧ u.cur.pc = s.cur.pc)

/-- R217, R246 to R248, R252 to R254, R257 to R262: an operation moves its elements one by one, in order; a gather writes
the row that an index names, zeros for one out of range (which GFM notes), and nothing for 0xFFFF_FFFF; a multicast is
read once and delivered to each member that is still there, and counted for one that is not. An operation that has done
all is taken from its tag and its batch. A flip exchanges a decant buffer's copies at its home, and then at each die. Whether
a copy reads an unfenced store of its cane is a free choice (R247, log entry 20), and an event that names a die that does
not exist is a fault (the model's choice, log entry 60). -/
def Obligations.OperationsPerform : Prop :=
  (∀ (s : State) (o : AsyncOp) (p q : Place), s.findOp o.id = some o → Canonical s → o.src[o.done]? = some p →
    o.dst[o.done]? = some q → s.elementDue o = true → CleanPlace s o.terrace (dieOfCore o.core) p
      (if o.kind = .mcast then 16 else 4) →
    let d := dieOfCore o.core
    let perform := if o.kind = .gather then exec (.gatherPerform o.id o.lane) s else exec (.asyncOperationPerform o.id) s
    (o.kind = .copy ∨ o.kind = .pull → OpenPlace s o.terrace d q →
      ∃ t x bytes, perform = .next t ∧ t.findOp o.id = some x ∧ x.done = o.done + 1 ∧ x.failed = o.failed
        ∧ ReadAs s o p 4 bytes ∧ Wrote s t q bytes)
    ∧ (o.kind = .mcast → o.stale = [] → ∃ t x, perform = .next t ∧ t.findOp o.id = some x ∧ x.done = o.dst.length
        ∧ x.data = placeBytes s o.terrace d p 16 ∧ x.targets = o.targets ∧ t.mem = s.mem ∧ t.workgroups = s.workgroups)
    ∧ (o.kind = .gather → o.stale = [] →
      let x := leNat (placeBytes s o.terrace d p 4)
      let va := o.base + x * o.stride
      (x = 0xFFFFFFFF → ∃ t y, perform = .next t ∧ t.findOp o.id = some y ∧ y.done = o.done + 1 ∧ y.failed = o.failed
        ∧ t.mem = s.mem ∧ t.workgroups = s.workgroups)
      ∧ (x ≠ 0xFFFFFFFF → o.rows ≤ x → o.strict = false → OpenPlace s o.terrace d q →
        ∃ t y, perform = .next t ∧ t.findOp o.id = some y ∧ y.done = o.done + 1 ∧ y.failed = o.failed
          ∧ Wrote s t q (List.replicate o.size 0#8)
          ∧ ∀ id k, o.cane = some id → s.findCane id = some k → o.lane < 32 → ∃ k', t.findCane id = some k' ∧ k'.gfm.getLsbD o.lane = true)
      ∧ (x ≠ 0xFFFFFFFF → x < o.rows → OpenPlace s o.terrace d q →
        (∀ j < o.size, ∃ a, s.dataAddress o (va + j) = some a ∧ s.pathTo o.terrace d a = .arrives
          ∧ s.granulePoison o.terrace d (a / 32) = false) →
        ∃ t y, perform = .next t ∧ t.findOp o.id = some y ∧ y.done = o.done + 1 ∧ y.failed = o.failed
          ∧ Wrote s t q ((List.range o.size).map fun j => s.byteFor o.terrace d ((s.dataAddress o (va + j)).getD 0)))))
  ∧ (∀ (s : State) (o : AsyncOp) (member : Nat), s.findOp o.id = some o →
    if s.deliveryDue o member = false then exec (.mcastDelivery o.id member) s = .next s
    else ∀ wg off rest, o.dst = .scratch wg off :: rest → Canonical s →
      ∃ t x, exec (.mcastDelivery o.id member) s = .next t ∧ t.findOp o.id = some x ∧ x.targets = o.targets.erase member
        ∧ if s.findWg member = none ∨ s.canesOf member = [] then t.workgroups = s.workgroups ∧ t.mem = s.mem
            ∧ t.core o.core = (s.core o.core).count 0x021 1
          else if s.reaches o.terrace (dieOfCore o.core) (s.scratchDie member) = false then
            t.workgroups = s.workgroups ∧ x.failed.isSome = true
          else Wrote s t (.scratch member off) o.data)
  ∧ (∀ (s : State) (o : AsyncOp), s.findOp o.id = some o →
    if s.opDone o = false then exec (.asyncOperationComplete o.id) s = .next s
    else ∃ t, exec (.asyncOperationComplete o.id) s = .next t ∧ t.findOp o.id = none ∧ t.mem = s.mem
      ∧ ((t.core o.core).tag o.tag).count = ((s.core o.core).tag o.tag).count - 1
      ∧ ((t.core o.core).tag o.tag).err = (((s.core o.core).tag o.tag).err
          || (o.failed.isSome && ((s.core o.core).tag o.tag).used))
      ∧ ∀ id c, o.cane = some id → s.findCane id = some c → ∃ k, t.findCane id = some k
        ∧ (c.sealCount = o.batch → k.openPending = c.openPending - 1 ∧ k.openErr = (c.openErr || o.failed.isSome)
            ∧ k.batches = c.batches)
        ∧ (c.sealCount ≠ o.batch → k.openPending = c.openPending ∧ ∀ b ∈ k.batches, b.pending ≠ 0))
  ∧ ∀ (s : State) (o : DecantOp), s.findFlip o.id = some o →
    let e := s.decantEntry o.terrace o.handle
    (if s.flipDue o = false then exec (.decantFlip o.id) s = .next s
      else ∃ t, exec (.decantFlip o.id) s = .next t ∧ t.mem = s.mem ∧ t.workgroups = s.workgroups
        ∧ (t.decantEntry o.terrace o.handle).live = !e.live
        ∧ (t.decantEntry o.terrace o.handle).flips = (e.flips + 1) % 2 ^ 64
        ∧ getI e.live (t.decantEntry o.terrace o.handle).seen o.die = !e.live
        ∧ ∀ c ∈ t.canes, c.id = o.cane → c.wait ≠ .decant o.id)
    ∧ ∀ d, if 4 ≤ d then exec (.decantFlipApply o.id d) s = .fault .noSuchUnit
      else if s.flipApplyDue o d = false then exec (.decantFlipApply o.id d) s = .next s
      else ∃ t, exec (.decantFlipApply o.id d) s = .next t ∧ t.mem = s.mem
        ∧ getI e.live (t.decantEntry o.terrace o.handle).seen d = o.live
        ∧ (t.decantEntry o.terrace o.handle).live = e.live
        ∧ (∀ k, getI 0 (t.die d).clock k = if k = dieNumber o.die then max (getI 0 (s.die d).clock k) (getI 0 o.stamp k)
            else getI 0 (s.die d).clock k)
        ∧ ∀ x ∈ t.decantOps, x.id = o.id → d ∉ x.todo

/-! ## Tile tasks (R266 to R302) -/

namespace Sys2Proof.Claims

/-- R273, R293: a tile-task queue whose 64-byte header h lies at va for the issuing cane, and at qpa in memory: the page is
cached, the access passes every check, its beats have room, and the header is in order. -/
structure QueueHead (s : State) (need : Need) (va qpa : Nat) (h : List Byte) : Prop where
  header : Reaches s (queueForm 64 need) 64 [(firstLane s.cur.unguarded, va)] fun _ => [.glob qpa 64]
  bytes : h = (List.range 64).map fun i => s.homeByte (qpa + i)
  fields : queueHeaderOk h (leField h 8 8) = true
  cached : s.touchLanes 64 [(firstLane s.cur.unguarded, va)] = s
  past : AllApplied s [.glob qpa 64]
  room : s.outboundRoom s.cur.core 4 = true

/-- R294: the slots of a queue are translated too, cached, and lie outside host memory. -/
structure QueueSlots (s : State) (need : Need) (h : List Byte) (segs : List Seg) : Prop where
  slots : Reaches s { queueForm 1 need with reads := false, writes := false } (128 * 2 ^ headerOrder h)
    [(firstLane s.cur.unguarded, leField h 16 8)] fun _ => segs
  cached : s.touchLanes (128 * 2 ^ headerOrder h) [(firstLane s.cur.unguarded, leField h 16 8)] = s
  aligned : ∀ i, queueSlot h segs i % 128 = 0 ∧ isHost (queueSlot h segs i) = false

/-- n bytes of memory as a little-endian number, as the home holds them. -/
def homeNat (s : State) (a n : Nat) : Nat := leNat ((List.range n).map fun i => s.homeByte (a + i))

/-- R295: TT.WAIT ends with a result in p[D], having changed nothing but caches. -/
def TtWaitEnds (i : Instr) (m : Marks) (s : State) (d : BitVec 3) (r : Nat) : Prop :=
  ∃ t, exec i s = .next t ∧ GoneTo m s.fall s t ∧ OnlyRead s t
    ∧ t.cur.atRest = { s.cur.setP s.cur.unguarded d.toNat (if r = 0 then 0#32 else 0xFFFFFFFF#32) with
        seen := t.cur.seen }.atRest

/-- The checks that the queue instructions share. -/
def queueChecks (s : State) (regs : List Nat) : List (Bool × Cause) :=
  [s.cur.beyond regs, (s.cur.routine == .exit, .illegalEncoding)]

/-- The byte that the last of some runs that covers an address has there. -/
def runByte (xs : List (Nat × List Byte)) (y : Nat) : Option Byte :=
  (xs.reverse.find? fun x => decide (x.1 ≤ y) && decide (y < x.1 + x.2.length)).map fun x => getI 0#8 x.2 (y - x.1)

end Sys2Proof.Claims

/-- R209, R273, R292 to R300: TT.ENQ claims the tail of an open queue, fills the slot there, writes QUEUED into it and
leaves the index in lane 21 of A; a record that breaks R275 and a closed queue trap before it first waits, and so does a
slot whose status is poisoned (the model's reading, log entry 30). TT.WAIT ends with 1 when the slot holds its task
as DONE, with 0 when it holds another end or a later task, and else parks, unless a request of exit grade stands.
TT.CANCEL ends a queued task at once and a running MATMUL at its next boundary. TID.SET and TID.CLR write the die's table,
SACC.CFG its register, and SACC.RD reads an agreement entry's fields. -/
def Obligations.TileInstructions : Prop :=
  (∀ (m : Marks) (d a b : BitVec 7) (s : State) (qpa : Nat) (h : List Byte) (segs : List Seg)
      (p : Option Machine.Parcel), s.cur.unguarded ≠ 0#32 → s.cur.stage = 0 →
    Ready s (operandLanes true s.cur.unguarded) (addrRegs d ++ voffRegs b) (queueChecks s (addrRegs d ++ voffRegs b ++ [a.toNat])) →
    s.cur.poisonedRow 0xFFFFFFFF#32 [a.toNat] = none →
    QueueHead s needRW (s.addrAt d b (firstLane s.cur.unguarded)).toNat qpa h →
    s.queueOwner (leField h 8 8) = some p → Memory.wf s.mem = true →
    if s.cur.stageArg = 0 ∧ ((leField h 6 1).testBit 0 = true ∨ tileRecordBad (s.cur.image a.toNat) = true) then
      ReadsAndTraps (.ttEnq m d a b) s .illegalEncoding
    else QueueSlots s needRW h segs →
      let tail := leField h 24 8
      let slot := queueSlot h segs tail
      let status := (s.homeByte (slot + 1)).toNat
      let die := dieOfCore s.cur.core
      (s.poisoned (slot + 1) 1 = true → ReadsAndTraps (.ttEnq m d a b) s .poisonedData)
      ∧ (s.poisoned (slot + 1) 1 = false → status = 1 ∨ status = 2 →
        ∃ t, exec (.ttEnq m d a b) s = .next t ∧ OnlyRead s t ∧ t.cur.atRest = s.cur.atRest ∧ t.cur.pc = s.cur.pc
          ∧ t.cur.wait = .ring (.glob slot) (.glob slot) ∧ t.cur.pipe = none ∧ t.cur.stage = 0 ∧ t.cur.stageArg = 1
          ∧ t.cur.saccSeen = some (s.cur.saccSeen.getD (s.core s.cur.core).sacc))
      ∧ (s.poisoned (slot + 1) 1 = false → status ≠ 1 → status ≠ 2 → s.clockCovered die (s.homeDie qpa) = true →
        s.cur.heldBy (some (headerScope h)) = none → s.cur.hcnt ≤ 1021 →
        ∃ (t : State) (x : Task), exec (.ttEnq m d a b) s = .next t ∧ GoneTo m s.fall s t
          ∧ t.tasks = s.tasks ++ [x] ∧ x.status = .queued ∧ x.index = tail % 2 ^ 32 ∧ x.queue = qpa ∧ x.slot = slot
          ∧ x.die = s.queueDie h ∧ x.core = s.cur.core ∧ x.parcel = p.map (·.id) ∧ x.terrace = (s.wgOf s.cur).terrace
          ∧ homeNat t (qpa + 24) 8 = (tail + 1) % 2 ^ 64
          ∧ (∀ y, (y < qpa + 24 ∨ qpa + 32 ≤ y) → t.homeByte y = s.homeByte y)
          ∧ (∀ i < 128, t.dieByte die (slot + i) = if i = 1 then 1#8 else getI 0#8 x.record i)
          ∧ (∀ i < 80, i ≠ 1 → getI 0#8 x.record i = getI 0#8 (s.cur.image a.toNat) i)
          ∧ leField x.record 80 4 = 0 ∧ leField x.record 84 4 = tail % 2 ^ 32
          ∧ leField x.record 88 4 = (s.cur.saccSeen.getD (s.core s.cur.core).sacc).toNat
          ∧ (∀ e y, (y < slot ∨ slot + 128 ≤ y) → (y < qpa + 24 ∨ qpa + 32 ≤ y) → t.dieByte e y = s.dieByte e y)
          ∧ (∀ r l, l < 32 → t.cur.V r l
              = if r = a.toNat ∧ l = 21 then BitVec.ofNat 32 tail else s.cur.V r l)
          ∧ t.cur.p = s.cur.p ∧ t.workgroups = s.workgroups))
  ∧ (∀ (m : Marks) (d : BitVec 3) (a b : BitVec 7) (s : State),
    Ready s (operandLanes true s.cur.unguarded) (addrRegs a ++ [b.toNat]) (queueChecks s (addrRegs a ++ [b.toNat])) →
    let i := (s.cur.uread b.toNat).toNat
    let va := (s.addrOnly a (firstLane s.cur.unguarded)).toNat
    (s.cur.unguarded = 0#32 →
      Completes (.ttWait m d a b) m s s.fall 1 s.cur ∧ Completes (.ttCancel m d a b) m s s.fall 1 s.cur)
    ∧ (s.cur.unguarded ≠ 0#32 → ∀ r, s.cur.answer = some r →
        TtWaitEnds (.ttWait m d a b) m s d r ∧ TtWaitEnds (.ttCancel m d a b) m s d r)
    ∧ (∀ (qpa : Nat) (h : List Byte) (segs : List Seg), s.cur.unguarded ≠ 0#32 → s.cur.answer = none →
      QueueHead s needR va qpa h → QueueSlots s needR h segs →
      let slot := queueSlot h segs i
      let die := dieOfCore s.cur.core
      let bs := s.bytesFor (s.wgOf s.cur).terrace die slot 128
      let status := leField bs 1 1
      let index := leField bs 84 4
      let ahead := (index + 2 ^ 32 - i) % 2 ^ 32
      s.poisonFor (s.wgOf s.cur).terrace die (slot + 1) 1 = false →
      s.poisonFor (s.wgOf s.cur).terrace die (slot + 84) 4 = false →
      (index = i → 3 ≤ status → (4 ≤ headerScope h → Applied s die (lineOf slot)) →
        TtWaitEnds (.ttWait m d a b) m s d (if status = 3 then 1 else 0))
      ∧ (1 ≤ ahead → ahead < 2 ^ 31 → (4 ≤ headerScope h → Applied s die (lineOf slot)) →
        TtWaitEnds (.ttWait m d a b) m s d 0)
      ∧ ((index = i → status < 3) → (ahead = 0 ∨ 2 ^ 31 ≤ ahead) →
        if (s.wgOf s.cur).exiting = true then TtWaitEnds (.ttWait m d a b) m s d 0
        else ∃ t, exec (.ttWait m d a b) s = .next t ∧ OnlyRead s t ∧ t.cur.wait = .task (.glob slot)
          ∧ t.cur.pipe = none ∧ t.cur.pc = s.cur.pc ∧ t.cur.atRest = s.cur.atRest))
    ∧ ∀ (qpa : Nat) (h : List Byte), s.cur.unguarded ≠ 0#32 → s.cur.answer = none → QueueHead s needRW va qpa h →
      s.cur.heldBy (some (headerScope h)) = none →
      match s.tasks.find? fun x => x.queue == qpa && x.index == i && x.cancellable with
      | none => ∃ t, exec (.ttCancel m d a b) s = .next t ∧ GoneTo m s.fall s t ∧ OnlyRead s t ∧ t.cur.atRest
          = { s.cur.setP s.cur.unguarded d.toNat 0#32 with fenceScope := none }.atRest
      | some x => s.findTask x.id = some x → (x.status = .running → x.doomed = false) →
        ∃ t y, exec (.ttCancel m d a b) s = .next t ∧ t.findTask x.id = some y ∧ SameBytes s t
          ∧ if x.isMatmul = true ∧ x.status = .running then
              t.cur.wait = .cancel x.id ∧ t.cur.pc = s.cur.pc ∧ y.stopping = true ∧ y.cancelled = true
                ∧ y.status = .running
            else GoneTo m s.fall s t ∧ y.step = .ended ∧ (x.status = .queued → y.status = .cancelled)
              ∧ t.cur.atRest
                = { s.cur.setP s.cur.unguarded d.toNat 0xFFFFFFFF#32 with fenceScope := none }.atRest)
  ∧ (∀ (m : Marks) (a b : BitVec 7) (s : State),
    let id := (s.cur.uread b.toNat).toNat
    let die := dieOfCore s.cur.core
    let w := s.wgOf s.cur
    (Ready s (operandLanes true s.cur.unguarded) [b.toNat] [s.cur.beyond [a.toNat, b.toNat]] →
      s.cur.poisonedRow 0xFFFFFFFF#32 [a.toNat] = none →
      if s.cur.unguarded = 0#32 then Completes (.tidSet m a b) m s s.fall 1 s.cur
      else if 255 < id then Traps (.tidSet m a b) s .illegalEncoding
      else if s.tensorBad w.terrace (s.cur.image a.toNat) = true then Traps (.tidSet m a b) s .tensorId
      else ∃ t e, exec (.tidSet m a b) s = .next t ∧ GoneTo m s.fall s t ∧ TookCycles 1 s t ∧ SameBytes s t
        ∧ t.cur.atRest = s.cur.atRest ∧ t.tensor die w.terrace id = some e ∧ e.image = s.cur.image a.toNat
        ∧ e.owner = w.owner ∧ ∀ k u j, (k ≠ die ∨ u ≠ w.terrace ∨ j ≠ id) → t.tensor k u j = s.tensor k u j)
    ∧ (Ready s (operandLanes true s.cur.unguarded) [b.toNat] [s.cur.beyond [b.toNat]] →
      if s.cur.unguarded = 0#32 then Completes (.tidClr m b) m s s.fall 1 s.cur
      else if 255 < id then Traps (.tidClr m b) s .illegalEncoding
      else ∃ t, exec (.tidClr m b) s = .next t ∧ GoneTo m s.fall s t ∧ TookCycles 1 s t ∧ SameBytes s t
        ∧ t.cur.atRest = s.cur.atRest ∧ t.tensor die w.terrace id = none
        ∧ ∀ k u j, (k ≠ die ∨ u ≠ w.terrace ∨ j ≠ id) → t.tensor k u j = s.tensor k u j))
  ∧ ∀ (m : Marks) (d a : BitVec 7) (s : State),
    let v := s.cur.uread a.toNat
    let k := s.core s.cur.core
    let e := getI Agreement.clear k.agreement (bitsAt v 0 4)
    (Ready s (operandLanes true s.cur.unguarded) [a.toNat] [s.cur.beyond [a.toNat]] →
      if s.cur.unguarded = 0#32 then Completes (.saccCfg m a) m s s.fall 1 s.cur
      else if 0x3C00 < bitsAt v 0 16 ∨ bitsAt v 17 15 ≠ 0 then Traps (.saccCfg m a) s .illegalEncoding
      else ∃ t, exec (.saccCfg m a) s = .next t ∧ GoneTo m s.fall s t ∧ TookCycles 1 s t ∧ SameBytes s t
        ∧ t.cur.atRest = s.cur.atRest ∧ (∃ q, t.core s.cur.core = { k with perf := q, sacc := v })
        ∧ ∀ j, j ≠ s.cur.core → (t.core j).sacc = (s.core j).sacc)
    ∧ (Ready s (operandLanes true s.cur.unguarded) [a.toNat] [s.cur.beyond [d.toNat, a.toNat]] →
      if s.cur.unguarded = 0#32 then Completes (.saccRd m d a) m s s.fall 1 s.cur
      else if bitsAt v 7 25 ≠ 0 then Traps (.saccRd m d a) s .illegalEncoding
      else ∃ c : Cane, Completes (.saccRd m d a) m s s.fall 1 c ∧ c = { s.cur with v := c.v, rowPoison := c.rowPoison }
        ∧ ∀ r l, l < 32 → c.V r l = if r = d.toNat ∧ s.cur.unguarded.getLsbD l = true then
            BitVec.ofNat 32 (([e.index, e.count, e.gated, e.zero, e.sat, e.alpha, if e.valid then 1 else 0,
              k.sacc.toNat] : List Nat).getD (bitsAt v 4 3) 0) else s.cur.V r l)

namespace Sys2Proof.Claims

/-- A task's read of n bytes from an address finds these: every granule has a translation, lies in memory that the task's
die reaches, and is not poisoned (R290). -/
structure Finds (s : State) (t : Task) (va n : Nat) (bs : List Byte) : Prop where
  length : bs.length = n
  pieces : ∀ r ∈ granuleRuns va n, ∃ pa, s.ctxTranslate t.ctx r.1 needR = some pa ∧ isMmio pa = false
    ∧ s.pathTo t.terrace t.die pa = .arrives ∧ s.poisonFor t.terrace t.die pa r.2 = false
    ∧ ∀ j < r.2, getI 0#8 bs (r.1 - va + j) = s.byteFor t.terrace t.die (pa + j)

/-- The real number that a finite value stands for. -/
def realOf (neg : Bool) (m : Nat) (e : Int) : ℚ := (if neg then -(m : ℚ) else m) * (2 : ℚ) ^ e

/-- R71: one element of a block of A at exponent e and width p: the nearest multiple of 2^(e−p+2), held below
2^(p−1). -/
def AlignsTo (e : Int) (p : Nat) (v : FVal) (m : Int) : Prop :=
  -(2 ^ (p - 1) : Int) ≤ m ∧ m < 2 ^ (p - 1) ∧ match v with
    | .fin neg k q =>
      let x := realOf neg k q / (2 : ℚ) ^ (e - p + 2)
      |(m : ℚ) - x| ≤ 1 / 2 ∨ (m = 2 ^ (p - 1) - 1 ∧ (2 : ℚ) ^ (p - 1) - 1 / 2 ≤ x)
    | _ => m = 0

/-- R279: an event takes a running task from one step to a state t in which the task is x. -/
def Moves (i : Instr) (s : State) (t : Task) (p : State → Task → Prop) : Prop :=
  ∃ u x, exec i s = .next u ∧ u.findTask t.id = some x ∧ x.status = t.status ∧ x.progress = t.progress ∧ u.mem = s.mem
    ∧ u.workgroups = s.workgroups ∧ p u x

end Sys2Proof.Claims

/-- R70 to R72, R75, R267 to R269, R276 to R285, R288, R289, R291: a task is issued when its queue, its order, its
dependences and its engine allow; each event of a MATMUL does one of its steps: weights are decoded, a row is fetched and
aligned (and the row after it fetched meanwhile), its exact block sums are taken, scaled and sent to the press, which adds
them into C at the home. Members of a
collective start together, and end together. A task retires in three parts: its status, the queue's done count, its
completion counter. That FETCH_A of the next row alone may come while a row is under way is the model's choice (log entry
69), and so are details of issue and of collectives (log entries 48, 49). -/
def Obligations.TaskEvents : Prop :=
  ∀ (s : State) (t : Task), s.findTask t.id = some t → Memory.wf s.mem = true →
    let w := accSize t.split (t.u8 4)
    ((s.candidate t = false ∨ s.taskHeld t = true ∨ s.orderedTurn t = false) → exec (.taskIssue t.id) s = .next s)
    ∧ (s.candidate t = true → s.taskHeld t = false → s.orderedTurn t = true →
      (∀ x, t.deps.find? (fun x => s.dep t x != .met) = some x → s.dep t x = .refused →
        ∃ u y, exec (.taskIssue t.id) s = .next u ∧ u.findTask t.id = some y ∧ y.status = .error ∧ y.step = .ended)
      ∧ ((∀ x ∈ t.deps, s.dep t x = .met) → (s.firstReady t = false ∨ s.homesReady t.die [t.queue] = false) →
        exec (.taskIssue t.id) s = .next s)
      ∧ ((∀ x ∈ t.deps, s.dep t x = .met) → s.firstReady t = true → s.homesReady t.die [t.queue] = true →
        ∃ u y, exec (.taskIssue t.id) s = .next u ∧ u.findTask t.id = some y ∧ y.status = .running
          ∧ y.record = t.record
          ∧ (t.isMatmul = true → ∀ k, s.matrixEngine t = some k → y.cluster = k ∧ match y.matmulCheck with
            | some _ => y.step = .ended ∧ y.doomed = true
            | none => homeNat u (t.queue + 32) 8 = (homeNat s (t.queue + 32) 8 + 1) % 2 ^ 64
              ∧ ((s.die t.die).trace.owner ≠ some t.terrace → u.dieByte t.die (t.slot + 1) = 2#8)
              ∧ (y.step = .loadB 0 ∨ y.step = .fetch)
              ∧ (y.step = .fetch ↔ ∃ b, (s.cluster k).macros = some b ∧ b.key ≠ [] ∧ b.key = s.loadKey t))
          ∧ (t.isMatmul = false → y.collectiveCheck = none → s.rectangleBad t = false → (s.collKey t).failed = false →
            (s.collKey t).cancelled = false → y.step = .key ∧ y.failed = t.failed)))
    ∧ (t.status = .running →
      (∀ n, t.step = .loadB n → (s.cluster t.cluster).chilled = false → n < 16 →
        ∀ (bs : Nat → List Byte) (q : Nat → List Byte) (g : Nat → List Byte),
        let i := n / 2 ^ t.u8 3
        let k := t.u32 20 + 64 * i
        (i < t.depth / 64 → ∀ c ∈ t.macroColumns n, Finds s t (t.element 1 k (t.u32 16 + c)) (spanBytes (t.format 1) 64) (bs c)
          ∧ (t.format 1 ≠ 2 →
              let b := (t.u32 16 + c) * (t.inner 1 / 64) + k / 64
              Finds s t (leField (t.entry 1) 32 8 + b) 1 (q c)
                ∧ Finds s t (leField (t.entry 1) 40 8 + 4 * (b / 256)) 4 (g c))) →
        Moves (.loadB t.id) s t fun u x =>
          (x.step = if n < 15 then .loadB (n + 1) else if (t.loadFailed && t.stops) || t.stopping then .ended else .fetch)
          ∧ x.loadFailed = t.loadFailed
          ∧ (i < t.depth / 64 → ∀ c ∈ t.macroColumns n, getI WBlock.zero (u.macroColumn t.cluster c) i
              = if t.format 1 = 2 then weightBlock 2 (unpack 2 64 (bs c)) 255 0x3F800000#32
                else weightBlock (t.format 1) (unpack (t.format 1) 64 (bs c)) (leNat (q c)) (BitVec.ofNat 32 (leNat (g c)))))
      ∧ (∀ n, t.step = .loadB n → (s.cluster t.cluster).chilled = true → exec (.loadB t.id) s = .next s)
      ∧ (t.step = .fetch → t.ahead = none →
        ∀ bs, Finds s t (t.element 0 (t.u32 20) t.row) (spanBytes (t.format 0) t.depth) bs →
        Moves (.fetchA t.id) s t fun _ x => x.step = .align ∧ x.rowFailed = false
          ∧ x.aRow = unpack (t.format 0) t.depth bs)
      ∧ (t.step = .fetch → ∀ row, t.ahead = some (row, none) →
        Moves (.fetchA t.id) s t fun _ x => x.step = .align ∧ x.rowFailed = false ∧ x.aRow = row ∧ x.ahead = none)
      ∧ (t.step ≠ .fetch → t.mayFetch = true →
        ∀ bs, Finds s t (t.element 0 (t.u32 20) (t.row + 1)) (spanBytes (t.format 0) t.depth) bs →
        Moves (.fetchA t.id) s t fun _ x => x.step = t.step ∧ x.ahead = some (unpack (t.format 0) t.depth bs, none))
      ∧ (t.step = .align → (∀ x ∈ t.aRow, x < 2 ^ formatBits (t.format 0)) →
        Moves (.align t.id) s t fun _ x => x.step = .serial ∧ x.aBlocks.length = t.depth / 64
          ∧ ∀ i (hi : i < x.aBlocks.length),
            let vs := ((t.aRow.drop (64 * i)).take 64).map (elementValue (t.format 0))
            List.Forall₂ (AlignsTo x.aBlocks[i].e t.width) vs x.aBlocks[i].m
              ∧ (x.aBlocks[i].bad = true ↔ ∃ v ∈ vs, ∀ neg k q, v ≠ .fin neg k q))
      ∧ (t.step = .serial → if (s.cluster t.cluster).serialRuns = true then Moves (.serial t.id) s t fun _ x => x.step = .reduce
        else exec (.serial t.id) s = .next s)
      ∧ (t.step = .reduce → Moves (.reduce t.id) s t fun _ x => x.step = .scale ∧ x.sums.length = t.cols
          ∧ ∀ n < t.cols, ∀ (k : Nat) (a : ABlock) (b : WBlock), t.aBlocks[k]? = some a → (s.macroColumn t.cluster n)[k]? = some b →
            ∃ r : BlockSum, (getI [] x.sums n)[k]? = some r ∧ r.pos - r.neg = (List.zipWith (· * ·) a.m b.w).sum ∧ 0 ≤ r.pos
              ∧ 0 ≤ r.neg ∧ r.bad = (a.bad || b.bad)
              ∧ r.cp = (List.zipWith (· * ·) a.m b.w).countP (fun y => decide (0 < y))
              ∧ r.cn = (List.zipWith (· * ·) a.m b.w).countP (fun y => decide (y < 0)))
      ∧ (t.step = .scale → Moves (.scale t.id) s t fun _ x => x.step = .drain ∧ x.partials.length = t.cols
          ∧ ∀ n (hn : n < x.partials.length),
            let bs := t.aBlocks.zip ((s.macroColumn t.cluster n).zip (getI [] t.sums n))
            x.partials[n] = if t.loadFailed || t.rowFailed then nanElement t.split (t.u8 4)
              else if t.split then splitElement (t.format 1) t.width bs else rowElement (t.u8 4) (t.format 1) t.width bs)
      ∧ (t.step = .drain → (s.earlyRoom t t.rowLines = false → exec (.drain t.id) s = .next s)
        ∧ (s.earlyRoom t t.rowLines = true → t.partials.length = t.cols → (t.element 2 (t.u32 16) t.row) % w = 0 →
          Moves (.drain t.id) s t fun u x => x.step = .press ∧ ∃ ps : List Machine.Partial, u.partials = s.partials ++ ps
            ∧ ps.flatMap (·.elems) = t.partials
            ∧ ∀ p ∈ ps, p.task = t.id ∧ p.row = t.row ∧ p.va = t.element 2 (t.u32 16) t.row + w * p.col
              ∧ p.va / 128 = (p.va + w * p.elems.length - 1) / 128 ∧ p.elems = (t.partials.drop p.col).take p.elems.length))
      ∧ (t.step = .key → t.isMatmul = false →
        ((s.collKey t).failed = true ∨ (s.collKey t).cancelled = true ∨ s.rankedMembers t = none →
          exec (.collectiveStart t.id) s = .next s)
        ∧ ∀ (ms : List Task) (rows : Nat → List (List Byte)), (s.collKey t).failed = false → (s.collKey t).cancelled = false →
          s.rankedMembers t = some ms → s.severed ms = none → (ms.map (·.id)).Nodup → (∀ x ∈ ms, s.findTask x.id = some x) →
          (∀ r < t.rows, (rows r).length = ms.length ∧ ∀ k (hk : k < ms.length), Finds s ms[k]
            (ms[k].element 0 (ms[k].u32 16 + (t.takes k).1) (ms[k].u32 12 + r)) (spanBytes (ms[k].format 0) (t.takes k).2)
            (getI [] (rows r) k)) →
          ∃ u, exec (.collectiveStart t.id) s = .next u ∧ u.mem = s.mem
            ∧ (∀ x ∈ ms, ∃ y, u.findTask x.id = some y ∧ y.started = true ∧ y.step = .press)
            ∧ ∃ ps : List Machine.Partial, u.partials = s.partials ++ ps
              ∧ (∀ p ∈ ps, ∀ x ∈ p.more, x.1 / 128 = p.va / 128)
              ∧ (∀ p ∈ ps, ∀ q ∈ ps, p.task = q.task → p.va / 128 = q.va / 128 → p.id = q.id)
              ∧ ∀ k (hk : k < ms.length),
                ((ps.filter fun p => p.task == ms[k].id).flatMap fun p => (p.va, p.raw) :: p.more).Perm
                  ((List.range t.rows).flatMap fun r => splitLines
                    (ms[k].element 2 (ms[k].u32 16 + (t.gives (rows r) k).1) (ms[k].u32 12 + r)) (t.gives (rows r) k).2)))
    ∧ (∀ (p : Machine.Partial), s.partials.find? (fun q => q.id == p.id) = some p → p.task = t.id →
      let pa := s.pressAddress t (if p.elems = [] then needW else needRW) p.va
      (s.lineDue t p pa = false → exec (.pressApplyPartial p.id) s = .next s)
      ∧ ∀ a, pa = some a → s.lineDue t p pa = true → s.pathTo t.terrace t.die a = .arrives →
        (p.elems ≠ [] → s.poisoned a (w * p.elems.length) = false) →
        ∃ u, exec (.pressApplyPartial p.id) s = .next u ∧ u.workgroups.map unscratched = s.workgroups.map unscratched
          ∧ (∀ q ∈ u.partials, q.id = p.id → s.nextId ≤ q.id)
          ∧ (p.elems = [] → ∀ y, u.homeByte y = (runByte (((p.va, p.raw) :: p.more).map fun x =>
              (a / 128 * 128 + x.1 % 128, x.2)) y).getD (s.homeByte y))
          ∧ (p.elems ≠ [] → (∀ k (hk : k < p.elems.length), (List.range w).map (fun i => u.homeByte (a + w * k + i))
                = pressElement t.split (t.u8 4) ((List.range w).map fun i => s.homeByte (a + w * k + i)) p.elems[k])
              ∧ ∀ y, (y < a ∨ a + w * p.elems.length ≤ y) → u.homeByte y = s.homeByte y))
    ∧ (t.step = .ended →
      if (s.partials.any fun p => p.task == t.id) = true then exec (.taskRetire t.id) s = .next s
      else if t.outcome = .queued then
        ∃ u y, exec (.taskRetire t.id) s = .next u ∧ u.findTask t.id = some y ∧ u.mem = s.mem
        ∧ y.status = .queued ∧ y.step = .loadB 0 ∧ y.progress = t.progress
      else if (t.isMatmul || t.doomed || t.status != .running) = true then
        ∃ u y, exec (.taskRetire t.id) s = .next u ∧ u.findTask t.id = some y ∧ u.mem = s.mem ∧ y.status = t.outcome
          ∧ y.step = .finish
          ∧ ((s.die t.die).trace.owner ≠ some t.terrace → u.dieByte t.die (t.slot + 1) = t.outcome.code)
          ∧ ∃ f ∈ u.flights, f.addr = t.slot + 1 ∧ f.signalled = true ∧ f.bytes = [t.outcome.code] ∧ f.die = t.die
      else
        let ms := s.members t
        if (ms.all fun x => x.step == .ended && !(s.partials.any fun p => p.task == x.id)) = true then
          (ms.map (·.id)).Nodup → (∀ x ∈ ms, s.findTask x.id = some x) →
          ∃ u, exec (.taskRetire t.id) s = .next u ∧ u.mem = s.mem
            ∧ ∀ x ∈ ms, ∃ y, u.findTask x.id = some y ∧ y.status = x.outcome ∧ y.step = .finish
              ∧ ∃ f ∈ u.flights, f.addr = x.slot + 1 ∧ f.signalled = true ∧ f.bytes = [x.outcome.code] ∧ f.die = x.die
        else exec (.taskRetire t.id) s = .next s)
    ∧ (t.step = .finish → if s.homesReady t.die [t.queue] = false then exec (.taskRetire t.id) s = .next s
      else ∃ u, exec (.taskRetire t.id) s = .next u
        ∧ homeNat u (t.queue + 40) 8 = (homeNat s (t.queue + 40) 8 + 1) % 2 ^ 64
        ∧ if t.u64 72 = 0 then u.findTask t.id = none
          else ∃ y, u.findTask t.id = some y ∧ y.step = .count ∧ y.status = t.status)
    ∧ (t.step = .count → ∀ pa, s.ctxTranslate t.ctx (t.u64 72) needRW = some pa → s.poisoned pa 8 = false →
      if s.homesReady t.die [pa] = false then exec (.taskRetire t.id) s = .next s
      else ∃ u, exec (.taskRetire t.id) s = .next u ∧ u.findTask t.id = none
        ∧ homeNat u pa 8 = (homeNat s pa 8 + 1) % 2 ^ 64)

/-! ## Debugging, tracing, replay, and register writes (R5, R355 to R374, R381, R394, R412) -/

namespace Sys2Proof.Claims

/-- An event happens when it may, with an effect p, and else changes nothing. -/
def Acts (i : Instr) (s : State) (due : Bool) (p : State → Prop) : Prop :=
  if due = true then ∃ t, exec i s = .next t ∧ p t else exec i s = .next s

/-- Memory keeps its bytes, and the debug block of terrace n of s has become b in t. -/
def DebugIs (s : State) (n : Nat) (b : DebugBlock) (t : State) : Prop :=
  t.mem = s.mem ∧ t.workgroups = s.workgroups ∧ (t.terrace n).dbg = b

/-- The address of a register at an offset in the debug block of terrace n. -/
def debugAddr (n off : Nat) : BitVec 64 := BitVec.ofNat 64 (mmioBase + 0x01000000 + 0x1000 * n + off)

end Sys2Proof.Claims

/-- R355 to R357, R360 to R364, R367, R369, R370: writes of DBG.CTL, DBG.EVPOP, DBG.GO, TRC.CTL, REPLAY.CTL and REPLAY.ACT,
breakpoint hits, gate grants, to canes and to held REDs, and the trace units' own records do what their rules say, and
nothing where they may not happen. That a terrace or a die that does not exist is a fault is the model's choice (log entry
60), and so are the order of DBG.GO's checks (log entry 44) and the start of a claimed unit (log entry 43). -/
def Obligations.DebuggerTraceAndReplayAct : Prop :=
  (∀ (s : State) (n : Nat) (v : BitVec 32), 16 ≤ n → ∀ i ∈ [Instr.dbgCtlWrite n v, .dbgEvpop n v, .dbgResume n v,
      .dbgStep n v, .trcCtlWrite n v, .replayCtlWrite n v, .replayHalt n, .replayFree n], exec i s = .fault .noSuchUnit)
  ∧ (∀ (s : State) (n : Nat) (v : BitVec 32), n < 16 →
    let b := (s.terrace n).dbg
    (∃ t, exec (.dbgCtlWrite n v) s = .next t ∧ DebugIs s n { b with attach := v.getLsbD 0 } t
      ∧ (v.getLsbD 0 = true → t.cur = s.cur ∧ t.others = s.others)
      ∧ (v.getLsbD 0 = false → ∀ c ∈ t.cur :: t.others, c.wait = .debug → (t.wgOf c).terrace ≠ n))
    ∧ Acts (.dbgEvpop n v) s (v == 1#32)
        (DebugIs s n { b with events := b.events.tail ++ b.overflow.take 1, overflow := b.overflow.drop 1 })
    ∧ (∀ (i : Instr) (op : Nat), (i = .dbgResume n v ∧ op = 1) ∨ (i = .dbgStep n v ∧ op = 2) →
      (v ≠ 1#32 ∨ leField b.cmd 14 1 ≠ op → exec i s = .next s)
      ∧ (v = 1#32 → leField b.cmd 14 1 = op →
        (s.parkedCane n b.cmd = none → ∃ t, exec i s = .next t ∧ DebugIs s n { b with cmdst := 1 } t)
        ∧ ∀ c, s.parkedCane n b.cmd = some c → s.findCane c.id = some c →
          ∃ t, exec i s = .next t ∧ DebugIs s n { b with cmdst := 0 } t ∧ t.findCane c.id
            = some { c with wait := .none, stepping := decide (op = 2), halting := false }))
    ∧ (v.getLsbD 0 = false → ∃ t, exec (.trcCtlWrite n v) s = .next t ∧ DebugIs s n { b with trcEn := false } t
        ∧ ∀ d, (t.die d).trace.owner ≠ some n)
    ∧ (v.getLsbD 0 = true →
      (b.trcEn = true ∨ (∃ g ∈ b.triggers, condOk g.start = false ∨ condOk g.stop = false)
          ∨ (∃ d ∈ s.guaranteedDies n, (s.die d).trace.owner ≠ none) → exec (.trcCtlWrite n v) s = .next s)
      ∧ (b.trcEn = false → (∀ g ∈ b.triggers, condOk g.start = true ∧ condOk g.stop = true) →
        (∀ d ∈ s.guaranteedDies n, (s.die d).trace.owner = none) →
        ∃ t, exec (.trcCtlWrite n v) s = .next t ∧ DebugIs s n { b with trcEn := true } t
          ∧ ∀ d, (t.die d).trace = if d ∈ s.guaranteedDies n then
              { owner := some n, active := false, pos := 0, start := false, stop := false, events := [],
                cycleSeen := false, timeMark := 0, began := (s.cluster (s.traceCluster d)).cycle } else (s.die d).trace))
    ∧ (∃ t, exec (.replayCtlWrite n v) s = .next t ∧ DebugIs s n
        { b with replayMode := if v.toNat % 4 = 3 then b.replayMode else v.toNat % 4, replayFull := false,
                 replayBroken := false, replayDiverged := false } t)
    ∧ Acts (.replayHalt n) s b.replayDiverged (fun t => DebugIs s n b t ∧ ∀ c ∈ t.cur :: t.others, c.live = true →
        (t.wgOf c).terrace = n → s.rootOf c = some b.replayRoot.toNat → c.wait = .debug ∨ c.halting = true)
    ∧ Acts (.replayFree n) s b.replayDiverged (fun t => (t.terrace n).dbg.replayMode = 0
        ∧ (t.terrace n).dbg.replayActive = 0 ∧ (b.replayActive ≠ 1 → t.mem = s.mem ∧ (t.terrace n).dbg.runs = [])))
  ∧ (∀ (s : State) (n gate : Nat),
    if 16 ≤ n then exec (.replayGateGrant n gate) s = .fault .noSuchUnit
    else match s.findCane gate, s.heldReds.find? fun h => h.id == gate with
      | none, none => exec (.replayGateGrant n gate) s = .next s
      | some c, _ => Acts (.replayGateGrant n gate) s (s.gateDue n c) fun t =>
          t.mem = s.mem ∧ t.findCane gate = some { c with wait := .none }
      | none, some h => Acts (.replayGateGrant n gate) s (s.heldDue n h) fun t =>
          (∀ x ∈ t.heldReds, x.id ≠ gate)
            ∧ ∀ pa, h.place = .glob pa → Canonical s → s.poisoned pa h.width = false →
              homeNat t pa h.width = atomAddBits h.etype (homeNat s pa h.width) h.value % 2 ^ (8 * h.width)
                ∧ ∀ y, (y < pa ∨ pa + h.width ≤ y) → t.homeByte y = s.homeByte y)
  ∧ (∀ (s : State) (id : Nat), Acts (.breakpointHit id) s (decide (s.cur.id = id) && s.breakpointDue) fun t =>
      let b := (s.terrace (s.wgOf s.cur).terrace).dbg
      t.cur = { s.cur with wait := .debug, pipe := none, stepping := false, passBreak := true } ∧ t.others = s.others
        ∧ t.mem = s.mem
        ∧ (b.events.length < 64 → ∃ e, (t.terrace (s.wgOf s.cur).terrace).dbg = { b with events := b.events ++ [e] }
          ∧ e.length = 64 ∧ leField e 0 1 = 1 ∧ leField e 1 1 = Cause.breakpoint.code)
        ∧ (64 ≤ b.events.length → (t.terrace (s.wgOf s.cur).terrace).dbg.events = b.events))
  ∧ ∀ (s : State) (d : Nat),
    if 4 ≤ d then exec (.traceCycleReached d) s = .fault .noSuchUnit ∧ exec (.traceTimeRecord d) s = .fault .noSuchUnit
    else
      let u := (s.die d).trace
      Acts (.traceCycleReached d) s (s.traceCycleDue d) (fun t => t.mem = s.mem ∧ (t.die d).trace.cycleSeen = true
        ∧ ∀ n, u.owner = some n → ((t.die d).trace.start = true ↔ u.start = true
            ∨ ∃ g ∈ (s.terrace n).dbg.triggers, bitsAt g.start 0 4 = 5)
          ∧ ((t.die d).trace.stop = true ↔ u.stop = true
            ∨ ∃ g ∈ (s.terrace n).dbg.triggers, bitsAt g.stop 0 4 = 5))
      ∧ Acts (.traceTimeRecord d) s (s.traceTimeDue d) fun t => t.mem = s.mem ∧ (t.die d).trace.pos = u.pos + 1
        ∧ (t.die d).trace.owner = u.owner ∧ (t.die d).trace.timeMark = u.timeMark + 1

/-- R5, R355, R367, R381, R394, R404, R412: REGISTER_WRITE writes the register that an address names, by its fields' access
codes; in recovery the virtual functions carry nothing (R413). The addresses of the registers of the functions are the
model's choice (log entry 14). That an address without a register keeps what it holds, and that software may write
REPLAY.POS, are its readings (log entries 55, 44). -/
def Obligations.RegisterWritesReachRegisters : Prop :=
  ∀ (s : State) (v : BitVec 64),
    (∀ n < 16, let b := (s.terrace n).dbg
      let lo := v.toNat % 2 ^ 32
      let writes (off : Nat) (b' : DebugBlock) : Prop :=
        ∃ t, exec (.registerWrite (debugAddr n off) v) s = .next t ∧ DebugIs s n b' t ∧ t.cur = s.cur
      writes 0x00C { b with bpen := BitVec.ofNat 32 (lo % 2 ^ 16) }
      ∧ writes 0x010 { b with wpen := BitVec.ofNat 32 (lo % 2 ^ 8) }
      ∧ writes 0x308 { b with trcBase := v }
      ∧ writes 0x310 { b with trcOrder := BitVec.ofNat 32 lo }
      ∧ writes 0x408 { b with replayRoot := v }
      ∧ writes 0x410 { b with replayLog := v }
      ∧ writes 0x418 { b with replaySize := v }
      ∧ writes 0x420 { b with replayPos := v }
      ∧ (s.boot.recovery = false → ∀ x : Nat × DebugBlock, x ∈ [(0x308, { b with trcBase := v }), (0x408, { b with replayRoot := v }),
          (0x410, { b with replayLog := v }), (0x418, { b with replaySize := v }), (0x420, { b with replayPos := v })] →
        ∃ t, exec (.registerWrite (BitVec.ofNat 64 (2 ^ 60 + 2 ^ 16 * n + x.1)) v) s = .next t ∧ DebugIs s n x.2 t
          ∧ t.cur = s.cur)
      ∧ exec (.registerWrite (BitVec.ofNat 64 (2 ^ 60 + 2 ^ 16 * n + 0x1010)) v) s = .next
          (if s.boot.recovery = false ∧ lo = 1 ∧ (s.terrace n).vf.atstat ≠ .busy then s.setTerrace n { s.terrace n with vf := { (s.terrace n).vf with
              atstat := .busy, nonceTaken := (s.terrace n).vf.nonce } } else s)
      ∧ writes 0x004 b ∧ writes 0x014 b ∧ writes 0x040 b
      ∧ ∀ k < 16, writes (0x100 + 16 * k)
          { b with
            breakpoints := setI Breakpoint.zero b.breakpoints k
              ⟨lo, (getI .zero b.breakpoints k).ordinal % 2 ^ 32, (getI .zero b.breakpoints k).filter % 2 ^ 64⟩ })
    ∧ (∀ k < 128, s.hasCluster k = true →
        ∃ t, exec (.registerWrite (BitVec.ofNat 64 (mmioBase + 0x03000000 + 0x10000 * (k / 32) + 16 * (k % 32))) v) s = .next t
          ∧ t.mem = s.mem ∧ (t.cluster k).floor = v.toNat % 8 ∧ (t.cluster k).hotlim = v.toNat / 2 ^ 16 % 2 ^ 16
          ∧ ∀ j, j ≠ k → t.cluster j = s.cluster j)
    ∧ (s.boot.recovery = false → ∀ n < 16, ∀ j < 4, ∃ t,
        exec (.registerWrite (BitVec.ofNat 64 (2 ^ 60 + 2 ^ 16 * n + 0x1020 + 8 * j)) v) s = .next t ∧ t.mem = s.mem
          ∧ ((s.terrace n).vf.nonce.length = 32 → ((t.terrace n).vf.nonce.drop (8 * j)).take 8 = leBytes 8 v.toNat
            ∧ ∀ i, (i < 8 * j ∨ 8 * j + 8 ≤ i) → getI 0#8 (t.terrace n).vf.nonce i = getI 0#8 (s.terrace n).vf.nonce i))
    ∧ (∀ n < 16,
        exec (.registerWrite (BitVec.ofNat 64 (2 ^ 61 + 16 * n)) v) s = .next (if v.toNat % 2 ^ 16 = 0 then
            s.setTerrace n { s.terrace n with aperture := (v.toNat, (s.terrace n).aperture.2) } else s)
        ∧ exec (.registerWrite (BitVec.ofNat 64 (2 ^ 61 + 16 * n + 8)) v) s = .next (if v.toNat % 2 ^ 16 = 0 then
            s.setTerrace n { s.terrace n with aperture := ((s.terrace n).aperture.1, v.toNat) } else s)
        ∧ exec (.registerWrite (BitVec.ofNat 64 (2 ^ 61 + 2 ^ 16 + n)) v) s
          = .next (if 30 ≤ v.toNat ∧ v.toNat ≤ 40 then
              s.setTerrace n { s.terrace n with vf := { (s.terrace n).vf with mwsize := v.toNat } } else s))
    ∧ ∀ a : BitVec 64, a.toNat < mmioBase → exec (.registerWrite a v) s = .next s

/-! ## The host, resets, links and tenancy (R339 to R345, R393, R404 to R407, R412 to R415) -/

/-- R393, R404 to R407, R412 to R415: a host write through a window reaches the home of the address it translates to, or is
counted as dropped; a read of the memory window gives what the homes hold, and a read of the signal window is refused. A
report on a terrace holds its nonce. A link goes down after 8 failed replays in a row, management is told, and a store whose
request it loses (R402) counts as acknowledged and fails its parcel. A reset leaves the boot ROM alone, with the
part's own clusters; a warm one keeps the core samples, takes a slot of each, and leaves the ports to other packages down.
An image that passes is loaded and started,
one that does not is refused with its cause; whether a replay fails and whether a signature verifies are free values of the
model (log entry 20). That the ROM refuses what breaks R104's table without a named refusal (log entry 66), where the image
lies and starts (log entry 1), memory after a reset and how management is told (log entry 55), what counts as lost on a link
(log entry 57), the fault for an absent unit (log entry 60) and the slot of a warm reset (log entry 63) are its choices. -/
def Obligations.HostLinksAndResetsAct : Prop :=
  (∀ (s : State) (n : Nat) (o : BitVec 64) (data : List Byte) (len : Nat) (v : BitVec 32),
    if 16 ≤ n then ∀ i ∈ [Instr.signalWindowWrite n o data, .signalWindowRead n o, .memoryWindowWrite n o data,
        .memoryWindowRead n o len, .vfAttest n v, .attestReportDone n, .vfFlr n], exec i s = .fault .noSuchUnit
    else
      let f := (s.terrace n).vf
      let carries := s.boot.recovery = false
      (carries → o.toNat + data.length ≤ 65536 → windowParts data.length o.toNat data = [(o.toNat, data)] →
        (((s.terrace n).part.state ≠ .running ∨ s.windowAddress n (0x000FFFFFFFFF0000 + o.toNat) needW = none) →
          s.signalReady n [(o.toNat, data)] = true →
          exec (.signalWindowWrite n o data) s = .next (s.setTerrace n { s.terrace n with
            vf := { f with sigdrop := min (f.sigdrop + 1) 0xFFFFFFFF } }))
        ∧ ∀ pa, (s.terrace n).part.state = .running → Memory.wf s.mem = true →
          s.windowAddress n (0x000FFFFFFFFF0000 + o.toNat) needW = some pa →
          Acts (.signalWindowWrite n o data) s (s.windowReady n pa) fun t => (∀ k, (t.terrace k).vf = (s.terrace k).vf)
            ∧ ∀ y, t.homeByte y = if pa ≤ y ∧ y < pa + data.length then getI 0#8 data (y - pa) else s.homeByte y)
      ∧ Acts (.signalWindowRead n o) s (!s.boot.recovery && decide (o.toNat < 65536))
          (fun t => t = { s with completion := none })
      ∧ (carries → o.toNat + data.length ≤ 2 ^ f.mwsize → data.length ≤ 128 - o.toNat % 128 →
        (((s.terrace n).part.state = .off ∨ s.windowAddress n o.toNat needW = none) →
          (∀ pa, s.windowAddress n o.toNat needW = some pa → s.windowReady n pa = true) →
          exec (.memoryWindowWrite n o data) s = .next (s.setTerrace n { s.terrace n with
            vf := { f with mwdrop := min (f.mwdrop + 1) 0xFFFFFFFF } }))
        ∧ ∀ pa, (s.terrace n).part.state ≠ .off → Memory.wf s.mem = true → s.windowAddress n o.toNat needW = some pa →
          Acts (.memoryWindowWrite n o data) s (s.windowReady n pa) fun t => (∀ k, (t.terrace k).vf = (s.terrace k).vf)
            ∧ ∀ y, t.homeByte y = if pa ≤ y ∧ y < pa + data.length then getI 0#8 data (y - pa) else s.homeByte y)
      ∧ (carries → o.toNat + len ≤ 2 ^ f.mwsize → len ≤ 128 - o.toNat % 128 →
        match s.windowAddress n o.toNat needR with
        | some pa => (s.terrace n).part.state ≠ .off → exec (.memoryWindowRead n o len) s = .next { s with
            completion := if s.poisoned pa len then none else some ((List.range len).map fun i => s.homeByte (pa + i)) }
        | none => exec (.memoryWindowRead n o len) s = .next { s.setTerrace n { s.terrace n with
            vf := { f with mwdrop := min (f.mwdrop + 1) 0xFFFFFFFF } } with completion := none })
      ∧ Acts (.vfAttest n v) s (!s.boot.recovery && v == 1#32 && f.atstat != .busy) (fun t => t = s.setTerrace n
          { s.terrace n with vf := { f with atstat := .busy, nonceTaken := f.nonce } })
      ∧ Acts (.attestReportDone n) s (f.atstat == .busy) (fun t => t.mem = s.mem ∧ (t.terrace n).vf.atstat = .done
          ∧ (t.terrace n).part = (s.terrace n).part ∧ (t.terrace n).vf.report.length = 256
          ∧ leField (t.terrace n).vf.report 5 1 = n
          ∧ (f.nonceTaken.length = 32 → ((t.terrace n).vf.report.drop 96).take 32 = f.nonceTaken))
      ∧ exec (.vfFlr n) s = .next (s.setTerrace n { s.terrace n with vf := { f with
          sigdrop := 0, mwdrop := 0, nonce := [], nonceTaken := [], report := [], atstat := .idle } }))
  ∧ (∀ (s : State) (n : Nat),
    if 20 ≤ n then exec (.linkFlitReplay n) s = .fault .noSuchUnit ∧ exec (.linkDown n) s = .fault .noSuchUnit
      ∧ exec (.linkRetrain n) s = .fault .noSuchUnit
    else
      let l := getI .up s.links n
      let becomes (x : LinkState) (t : State) : Prop := t = { s with links := t.links, freeCount := t.freeCount }
        ∧ getI .up t.links n = x ∧ ∀ k, k ≠ n → getI .up t.links k = getI .up s.links k
      Acts (.linkFlitReplay n) s (!l.down)
        (becomes { l with failures := if Config.replayFails s.freeCount then min (l.failures + 1) 8 else 0 })
      ∧ Acts (.linkDown n) s (!l.down && l.failures == 8) (fun t => getI .up t.links n = ⟨8, true, true⟩
          ∧ (∀ k, k ≠ n → getI .up t.links k = getI .up s.links k)
          ∧ ((∀ f ∈ s.flights, s.loses (s.cutLink n) f = none) → (∀ x ∈ s.tasks, x.started = false) →
              t = { s with links := t.links })
          ∧ (∀ x ∈ s.tasks, s.findTask x.id = some x → x.status = .running → x.started = true → x.step = .press →
              x.doomed = false → s.flights = [] → (∀ y ∈ s.tasks, y.started = true → y ∈ s.members x) →
              x ∈ s.members x → (s.cutLink n).severed (s.members x) ≠ none →
              ∃ y, t.findTask x.id = some y ∧ y.step = .ended ∧ y.doomed = true)
          ∧ ∀ f, s.flights = [f] → (∀ x ∈ s.tasks, x.started = false) → s.loses (s.cutLink n) f = some .request →
            (∀ c : Cane, f.cane = some c.id → s.findCane c.id = some c →
              ∃ d, t.findCane c.id = some d ∧ d.hcnt = c.hcnt - 1 ∧ d.dcnt = c.dcnt - (if f.l2Acked then 0 else 1))
            ∧ ∀ p : Machine.Parcel, f.parcel = some p.id → s.findParcel p.id = some p →
              ∃ q, t.findParcel p.id = some q ∧ q.faulted = true)
      ∧ Acts (.linkRetrain n) s true (becomes .up))
  ∧ (∀ s : State, ∃ t u, exec .coldReset s = .next t ∧ exec .warmReset s = .next u
      ∧ (∀ x ∈ [t, u], x.cur = { Cane.boot with id := s.nextId } ∧ x.others = [] ∧ x.workgroups = [] ∧ x.parcels = []
        ∧ x.tasks = [] ∧ x.flights = [] ∧ x.terraces = State.reset.terraces ∧ x.images = [] ∧ x.boot = State.reset.boot
        ∧ x.cores = State.reset.cores ∧ (∀ c, c ∈ x.mem ↔ c ∈ s.mem ∧ isHost c.1 = true)
        ∧ ∀ k < 128, x.cluster k = { Cluster.zero with enabled := (s.cluster k).enabled, window := x.rtime / 10 })
      ∧ (∀ k < 20, getI .up t.links k = .up ∧ (getI .up u.links k).down = decide (k < 16))
      ∧ t.rtime = 0 ∧ u.rtime = s.rtime
      ∧ ∀ d < 4, t.die d = Die.zero
        ∧ (let m := (s.die d).sample
          u.die d = { Die.zero with sample := (u.die d).sample } ∧ (u.die d).sample.warm = m.warm + 1
            ∧ (u.die d).sample.events = m.events + 1 ∧ (u.die d).sample.ecc = m.ecc
            ∧ (u.die d).sample.byte (64 + 128 * (m.events % 4096)) = 4#8
            ∧ ∀ i < 4096, i ≠ m.events % 4096 → ∀ j < 128,
                (u.die d).sample.byte (64 + 128 * i + j) = m.byte (64 + 128 * i + j)))
  ∧ ∀ (s : State) (image : Image),
    (s.boot.recovery = false → exec (.firmwareImageLoad image) s = .next s ∧ exec .firmwareFetchFailure s = .next s)
    ∧ (s.boot.recovery = true →
      exec .firmwareFetchFailure s = .next { s with boot := { s.boot with overTrellis := true, reported := some .fetch } }
      ∧ (∀ e : BootFailure, ((headerSound image.bytes = false ∧ e = .header)
            ∨ (headerSound image.bytes = true ∧ headerOk image.bytes = false ∧ e = .image)
            ∨ (headerOk image.bytes = true ∧ signatureOk image.bytes = false ∧ e = .signature)) →
        exec (.firmwareImageLoad image) s = .next { s with boot := { s.boot with reported := some e } })
      ∧ (headerOk image.bytes = true → signatureOk image.bytes = true → Memory.wf s.mem = true →
        ∃ t, exec (.firmwareImageLoad image) s = .next t ∧ t.boot.recovery = false
          ∧ (∀ c ∈ t.cur :: t.others, c.wait ≠ .rom)
          ∧ (∀ x ∈ layout image.base (fileSections image.bytes), ∀ i < x.2.bytes.length,
              t.homeByte (x.1 + i) = getI 0#8 x.2.bytes i)
          ∧ ∀ x, (layout image.base (fileSections image.bytes)).find? (fun x => x.2.kind == 1) = some x →
              s.cur.wait = .rom → t.cur.pc = BitVec.ofNat 64 (x.1 / 2)))

/-- R134, R135, R339, R340, R342 to R345: what a terrace's own events do when they may happen: it becomes QUIESCED, its
steward is placed again, a headland cluster is lent, called back and returned, a period ends, a quota is reached, and a
device's turn ends and the next begins. A SUP function and TLB.INV let their cane go on once what they wait for is over. The
timer moved to the end of a period or a quantum, and the start of a period (log entry 22), details of quotas and turns (log
entries 53, 54), and the fault for an absent unit (log entry 60) are the model's choices. -/
def Obligations.TenancyEventsAct : Prop :=
  (∀ (s : State) (n : Nat), 16 ≤ n → ∀ i ∈ [Instr.terraceQuiesced n, .stewardReplace n, .usagePeriodEnd n, .quotaReached n,
      .vdevQuantumEnd n, .vdevTurnStart n], exec i s = .fault .noSuchUnit)
  ∧ (∀ (s : State) (n : Nat), n < 16 →
    let x := s.terrace n
    let e := x.part
    Acts (.terraceQuiesced n) s (e.state == .quiescing && s.quiet n)
      (fun t => t = s.setTerrace n { x with part := { e with state := .quiesced } })
    ∧ Acts (.stewardReplace n) s (e.state == .running && x.steward.isSome
        && !(s.workgroups.any fun w => w.isSteward && w.terrace == n)
        && !(s.dies.any fun d => d.queue.any fun i => i.kind == .steward n))
      (fun t => t.mem = s.mem ∧ t.terraces = s.terraces ∧ ((∃ w ∈ t.workgroups, w.isSteward = true ∧ w.terrace = n)
        ∨ ∃ d ∈ t.dies, ∃ i ∈ d.queue, i.kind = .steward n))
    ∧ Acts (.usagePeriodEnd n) s (e.state != .off) (fun t => t.mem = s.mem ∧ (t.terrace n).part = e
        ∧ (t.terrace n).usage.sequence = x.usage.sequence + 1 ∧ (t.terrace n).usage.start = t.rtime
        ∧ (t.terrace n).usage.period = e.period
        ∧ t.rtime = max s.rtime (x.usage.start + x.usage.period) ∧ (t.terrace n).usage.launches = 0
        ∧ (t.terrace n).usage.preemptions = 0 ∧ (t.terrace n).usage.faults = 0 ∧ (t.terrace n).usage.quotaHit = false
        ∧ (x.usage.quotaHold = true → ∀ p ∈ t.parcels, p.terrace = n → p.drained = false)
        ∧ s.flights.length < t.flights.length)
    ∧ Acts (.quotaReached n) s (s.quotaDue n) (fun t => (t.terrace n).usage.quotaHit = true
        ∧ (e.state = .running → (t.terrace n).usage.quotaHold = true ∧ ∀ p ∈ t.parcels, p.terrace = n → p.drained = true))
    ∧ Acts (.vdevQuantumEnd n) s (e.state == .running && e.quantum != 0 && !x.turnEnding)
      (fun t => t.mem = s.mem ∧ (t.terrace n).turnEnding = true ∧ (t.terrace n).turn = x.turn ∧ (t.terrace n).part = e
        ∧ t.rtime = (if s.vdevBusy n x.turn then max s.rtime (x.turnStart + e.quantum) else s.rtime)
        ∧ (∀ p ∈ t.parcels, p.terrace = n → p.vdev = x.turn → p.drained = true)
        ∧ ∀ k ∈ t.tasks, k.status = .running → k.isMatmul = true →
            (∃ p ∈ s.parcels, k.parcel = some p.id ∧ p.terrace = n ∧ p.vdev = x.turn) → k.stopping = true)
    ∧ Acts (.vdevTurnStart n) s (e.state == .running && x.turnEnding && !x.usage.quotaHold && s.turnDrained n x.turn)
      (fun t => t.mem = s.mem ∧ (t.terrace n).turnEnding = false ∧ (t.terrace n).turnStart = s.rtime ∧ (0 < e.vdevs → (t.terrace n).turn < e.vdevs)
        ∧ (∀ u < e.vdevs, s.vdevBusy n u = true → s.vdevBusy n (t.terrace n).turn = true)
        ∧ ∀ p ∈ t.parcels, p.terrace = n → p.vdev = (t.terrace n).turn → p.drained = false))
  ∧ (∀ (s : State) (k : Nat),
    if s.hasCluster k = false then ∀ i ∈ [Instr.headlandLend k, .headlandRevokeStart k, .headlandReturn k],
        exec i s = .fault .noSuchUnit
    else
      (match s.borrower k with
        | none => exec (.headlandLend k) s = .next s
        | some b => ∃ t, exec (.headlandLend k) s = .next t ∧ t.mem = s.mem ∧ (t.cluster k).owner = some b
            ∧ (t.cluster k).lender = (s.cluster k).owner ∧ 128 ≤ (t.cluster k).logical ∧ (t.cluster k).revoking = false
            ∧ ∀ c ∈ coresOf k, t.core c = Core.zero)
      ∧ Acts (.headlandRevokeStart k) s (s.revokeHead k).isSome (fun t => (t.cluster k).revoking = true
          ∧ (t.cluster k).revokeFor = s.revokeHead k ∧ ((∀ c ∈ s.canes, c.wait ≠ .fault) → t.mem = s.mem))
      ∧ Acts (.headlandReturn k) s (s.returnDue k) (fun t => t.mem = s.mem ∧ ∀ n, (s.cluster k).lender = some n →
          (t.cluster k).owner = some n ∧ (t.cluster k).lender = none ∧ (t.cluster k).revoking = false
            ∧ (t.cluster k).macros = none ∧ ∀ c ∈ coresOf k, t.core c = Core.zero))
  ∧ ∀ (s : State) (c : Cane), s.findCane c.id = some c →
    Acts (.supFunctionComplete c.id) s (s.supDue c) (fun t => t.findCane c.id = some { c with wait := .none }
      ∧ t = { s with cur := t.cur, others := t.others, tlbInvs := t.tlbInvs })
    ∧ Acts (.tlbInvRetire c.id) s (s.invDone c.id) fun t => t.findCane c.id
        = some (if c.wait = .tlbInv then { c with wait := .none } else c)
      ∧ t = { s with cur := t.cur, others := t.others, tlbInvs := t.tlbInvs }

/-! ## The whole machine (R20 to R24, R50, R52, R413) -/

/-- R2, R129, R355, R365, R375, R381, R412, R413: the state after reset: the boot ROM waits for an image on management core 0
at level M, every terrace is OFF, no translation, parcel, task or write exists, every enabled cluster stands at point 7 with
the limits of R381, and memory, FIFO banks and scratch are in canonical form. That an unwritten byte reads 0 and that every
register of the boot cane reads 0 are the model's choices (log entries 2 and 3), as is which clusters are disabled. -/
def Obligations.ResetState : Prop :=
  let s := State.reset
  Canonical s ∧ s.mem = [] ∧ (∀ a, s.homeByte a = 0#8) ∧ (∀ d a, s.dieByte d a = 0#8)
    ∧ s.others = [] ∧ s.agenda = [] ∧ s.workgroups = [] ∧ s.parcels = [] ∧ s.tasks = [] ∧ s.flights = [] ∧ s.asyncOps = []
    ∧ s.boot.recovery = true ∧ s.rtime = 0 ∧ s.cur.wait = .rom ∧ s.cur.core = 512 ∧ s.cur.priv = 2 ∧ s.cur.routine = .none
    ∧ (∀ r l, s.cur.V r l = 0#32) ∧ (∀ r, s.cur.aff r = ⟨0#64, 0#32⟩) ∧ s.cur.mode = 0#32 ∧ s.cur.flags = 0#32
    ∧ s.cur.stack = [] ∧ s.cur.qmask = 0#32
    ∧ (∀ n, (s.terrace n).part.state = .off ∧ (s.terrace n).faultQueue = none ∧ (s.terrace n).dbg.attach = false
        ∧ (s.terrace n).dbg.replayMode = 0 ∧ (s.terrace n).dbg.bpen = 0#32 ∧ (s.terrace n).dbg.wpen = 0#32
        ∧ (s.terrace n).vf.mwsize = 30 ∧ (s.terrace n).vf.atstat = .idle)
    ∧ (∀ k < 128, (s.cluster k).point = 7 ∧ (s.cluster k).stage = .idle ∧ (s.cluster k).floor = 0
        ∧ (s.cluster k).hotlim = 0x690 ∧ (s.cluster k).budget = 8000 ∧ (s.cluster k).owner = none)
    ∧ (∀ d < 4, ((List.range 32).filter fun i => (s.cluster (32 * d + i)).enabled).length = 30)
    ∧ ∀ d, (s.die d).l2 = [] ∧ (s.die d).sample.warm = 0 ∧ (s.die d).sample.events = 0 ∧ (s.die d).trace.owner = none

/-- R20 to R24, R52: when the present cane may issue, the parcels at its PC are in the instruction cache and decode to an
instruction i, and neither reconvergence, a forced switch, a stop point's breakpoint or vectoring nor an older cane comes
first, one step is exec of i in the state whose time has moved on, with the instruction's address, length and T set; and
bits that are no instruction trap there. The fetched parcels are those that the cached blocks hold, low byte first. That
the present cane issues first on an empty agenda (log entry 4) and that a step first moves time on, with what the device
does on its own then (log entry 21), are the model's choices. -/
def Obligations.StepRunsTheDecodedInstruction : Prop :=
  ∀ (s : State) (ps : List Sys2Proof.Parcel),
    let u : State := { s.settle with agenda := s.agenda.tail }
    let v := (u.touchCode ps.length).setIssue ps
    (s.agenda = [] ∨ s.agenda.head? = some none) → s.settle.canIssue = true →
    (u.cur.halting = false ∨ u.cur.atBoundary = false) → (u.cur.stage ≠ 0 ∨ u.mustYield = false) →
    u.cur.reconvergeOnce = none → u.cur.sinceSwitch < 128 → u.fetchInstr u.cur = .ok ps →
    (∀ i rest, decodeParcels ps = .ok (i, rest) → v.stewardLeaves i = false → v.breakpointDue = false →
      v.vectorDue = false →
      step s = exec i v.noteIssue ∧ v.noteIssue.iss = ⟨u.cur.pc, ps.length, none, stopBit ps⟩ ∧ v.noteIssue.cur.pc = u.cur.pc
        ∧ (s.posts = [] → v.noteIssue.mem = s.mem) ∧ ∀ r l, v.noteIssue.cur.V r l = s.cur.V r l)
    ∧ (∀ e, decodeParcels ps = .error e →
        step s = .next (v.raise (if e = .illegalOpcode then .illegalOpcode else .illegalEncoding)))
    ∧ ∀ k (hk : k < ps.length), ∃ pa b,
        u.codeAddress u.cur ((2 * u.cur.pc.toNat + 2 * k) % 2 ^ 64) = .ok pa
          ∧ (u.core u.cur.core).codeBlock pa = some b
          ∧ ps[k] = getI 0#8 b.bytes (pa % 32 + 1) ++ getI 0#8 b.bytes (pa % 32)

/-- R37, R50, R51: words that the spec writes out, read by the decoder, and words that it refuses. -/
def Obligations.WrittenWordsDecode : Prop :=
  let n : Marks := ⟨false, false, false⟩
  let u : Marks := ⟨false, false, true⟩
  decodeTableWord 32 0x20204082 = some (.iadd u 1#7 1#7 2#7)
    ∧ decodeTableWord 32 0x8020C2FF = some (.shfl u 3#7 5#7 127#7)
    ∧ decodeTableWord 32 0x0E000055 = some (.mark n 0x55#14)
    ∧ decodeTableWord 32 0x0F018006 = some (.sysRd n 6#7 6#12)
    ∧ decodeTableWord 32 0x3A017FFD = some (.iaddi n 5#7 0x3FFD#14)
    ∧ decodeTableWord 32 0x5A048205 = some (.fsetp n 2#4 2#3 4#7 5#7)
    ∧ decodeTableWord 32 0xA002A189 = some (.ld n 10#7 67#7 9#7)
    ∧ decodeTableWord 32 0xB3042202 = some (.ringAcq n 16#7 68#7 2#3)
    ∧ decodeTableWord 32 0xC51FC003 = some (.tagWanyImm n 3#14)
    ∧ decodeTableWord 32 0xC5028000 = some (.tagWanyReg n 5#6)
    ∧ decodeTableWord 32 0xD5008980 = some (.saccRd n 2#7 19#7)
    ∧ decodeTableWord 16 0xF805 = some (.dict true false 5#10)
    ∧ decodeTableWord 32 0x42000000 = none

/-- R20 to R24, R37, R40, R50: every well-formed instruction's parcels decode to it, with every operand at every value, and
leave what stands behind them; and whatever decodes is well formed and stands there as the encoder writes it, so that no
two encodings mean the same and no bit of one is ignored. -/
def Obligations.DecodingInvertsEncoding : Prop :=
  (∀ (i : Instr) (ps rest : List Sys2Proof.Parcel), i.wellFormed = true → encode i = some ps →
      decodeParcels (ps ++ rest) = .ok (i, rest))
  ∧ ∀ (qs rest : List Sys2Proof.Parcel) (i : Instr), decodeParcels qs = .ok (i, rest) →
      i.wellFormed = true ∧ ∃ ps, encode i = some ps ∧ qs = ps ++ rest

/-- The model's memory, every workgroup's scratch and every core's FIFO banks keep their canonical form through every step,
whatever the agenda brings; the form itself is the model's own. -/
def Obligations.StepKeepsMemoryCanonical : Prop :=
  ∀ s t : State, Canonical s → step s = .next t → Canonical t
end

