-- ==== Sys2Proof/Laws/Encoding.lean ====
section
/-! SUPPORT. What the fields of an encoded word read as: one lemma for each field that the decoder extracts, for each of
the formats of R37, and what the fixed bits of a row test. -/

set_option linter.unusedSimpArgs false
set_option linter.unnecessarySeqFocus false

namespace Sys2Proof

@[simp] theorem opOf_mkF3 (op : BitVec 8) (m : Marks) (d a b : BitVec 7) : opOf (mkF3 op m d a b) = op.toNat := by
  unfold opOf
  congr 1
  unfold mkF3
  ext i hi
  simp only [BitVec.getElem_extractLsb', BitVec.getLsbD_append]
  interval_cases i <;> simp
@[simp] theorem marksOf_mkF3 (op : BitVec 8) (m : Marks) (d a b : BitVec 7) : marksOf (mkF3 op m d a b) = m := by
  obtain ⟨s, t, u⟩ := m
  simp only [marksOf, mkF3, BitVec.getLsbD_append]
  simp

@[simp] theorem opOf_mkFI (op : BitVec 8) (m : Marks) (d : BitVec 7) (i : BitVec 14) : opOf (mkFI op m d i) = op.toNat := by
  unfold opOf
  congr 1
  unfold mkFI
  ext i hi
  simp only [BitVec.getElem_extractLsb', BitVec.getLsbD_append]
  interval_cases i <;> simp
@[simp] theorem marksOf_mkFI (op : BitVec 8) (m : Marks) (d : BitVec 7) (i : BitVec 14) : marksOf (mkFI op m d i) = m := by
  obtain ⟨s, t, u⟩ := m
  simp only [marksOf, mkFI, BitVec.getLsbD_append]
  simp

@[simp] theorem opOf_mkFB (op : BitVec 8) (m : Marks) (j : BitVec 21) : opOf (mkFB op m j) = op.toNat := by
  unfold opOf
  congr 1
  unfold mkFB
  ext i hi
  simp only [BitVec.getElem_extractLsb', BitVec.getLsbD_append]
  interval_cases i <;> simp
@[simp] theorem marksOf_mkFB (op : BitVec 8) (m : Marks) (j : BitVec 21) : marksOf (mkFB op m j) = m := by
  obtain ⟨s, t, u⟩ := m
  simp only [marksOf, mkFB, BitVec.getLsbD_append]
  simp

@[simp] theorem mkF3_at_14_7 (op : BitVec 8) (m : Marks) (d a b : BitVec 7) :
    (mkF3 op m d a b).extractLsb' 14 7 = d := by
  unfold mkF3
  ext i hi
  simp only [BitVec.getElem_extractLsb', BitVec.getLsbD_append]
  interval_cases i <;> simp

@[simp] theorem mkF3_at_7_7 (op : BitVec 8) (m : Marks) (d a b : BitVec 7) :
    (mkF3 op m d a b).extractLsb' 7 7 = a := by
  unfold mkF3
  ext i hi
  simp only [BitVec.getElem_extractLsb', BitVec.getLsbD_append]
  interval_cases i <;> simp

@[simp] theorem mkF3_at_0_7 (op : BitVec 8) (m : Marks) (d a b : BitVec 7) :
    (mkF3 op m d a b).extractLsb' 0 7 = b := by
  unfold mkF3
  ext i hi
  simp only [BitVec.getElem_extractLsb', BitVec.getLsbD_append]
  interval_cases i <;> simp

@[simp] theorem mkF3_at_8_6 (op : BitVec 8) (m : Marks) (d a b : BitVec 7) :
    (mkF3 op m d a b).extractLsb' 8 6 = a.extractLsb' 1 6 := by
  unfold mkF3
  ext i hi
  simp only [BitVec.getElem_extractLsb', BitVec.getLsbD_append]
  interval_cases i <;> simp

@[simp] theorem mkF3_at_15_6 (op : BitVec 8) (m : Marks) (d a b : BitVec 7) :
    (mkF3 op m d a b).extractLsb' 15 6 = d.extractLsb' 1 6 := by
  unfold mkF3
  ext i hi
  simp only [BitVec.getElem_extractLsb', BitVec.getLsbD_append]
  interval_cases i <;> simp

@[simp] theorem mkF3_at_0_4 (op : BitVec 8) (m : Marks) (d a b : BitVec 7) :
    (mkF3 op m d a b).extractLsb' 0 4 = b.extractLsb' 0 4 := by
  unfold mkF3
  ext i hi
  simp only [BitVec.getElem_extractLsb', BitVec.getLsbD_append]
  interval_cases i <;> simp

@[simp] theorem mkF3_at_0_3 (op : BitVec 8) (m : Marks) (d a b : BitVec 7) :
    (mkF3 op m d a b).extractLsb' 0 3 = b.extractLsb' 0 3 := by
  unfold mkF3
  ext i hi
  simp only [BitVec.getElem_extractLsb', BitVec.getLsbD_append]
  interval_cases i <;> simp

@[simp] theorem mkF3_at_17_4 (op : BitVec 8) (m : Marks) (d a b : BitVec 7) :
    (mkF3 op m d a b).extractLsb' 17 4 = d.extractLsb' 3 4 := by
  unfold mkF3
  ext i hi
  simp only [BitVec.getElem_extractLsb', BitVec.getLsbD_append]
  interval_cases i <;> simp

@[simp] theorem mkF3_at_14_3 (op : BitVec 8) (m : Marks) (d a b : BitVec 7) :
    (mkF3 op m d a b).extractLsb' 14 3 = d.extractLsb' 0 3 := by
  unfold mkF3
  ext i hi
  simp only [BitVec.getElem_extractLsb', BitVec.getLsbD_append]
  interval_cases i <;> simp

@[simp] theorem mkF3_at_7_3 (op : BitVec 8) (m : Marks) (d a b : BitVec 7) :
    (mkF3 op m d a b).extractLsb' 7 3 = a.extractLsb' 0 3 := by
  unfold mkF3
  ext i hi
  simp only [BitVec.getElem_extractLsb', BitVec.getLsbD_append]
  interval_cases i <;> simp

@[simp] theorem mkF3_at_14_4 (op : BitVec 8) (m : Marks) (d a b : BitVec 7) :
    (mkF3 op m d a b).extractLsb' 14 4 = d.extractLsb' 0 4 := by
  unfold mkF3
  ext i hi
  simp only [BitVec.getElem_extractLsb', BitVec.getLsbD_append]
  interval_cases i <;> simp

@[simp] theorem mkF3_at_7_4 (op : BitVec 8) (m : Marks) (d a b : BitVec 7) :
    (mkF3 op m d a b).extractLsb' 7 4 = a.extractLsb' 0 4 := by
  unfold mkF3
  ext i hi
  simp only [BitVec.getElem_extractLsb', BitVec.getLsbD_append]
  interval_cases i <;> simp

@[simp] theorem mkF3_at_4_3 (op : BitVec 8) (m : Marks) (d a b : BitVec 7) :
    (mkF3 op m d a b).extractLsb' 4 3 = b.extractLsb' 4 3 := by
  unfold mkF3
  ext i hi
  simp only [BitVec.getElem_extractLsb', BitVec.getLsbD_append]
  interval_cases i <;> simp

@[simp] theorem mkF3_at_5_1 (op : BitVec 8) (m : Marks) (d a b : BitVec 7) :
    (mkF3 op m d a b).extractLsb' 5 1 = b.extractLsb' 5 1 := by
  unfold mkF3
  ext i hi
  simp only [BitVec.getElem_extractLsb', BitVec.getLsbD_append]
  interval_cases i <;> simp

@[simp] theorem mkF3_at_1_6 (op : BitVec 8) (m : Marks) (d a b : BitVec 7) :
    (mkF3 op m d a b).extractLsb' 1 6 = b.extractLsb' 1 6 := by
  unfold mkF3
  ext i hi
  simp only [BitVec.getElem_extractLsb', BitVec.getLsbD_append]
  interval_cases i <;> simp

@[simp] theorem mkF3_at_0_6 (op : BitVec 8) (m : Marks) (d a b : BitVec 7) :
    (mkF3 op m d a b).extractLsb' 0 6 = b.extractLsb' 0 6 := by
  unfold mkF3
  ext i hi
  simp only [BitVec.getElem_extractLsb', BitVec.getLsbD_append]
  interval_cases i <;> simp

@[simp] theorem mkFI_at_14_7 (op : BitVec 8) (m : Marks) (d : BitVec 7) (i : BitVec 14) :
    (mkFI op m d i).extractLsb' 14 7 = d := by
  unfold mkFI
  ext i hi
  simp only [BitVec.getElem_extractLsb', BitVec.getLsbD_append]
  interval_cases i <;> simp

@[simp] theorem mkFI_at_7_7 (op : BitVec 8) (m : Marks) (d : BitVec 7) (i : BitVec 14) :
    (mkFI op m d i).extractLsb' 7 7 = i.extractLsb' 7 7 := by
  unfold mkFI
  ext i hi
  simp only [BitVec.getElem_extractLsb', BitVec.getLsbD_append]
  interval_cases i <;> simp

@[simp] theorem mkFI_at_0_7 (op : BitVec 8) (m : Marks) (d : BitVec 7) (i : BitVec 14) :
    (mkFI op m d i).extractLsb' 0 7 = i.extractLsb' 0 7 := by
  unfold mkFI
  ext i hi
  simp only [BitVec.getElem_extractLsb', BitVec.getLsbD_append]
  interval_cases i <;> simp

@[simp] theorem mkFI_at_0_14 (op : BitVec 8) (m : Marks) (d : BitVec 7) (i : BitVec 14) :
    (mkFI op m d i).extractLsb' 0 14 = i := by
  unfold mkFI
  ext i hi
  simp only [BitVec.getElem_extractLsb', BitVec.getLsbD_append]
  interval_cases i <;> simp

@[simp] theorem mkFI_at_8_6 (op : BitVec 8) (m : Marks) (d : BitVec 7) (i : BitVec 14) :
    (mkFI op m d i).extractLsb' 8 6 = i.extractLsb' 8 6 := by
  unfold mkFI
  ext i hi
  simp only [BitVec.getElem_extractLsb', BitVec.getLsbD_append]
  interval_cases i <;> simp

@[simp] theorem mkFI_at_0_12 (op : BitVec 8) (m : Marks) (d : BitVec 7) (i : BitVec 14) :
    (mkFI op m d i).extractLsb' 0 12 = i.extractLsb' 0 12 := by
  unfold mkFI
  ext i hi
  simp only [BitVec.getElem_extractLsb', BitVec.getLsbD_append]
  interval_cases i <;> simp

@[simp] theorem mkFI_at_15_6 (op : BitVec 8) (m : Marks) (d : BitVec 7) (i : BitVec 14) :
    (mkFI op m d i).extractLsb' 15 6 = d.extractLsb' 1 6 := by
  unfold mkFI
  ext i hi
  simp only [BitVec.getElem_extractLsb', BitVec.getLsbD_append]
  interval_cases i <;> simp

@[simp] theorem mkFI_at_0_4 (op : BitVec 8) (m : Marks) (d : BitVec 7) (i : BitVec 14) :
    (mkFI op m d i).extractLsb' 0 4 = i.extractLsb' 0 4 := by
  unfold mkFI
  ext i hi
  simp only [BitVec.getElem_extractLsb', BitVec.getLsbD_append]
  interval_cases i <;> simp

@[simp] theorem mkFI_at_0_3 (op : BitVec 8) (m : Marks) (d : BitVec 7) (i : BitVec 14) :
    (mkFI op m d i).extractLsb' 0 3 = i.extractLsb' 0 3 := by
  unfold mkFI
  ext i hi
  simp only [BitVec.getElem_extractLsb', BitVec.getLsbD_append]
  interval_cases i <;> simp

@[simp] theorem mkFI_at_17_4 (op : BitVec 8) (m : Marks) (d : BitVec 7) (i : BitVec 14) :
    (mkFI op m d i).extractLsb' 17 4 = d.extractLsb' 3 4 := by
  unfold mkFI
  ext i hi
  simp only [BitVec.getElem_extractLsb', BitVec.getLsbD_append]
  interval_cases i <;> simp

@[simp] theorem mkFI_at_14_3 (op : BitVec 8) (m : Marks) (d : BitVec 7) (i : BitVec 14) :
    (mkFI op m d i).extractLsb' 14 3 = d.extractLsb' 0 3 := by
  unfold mkFI
  ext i hi
  simp only [BitVec.getElem_extractLsb', BitVec.getLsbD_append]
  interval_cases i <;> simp

@[simp] theorem mkFI_at_7_3 (op : BitVec 8) (m : Marks) (d : BitVec 7) (i : BitVec 14) :
    (mkFI op m d i).extractLsb' 7 3 = i.extractLsb' 7 3 := by
  unfold mkFI
  ext i hi
  simp only [BitVec.getElem_extractLsb', BitVec.getLsbD_append]
  interval_cases i <;> simp

@[simp] theorem mkFI_at_14_4 (op : BitVec 8) (m : Marks) (d : BitVec 7) (i : BitVec 14) :
    (mkFI op m d i).extractLsb' 14 4 = d.extractLsb' 0 4 := by
  unfold mkFI
  ext i hi
  simp only [BitVec.getElem_extractLsb', BitVec.getLsbD_append]
  interval_cases i <;> simp

@[simp] theorem mkFI_at_7_4 (op : BitVec 8) (m : Marks) (d : BitVec 7) (i : BitVec 14) :
    (mkFI op m d i).extractLsb' 7 4 = i.extractLsb' 7 4 := by
  unfold mkFI
  ext i hi
  simp only [BitVec.getElem_extractLsb', BitVec.getLsbD_append]
  interval_cases i <;> simp

@[simp] theorem mkFI_at_4_3 (op : BitVec 8) (m : Marks) (d : BitVec 7) (i : BitVec 14) :
    (mkFI op m d i).extractLsb' 4 3 = i.extractLsb' 4 3 := by
  unfold mkFI
  ext i hi
  simp only [BitVec.getElem_extractLsb', BitVec.getLsbD_append]
  interval_cases i <;> simp

@[simp] theorem mkFI_at_0_13 (op : BitVec 8) (m : Marks) (d : BitVec 7) (i : BitVec 14) :
    (mkFI op m d i).extractLsb' 0 13 = i.extractLsb' 0 13 := by
  unfold mkFI
  ext i hi
  simp only [BitVec.getElem_extractLsb', BitVec.getLsbD_append]
  interval_cases i <;> simp

@[simp] theorem mkFI_at_5_1 (op : BitVec 8) (m : Marks) (d : BitVec 7) (i : BitVec 14) :
    (mkFI op m d i).extractLsb' 5 1 = i.extractLsb' 5 1 := by
  unfold mkFI
  ext i hi
  simp only [BitVec.getElem_extractLsb', BitVec.getLsbD_append]
  interval_cases i <;> simp

@[simp] theorem mkFI_at_1_6 (op : BitVec 8) (m : Marks) (d : BitVec 7) (i : BitVec 14) :
    (mkFI op m d i).extractLsb' 1 6 = i.extractLsb' 1 6 := by
  unfold mkFI
  ext i hi
  simp only [BitVec.getElem_extractLsb', BitVec.getLsbD_append]
  interval_cases i <;> simp

@[simp] theorem mkFI_at_0_6 (op : BitVec 8) (m : Marks) (d : BitVec 7) (i : BitVec 14) :
    (mkFI op m d i).extractLsb' 0 6 = i.extractLsb' 0 6 := by
  unfold mkFI
  ext i hi
  simp only [BitVec.getElem_extractLsb', BitVec.getLsbD_append]
  interval_cases i <;> simp

@[simp] theorem mkFB_at_14_7 (op : BitVec 8) (m : Marks) (j : BitVec 21) :
    (mkFB op m j).extractLsb' 14 7 = j.extractLsb' 14 7 := by
  unfold mkFB
  ext i hi
  simp only [BitVec.getElem_extractLsb', BitVec.getLsbD_append]
  interval_cases i <;> simp

@[simp] theorem mkFB_at_7_7 (op : BitVec 8) (m : Marks) (j : BitVec 21) :
    (mkFB op m j).extractLsb' 7 7 = j.extractLsb' 7 7 := by
  unfold mkFB
  ext i hi
  simp only [BitVec.getElem_extractLsb', BitVec.getLsbD_append]
  interval_cases i <;> simp

@[simp] theorem mkFB_at_0_7 (op : BitVec 8) (m : Marks) (j : BitVec 21) :
    (mkFB op m j).extractLsb' 0 7 = j.extractLsb' 0 7 := by
  unfold mkFB
  ext i hi
  simp only [BitVec.getElem_extractLsb', BitVec.getLsbD_append]
  interval_cases i <;> simp

@[simp] theorem mkFB_at_0_14 (op : BitVec 8) (m : Marks) (j : BitVec 21) :
    (mkFB op m j).extractLsb' 0 14 = j.extractLsb' 0 14 := by
  unfold mkFB
  ext i hi
  simp only [BitVec.getElem_extractLsb', BitVec.getLsbD_append]
  interval_cases i <;> simp

@[simp] theorem mkFB_at_0_21 (op : BitVec 8) (m : Marks) (j : BitVec 21) :
    (mkFB op m j).extractLsb' 0 21 = j := by
  unfold mkFB
  ext i hi
  simp only [BitVec.getElem_extractLsb', BitVec.getLsbD_append]
  interval_cases i <;> simp

@[simp] theorem mkFB_at_8_6 (op : BitVec 8) (m : Marks) (j : BitVec 21) :
    (mkFB op m j).extractLsb' 8 6 = j.extractLsb' 8 6 := by
  unfold mkFB
  ext i hi
  simp only [BitVec.getElem_extractLsb', BitVec.getLsbD_append]
  interval_cases i <;> simp

@[simp] theorem mkFB_at_0_12 (op : BitVec 8) (m : Marks) (j : BitVec 21) :
    (mkFB op m j).extractLsb' 0 12 = j.extractLsb' 0 12 := by
  unfold mkFB
  ext i hi
  simp only [BitVec.getElem_extractLsb', BitVec.getLsbD_append]
  interval_cases i <;> simp

@[simp] theorem mkFB_at_15_6 (op : BitVec 8) (m : Marks) (j : BitVec 21) :
    (mkFB op m j).extractLsb' 15 6 = j.extractLsb' 15 6 := by
  unfold mkFB
  ext i hi
  simp only [BitVec.getElem_extractLsb', BitVec.getLsbD_append]
  interval_cases i <;> simp

@[simp] theorem mkFB_at_0_4 (op : BitVec 8) (m : Marks) (j : BitVec 21) :
    (mkFB op m j).extractLsb' 0 4 = j.extractLsb' 0 4 := by
  unfold mkFB
  ext i hi
  simp only [BitVec.getElem_extractLsb', BitVec.getLsbD_append]
  interval_cases i <;> simp

@[simp] theorem mkFB_at_0_3 (op : BitVec 8) (m : Marks) (j : BitVec 21) :
    (mkFB op m j).extractLsb' 0 3 = j.extractLsb' 0 3 := by
  unfold mkFB
  ext i hi
  simp only [BitVec.getElem_extractLsb', BitVec.getLsbD_append]
  interval_cases i <;> simp

@[simp] theorem mkFB_at_17_4 (op : BitVec 8) (m : Marks) (j : BitVec 21) :
    (mkFB op m j).extractLsb' 17 4 = j.extractLsb' 17 4 := by
  unfold mkFB
  ext i hi
  simp only [BitVec.getElem_extractLsb', BitVec.getLsbD_append]
  interval_cases i <;> simp

@[simp] theorem mkFB_at_14_3 (op : BitVec 8) (m : Marks) (j : BitVec 21) :
    (mkFB op m j).extractLsb' 14 3 = j.extractLsb' 14 3 := by
  unfold mkFB
  ext i hi
  simp only [BitVec.getElem_extractLsb', BitVec.getLsbD_append]
  interval_cases i <;> simp

@[simp] theorem mkFB_at_7_3 (op : BitVec 8) (m : Marks) (j : BitVec 21) :
    (mkFB op m j).extractLsb' 7 3 = j.extractLsb' 7 3 := by
  unfold mkFB
  ext i hi
  simp only [BitVec.getElem_extractLsb', BitVec.getLsbD_append]
  interval_cases i <;> simp

@[simp] theorem mkFB_at_14_4 (op : BitVec 8) (m : Marks) (j : BitVec 21) :
    (mkFB op m j).extractLsb' 14 4 = j.extractLsb' 14 4 := by
  unfold mkFB
  ext i hi
  simp only [BitVec.getElem_extractLsb', BitVec.getLsbD_append]
  interval_cases i <;> simp

@[simp] theorem mkFB_at_7_4 (op : BitVec 8) (m : Marks) (j : BitVec 21) :
    (mkFB op m j).extractLsb' 7 4 = j.extractLsb' 7 4 := by
  unfold mkFB
  ext i hi
  simp only [BitVec.getElem_extractLsb', BitVec.getLsbD_append]
  interval_cases i <;> simp

@[simp] theorem mkFB_at_4_3 (op : BitVec 8) (m : Marks) (j : BitVec 21) :
    (mkFB op m j).extractLsb' 4 3 = j.extractLsb' 4 3 := by
  unfold mkFB
  ext i hi
  simp only [BitVec.getElem_extractLsb', BitVec.getLsbD_append]
  interval_cases i <;> simp

@[simp] theorem mkFB_at_0_13 (op : BitVec 8) (m : Marks) (j : BitVec 21) :
    (mkFB op m j).extractLsb' 0 13 = j.extractLsb' 0 13 := by
  unfold mkFB
  ext i hi
  simp only [BitVec.getElem_extractLsb', BitVec.getLsbD_append]
  interval_cases i <;> simp

@[simp] theorem mkFB_at_5_1 (op : BitVec 8) (m : Marks) (j : BitVec 21) :
    (mkFB op m j).extractLsb' 5 1 = j.extractLsb' 5 1 := by
  unfold mkFB
  ext i hi
  simp only [BitVec.getElem_extractLsb', BitVec.getLsbD_append]
  interval_cases i <;> simp

@[simp] theorem mkFB_at_1_6 (op : BitVec 8) (m : Marks) (j : BitVec 21) :
    (mkFB op m j).extractLsb' 1 6 = j.extractLsb' 1 6 := by
  unfold mkFB
  ext i hi
  simp only [BitVec.getElem_extractLsb', BitVec.getLsbD_append]
  interval_cases i <;> simp

@[simp] theorem mkFB_at_0_6 (op : BitVec 8) (m : Marks) (j : BitVec 21) :
    (mkFB op m j).extractLsb' 0 6 = j.extractLsb' 0 6 := by
  unfold mkFB
  ext i hi
  simp only [BitVec.getElem_extractLsb', BitVec.getLsbD_append]
  interval_cases i <;> simp

theorem pick_cons (w m v : Word) (i : Instr) (rest : List (Word × Word × Instr)) :
    pick w ((m, v, i) :: rest) = if w &&& m = v then .ok i else pick w rest := rfl

/-- Fixed bits below the marks test the three operand fields of a word. -/
theorem and_eq_iff (w x y : Word) (hx : x.extractLsb' 21 11 = 0#11) (hy : y.extractLsb' 21 11 = 0#11) :
    (w &&& x = y) ↔
      (w.extractLsb' 14 7 &&& x.extractLsb' 14 7 = y.extractLsb' 14 7
        ∧ w.extractLsb' 7 7 &&& x.extractLsb' 7 7 = y.extractLsb' 7 7
        ∧ w.extractLsb' 0 7 &&& x.extractLsb' 0 7 = y.extractLsb' 0 7) := by
  constructor
  · rintro rfl
    refine ⟨?_, ?_, ?_⟩ <;> · ext i hi; simp
  · rintro ⟨h1, h2, h3⟩
    apply BitVec.eq_of_getLsbD_eq
    intro i hi
    rw [BitVec.getLsbD_and]
    have part : ∀ (n : Nat) (lo : Nat), w.extractLsb' lo n &&& x.extractLsb' lo n = y.extractLsb' lo n → lo ≤ i →
        i < lo + n → (w.getLsbD i && x.getLsbD i) = y.getLsbD i := by
      intro n lo h h1 h2
      have := congrArg (fun z => z.getLsbD (i - lo)) h
      simpa [show i - lo < n by omega, show lo + (i - lo) = i by omega] using this
    by_cases c1 : i < 7
    · exact part 7 0 h3 (by omega) (by omega)
    · by_cases c2 : i < 14
      · exact part 7 7 h2 (by omega) (by omega)
      · by_cases c3 : i < 21
        · exact part 7 14 h1 (by omega) (by omega)
        · have e : ∀ z : Word, z.extractLsb' 21 11 = 0#11 → z.getLsbD i = false := by
            intro z hz
            have := congrArg (fun z => z.getLsbD (i - 21)) hz
            simpa [show i - 21 < 11 by omega, show 21 + (i - 21) = i by omega] using this
          rw [e x hx, e y hy, Bool.and_false]

@[simp] theorem low3_at_0 (x : BitVec 3) : (0#4 ++ x).extractLsb' 0 3 = x := by
  ext i hi
  simp only [BitVec.getElem_extractLsb', BitVec.getLsbD_append, BitVec.getElem_and, BitVec.getElem_append]
  interval_cases i <;> simp

@[simp] theorem low3_fixed (x : BitVec 3) : (0#4 ++ x) &&& 120#7 = 0#7 := by
  ext i hi
  simp only [BitVec.getElem_extractLsb', BitVec.getLsbD_append, BitVec.getElem_and, BitVec.getElem_append]
  interval_cases i <;> simp

@[simp] theorem pair6_at_1 (x : BitVec 6) : (x ++ 0#1).extractLsb' 1 6 = x := by
  ext i hi
  simp only [BitVec.getElem_extractLsb', BitVec.getLsbD_append, BitVec.getElem_and, BitVec.getElem_append]
  interval_cases i <;> simp

@[simp] theorem pair6_fixed (x : BitVec 6) : (x ++ 0#1) &&& 1#7 = 0#7 := by
  ext i hi
  simp only [BitVec.getElem_extractLsb', BitVec.getLsbD_append, BitVec.getElem_and, BitVec.getElem_append]
  interval_cases i <;> simp

@[simp] theorem low4_at_0 (x : BitVec 4) : (0#3 ++ x).extractLsb' 0 4 = x := by
  ext i hi
  simp only [BitVec.getElem_extractLsb', BitVec.getLsbD_append, BitVec.getElem_and, BitVec.getElem_append]
  interval_cases i <;> simp

@[simp] theorem low4_fixed (x : BitVec 4) : (0#3 ++ x) &&& 112#7 = 0#7 := by
  ext i hi
  simp only [BitVec.getElem_extractLsb', BitVec.getLsbD_append, BitVec.getElem_and, BitVec.getElem_append]
  interval_cases i <;> simp

@[simp] theorem low6_at_0 (x : BitVec 6) : (0#1 ++ x).extractLsb' 0 6 = x := by
  ext i hi
  simp only [BitVec.getElem_extractLsb', BitVec.getLsbD_append, BitVec.getElem_and, BitVec.getElem_append]
  interval_cases i <;> simp

@[simp] theorem low6_fixed (x : BitVec 6) : (0#1 ++ x) &&& 64#7 = 0#7 := by
  ext i hi
  simp only [BitVec.getElem_extractLsb', BitVec.getLsbD_append, BitVec.getElem_and, BitVec.getElem_append]
  interval_cases i <;> simp

@[simp] theorem cond_at_3 (c : BitVec 4) (x : BitVec 3) : (c ++ x).extractLsb' 3 4 = c := by
  ext i hi
  simp only [BitVec.getElem_extractLsb', BitVec.getLsbD_append, BitVec.getElem_and, BitVec.getElem_append]
  interval_cases i <;> simp

@[simp] theorem cond_at_0 (c : BitVec 4) (x : BitVec 3) : (c ++ x).extractLsb' 0 3 = x := by
  ext i hi
  simp only [BitVec.getElem_extractLsb', BitVec.getLsbD_append, BitVec.getElem_and, BitVec.getElem_append]
  interval_cases i <;> simp

@[simp] theorem imm12_at_0 (x : BitVec 12) : (0#2 ++ x).extractLsb' 0 12 = x := by
  ext i hi
  simp only [BitVec.getElem_extractLsb', BitVec.getLsbD_append, BitVec.getElem_and, BitVec.getElem_append]
  interval_cases i <;> simp

@[simp] theorem imm12_fixed7 (x : BitVec 12) : (0#2 ++ x).extractLsb' 7 7 &&& 96#7 = 0#7 := by
  ext i hi
  simp only [BitVec.getElem_extractLsb', BitVec.getLsbD_append, BitVec.getElem_and, BitVec.getElem_append]
  interval_cases i <;> simp

@[simp] theorem imm4_at_0 (x : BitVec 4) : (0#10 ++ x).extractLsb' 0 4 = x := by
  ext i hi
  simp only [BitVec.getElem_extractLsb', BitVec.getLsbD_append, BitVec.getElem_and, BitVec.getElem_append]
  interval_cases i <;> simp

@[simp] theorem imm4_fixed7 (x : BitVec 4) : (0#10 ++ x).extractLsb' 7 7 &&& 127#7 = 0#7 := by
  ext i hi
  simp only [BitVec.getElem_extractLsb', BitVec.getLsbD_append, BitVec.getElem_and, BitVec.getElem_append]
  interval_cases i <;> simp

@[simp] theorem imm4_fixed0 (x : BitVec 4) : (0#10 ++ x).extractLsb' 0 7 &&& 112#7 = 0#7 := by
  ext i hi
  simp only [BitVec.getElem_extractLsb', BitVec.getLsbD_append, BitVec.getElem_and, BitVec.getElem_append]
  interval_cases i <;> simp

@[simp] theorem imm3_at_0 (x : BitVec 3) : (0#11 ++ x).extractLsb' 0 3 = x := by
  ext i hi
  simp only [BitVec.getElem_extractLsb', BitVec.getLsbD_append, BitVec.getElem_and, BitVec.getElem_append]
  interval_cases i <;> simp

@[simp] theorem imm3_fixed7 (x : BitVec 3) : (0#11 ++ x).extractLsb' 7 7 &&& 127#7 = 0#7 := by
  ext i hi
  simp only [BitVec.getElem_extractLsb', BitVec.getLsbD_append, BitVec.getElem_and, BitVec.getElem_append]
  interval_cases i <;> simp

@[simp] theorem imm3_fixed0 (x : BitVec 3) : (0#11 ++ x).extractLsb' 0 7 &&& 120#7 = 0#7 := by
  ext i hi
  simp only [BitVec.getElem_extractLsb', BitVec.getLsbD_append, BitVec.getElem_and, BitVec.getElem_append]
  interval_cases i <;> simp

@[simp] theorem bar_at_4 (c : BitVec 3) (x : BitVec 4) : (0#7 ++ c ++ x).extractLsb' 4 3 = c := by
  ext i hi
  simp only [BitVec.getElem_extractLsb', BitVec.getLsbD_append, BitVec.getElem_and, BitVec.getElem_append]
  interval_cases i <;> simp

@[simp] theorem bar_at_0 (c : BitVec 3) (x : BitVec 4) : (0#7 ++ c ++ x).extractLsb' 0 4 = x := by
  ext i hi
  simp only [BitVec.getElem_extractLsb', BitVec.getLsbD_append, BitVec.getElem_and, BitVec.getElem_append]
  interval_cases i <;> simp

@[simp] theorem bar_fixed7 (c : BitVec 3) (x : BitVec 4) : (0#7 ++ c ++ x).extractLsb' 7 7 &&& 127#7 = 0#7 := by
  ext i hi
  simp only [BitVec.getElem_extractLsb', BitVec.getLsbD_append, BitVec.getElem_and, BitVec.getElem_append]
  interval_cases i <;> simp

@[simp] theorem imm13_at_0 (x : BitVec 13) : (0#1 ++ x).extractLsb' 0 13 = x := by
  ext i hi
  simp only [BitVec.getElem_extractLsb', BitVec.getLsbD_append, BitVec.getElem_and, BitVec.getElem_append]
  interval_cases i <;> simp

@[simp] theorem imm13_fixed7 (x : BitVec 13) : (0#1 ++ x).extractLsb' 7 7 &&& 64#7 = 0#7 := by
  ext i hi
  simp only [BitVec.getElem_extractLsb', BitVec.getLsbD_append, BitVec.getElem_and, BitVec.getElem_append]
  interval_cases i <;> simp

@[simp] theorem fence0_at_5 (y : BitVec 1) (c : BitVec 3) : (0#8 ++ y ++ 0#2 ++ c).extractLsb' 5 1 = y := by
  ext i hi
  simp only [BitVec.getElem_extractLsb', BitVec.getLsbD_append, BitVec.getElem_and, BitVec.getElem_append]
  interval_cases i <;> simp

@[simp] theorem fence0_at_0 (y : BitVec 1) (c : BitVec 3) : (0#8 ++ y ++ 0#2 ++ c).extractLsb' 0 3 = c := by
  ext i hi
  simp only [BitVec.getElem_extractLsb', BitVec.getLsbD_append, BitVec.getElem_and, BitVec.getElem_append]
  interval_cases i <;> simp

@[simp] theorem fence0_fixed7 (y : BitVec 1) (c : BitVec 3) : (0#8 ++ y ++ 0#2 ++ c).extractLsb' 7 7 &&& 127#7 = 0#7 := by
  ext i hi
  simp only [BitVec.getElem_extractLsb', BitVec.getLsbD_append, BitVec.getElem_and, BitVec.getElem_append]
  interval_cases i <;> simp

@[simp] theorem fence0_fixed0 (y : BitVec 1) (c : BitVec 3) : (0#8 ++ y ++ 0#2 ++ c).extractLsb' 0 7 &&& 88#7 = 0#7 := by
  ext i hi
  simp only [BitVec.getElem_extractLsb', BitVec.getLsbD_append, BitVec.getElem_and, BitVec.getElem_append]
  interval_cases i <;> simp

@[simp] theorem fence1_at_5 (y : BitVec 1) (c : BitVec 3) : (0#8 ++ y ++ 1#2 ++ c).extractLsb' 5 1 = y := by
  ext i hi
  simp only [BitVec.getElem_extractLsb', BitVec.getLsbD_append, BitVec.getElem_and, BitVec.getElem_append]
  interval_cases i <;> simp

@[simp] theorem fence1_at_0 (y : BitVec 1) (c : BitVec 3) : (0#8 ++ y ++ 1#2 ++ c).extractLsb' 0 3 = c := by
  ext i hi
  simp only [BitVec.getElem_extractLsb', BitVec.getLsbD_append, BitVec.getElem_and, BitVec.getElem_append]
  interval_cases i <;> simp

@[simp] theorem fence1_fixed7 (y : BitVec 1) (c : BitVec 3) : (0#8 ++ y ++ 1#2 ++ c).extractLsb' 7 7 &&& 127#7 = 0#7 := by
  ext i hi
  simp only [BitVec.getElem_extractLsb', BitVec.getLsbD_append, BitVec.getElem_and, BitVec.getElem_append]
  interval_cases i <;> simp

@[simp] theorem fence1_fixed0 (y : BitVec 1) (c : BitVec 3) : (0#8 ++ y ++ 1#2 ++ c).extractLsb' 0 7 &&& 88#7 = 8#7 := by
  ext i hi
  simp only [BitVec.getElem_extractLsb', BitVec.getLsbD_append, BitVec.getElem_and, BitVec.getElem_append]
  interval_cases i <;> simp

@[simp] theorem fence2_at_5 (y : BitVec 1) (c : BitVec 3) : (0#8 ++ y ++ 2#2 ++ c).extractLsb' 5 1 = y := by
  ext i hi
  simp only [BitVec.getElem_extractLsb', BitVec.getLsbD_append, BitVec.getElem_and, BitVec.getElem_append]
  interval_cases i <;> simp

@[simp] theorem fence2_at_0 (y : BitVec 1) (c : BitVec 3) : (0#8 ++ y ++ 2#2 ++ c).extractLsb' 0 3 = c := by
  ext i hi
  simp only [BitVec.getElem_extractLsb', BitVec.getLsbD_append, BitVec.getElem_and, BitVec.getElem_append]
  interval_cases i <;> simp

@[simp] theorem fence2_fixed7 (y : BitVec 1) (c : BitVec 3) : (0#8 ++ y ++ 2#2 ++ c).extractLsb' 7 7 &&& 127#7 = 0#7 := by
  ext i hi
  simp only [BitVec.getElem_extractLsb', BitVec.getLsbD_append, BitVec.getElem_and, BitVec.getElem_append]
  interval_cases i <;> simp

@[simp] theorem fence2_fixed0 (y : BitVec 1) (c : BitVec 3) : (0#8 ++ y ++ 2#2 ++ c).extractLsb' 0 7 &&& 88#7 = 16#7 := by
  ext i hi
  simp only [BitVec.getElem_extractLsb', BitVec.getLsbD_append, BitVec.getElem_and, BitVec.getElem_append]
  interval_cases i <;> simp

@[simp] theorem pair6_ne (x : BitVec 6) : ¬ (x ++ 0#1 &&& 127#7 = 127#7) := by
  intro h
  have k := congrArg (fun z => z.getLsbD 0) h
  have e : (x ++ 0#1).getLsbD 0 = false := by rw [BitVec.getLsbD_append]; simp
  simp only [BitVec.getLsbD_and, e] at k
  simp at k


end Sys2Proof
end

