-- ==== Sys2Proof/Laws/State.lean ====
section
/-! SUPPORT. What each update of the state and of a cane leaves as it was: one lemma for each field, so that no
later proof unfolds a record update. -/

namespace Sys2Proof.Machine

/-! ## updCur -/

@[simp] theorem State.updCur_others (s : State) (f : Cane → Cane) : (s.updCur f).others = s.others := rfl
@[simp] theorem State.updCur_iss (s : State) (f : Cane → Cane) : (s.updCur f).iss = s.iss := rfl
@[simp] theorem State.updCur_agenda (s : State) (f : Cane → Cane) : (s.updCur f).agenda = s.agenda := rfl
@[simp] theorem State.updCur_nextId (s : State) (f : Cane → Cane) : (s.updCur f).nextId = s.nextId := rfl
@[simp] theorem State.updCur_freeCount (s : State) (f : Cane → Cane) : (s.updCur f).freeCount = s.freeCount := rfl
@[simp] theorem State.updCur_mem (s : State) (f : Cane → Cane) : (s.updCur f).mem = s.mem := rfl
@[simp] theorem State.updCur_lineSeq (s : State) (f : Cane → Cane) : (s.updCur f).lineSeq = s.lineSeq := rfl
@[simp] theorem State.updCur_linePast (s : State) (f : Cane → Cane) : (s.updCur f).linePast = s.linePast := rfl
@[simp] theorem State.updCur_poison (s : State) (f : Cane → Cane) : (s.updCur f).poison = s.poison := rfl
@[simp] theorem State.updCur_flights (s : State) (f : Cane → Cane) : (s.updCur f).flights = s.flights := rfl
@[simp] theorem State.updCur_posts (s : State) (f : Cane → Cane) : (s.updCur f).posts = s.posts := rfl
@[simp] theorem State.updCur_cores (s : State) (f : Cane → Cane) : (s.updCur f).cores = s.cores := rfl
@[simp] theorem State.updCur_clusters (s : State) (f : Cane → Cane) : (s.updCur f).clusters = s.clusters := rfl
@[simp] theorem State.updCur_dies (s : State) (f : Cane → Cane) : (s.updCur f).dies = s.dies := rfl
@[simp] theorem State.updCur_terraces (s : State) (f : Cane → Cane) : (s.updCur f).terraces = s.terraces := rfl
@[simp] theorem State.updCur_veils (s : State) (f : Cane → Cane) : (s.updCur f).veils = s.veils := rfl
@[simp] theorem State.updCur_cellar (s : State) (f : Cane → Cane) : (s.updCur f).cellar = s.cellar := rfl
@[simp] theorem State.updCur_channels (s : State) (f : Cane → Cane) : (s.updCur f).channels = s.channels := rfl
@[simp] theorem State.updCur_workgroups (s : State) (f : Cane → Cane) : (s.updCur f).workgroups = s.workgroups := rfl
@[simp] theorem State.updCur_parcels (s : State) (f : Cane → Cane) : (s.updCur f).parcels = s.parcels := rfl
@[simp] theorem State.updCur_barriers (s : State) (f : Cane → Cane) : (s.updCur f).barriers = s.barriers := rfl
@[simp] theorem State.updCur_pendingArrivals (s : State) (f : Cane → Cane) : (s.updCur f).pendingArrivals = s.pendingArrivals := rfl
@[simp] theorem State.updCur_transEntries (s : State) (f : Cane → Cane) : (s.updCur f).transEntries = s.transEntries := rfl
@[simp] theorem State.updCur_images (s : State) (f : Cane → Cane) : (s.updCur f).images = s.images := rfl
@[simp] theorem State.updCur_links (s : State) (f : Cane → Cane) : (s.updCur f).links = s.links := rfl
@[simp] theorem State.updCur_asyncOps (s : State) (f : Cane → Cane) : (s.updCur f).asyncOps = s.asyncOps := rfl
@[simp] theorem State.updCur_decantOps (s : State) (f : Cane → Cane) : (s.updCur f).decantOps = s.decantOps := rfl
@[simp] theorem State.updCur_tasks (s : State) (f : Cane → Cane) : (s.updCur f).tasks = s.tasks := rfl
@[simp] theorem State.updCur_partials (s : State) (f : Cane → Cane) : (s.updCur f).partials = s.partials := rfl
@[simp] theorem State.updCur_groups (s : State) (f : Cane → Cane) : (s.updCur f).groups = s.groups := rfl
@[simp] theorem State.updCur_keys (s : State) (f : Cane → Cane) : (s.updCur f).keys = s.keys := rfl
@[simp] theorem State.updCur_tlbInvs (s : State) (f : Cane → Cane) : (s.updCur f).tlbInvs = s.tlbInvs := rfl
@[simp] theorem State.updCur_heldReds (s : State) (f : Cane → Cane) : (s.updCur f).heldReds = s.heldReds := rfl
@[simp] theorem State.updCur_backlogs (s : State) (f : Cane → Cane) : (s.updCur f).backlogs = s.backlogs := rfl
@[simp] theorem State.updCur_sups (s : State) (f : Cane → Cane) : (s.updCur f).sups = s.sups := rfl
@[simp] theorem State.updCur_completion (s : State) (f : Cane → Cane) : (s.updCur f).completion = s.completion := rfl
@[simp] theorem State.updCur_boot (s : State) (f : Cane → Cane) : (s.updCur f).boot = s.boot := rfl
@[simp] theorem State.updCur_rtime (s : State) (f : Cane → Cane) : (s.updCur f).rtime = s.rtime := rfl

/-! ## setCore -/

@[simp] theorem State.setCore_cur (s : State) (i : Nat) (c : Core) : (s.setCore i c).cur = s.cur := rfl
@[simp] theorem State.setCore_others (s : State) (i : Nat) (c : Core) : (s.setCore i c).others = s.others := rfl
@[simp] theorem State.setCore_iss (s : State) (i : Nat) (c : Core) : (s.setCore i c).iss = s.iss := rfl
@[simp] theorem State.setCore_agenda (s : State) (i : Nat) (c : Core) : (s.setCore i c).agenda = s.agenda := rfl
@[simp] theorem State.setCore_nextId (s : State) (i : Nat) (c : Core) : (s.setCore i c).nextId = s.nextId := rfl
@[simp] theorem State.setCore_freeCount (s : State) (i : Nat) (c : Core) : (s.setCore i c).freeCount = s.freeCount := rfl
@[simp] theorem State.setCore_mem (s : State) (i : Nat) (c : Core) : (s.setCore i c).mem = s.mem := rfl
@[simp] theorem State.setCore_lineSeq (s : State) (i : Nat) (c : Core) : (s.setCore i c).lineSeq = s.lineSeq := rfl
@[simp] theorem State.setCore_linePast (s : State) (i : Nat) (c : Core) : (s.setCore i c).linePast = s.linePast := rfl
@[simp] theorem State.setCore_poison (s : State) (i : Nat) (c : Core) : (s.setCore i c).poison = s.poison := rfl
@[simp] theorem State.setCore_flights (s : State) (i : Nat) (c : Core) : (s.setCore i c).flights = s.flights := rfl
@[simp] theorem State.setCore_posts (s : State) (i : Nat) (c : Core) : (s.setCore i c).posts = s.posts := rfl
@[simp] theorem State.setCore_clusters (s : State) (i : Nat) (c : Core) : (s.setCore i c).clusters = s.clusters := rfl
@[simp] theorem State.setCore_dies (s : State) (i : Nat) (c : Core) : (s.setCore i c).dies = s.dies := rfl
@[simp] theorem State.setCore_terraces (s : State) (i : Nat) (c : Core) : (s.setCore i c).terraces = s.terraces := rfl
@[simp] theorem State.setCore_veils (s : State) (i : Nat) (c : Core) : (s.setCore i c).veils = s.veils := rfl
@[simp] theorem State.setCore_cellar (s : State) (i : Nat) (c : Core) : (s.setCore i c).cellar = s.cellar := rfl
@[simp] theorem State.setCore_channels (s : State) (i : Nat) (c : Core) : (s.setCore i c).channels = s.channels := rfl
@[simp] theorem State.setCore_workgroups (s : State) (i : Nat) (c : Core) : (s.setCore i c).workgroups = s.workgroups := rfl
@[simp] theorem State.setCore_parcels (s : State) (i : Nat) (c : Core) : (s.setCore i c).parcels = s.parcels := rfl
@[simp] theorem State.setCore_barriers (s : State) (i : Nat) (c : Core) : (s.setCore i c).barriers = s.barriers := rfl
@[simp] theorem State.setCore_pendingArrivals (s : State) (i : Nat) (c : Core) : (s.setCore i c).pendingArrivals = s.pendingArrivals := rfl
@[simp] theorem State.setCore_transEntries (s : State) (i : Nat) (c : Core) : (s.setCore i c).transEntries = s.transEntries := rfl
@[simp] theorem State.setCore_images (s : State) (i : Nat) (c : Core) : (s.setCore i c).images = s.images := rfl
@[simp] theorem State.setCore_links (s : State) (i : Nat) (c : Core) : (s.setCore i c).links = s.links := rfl
@[simp] theorem State.setCore_asyncOps (s : State) (i : Nat) (c : Core) : (s.setCore i c).asyncOps = s.asyncOps := rfl
@[simp] theorem State.setCore_decantOps (s : State) (i : Nat) (c : Core) : (s.setCore i c).decantOps = s.decantOps := rfl
@[simp] theorem State.setCore_tasks (s : State) (i : Nat) (c : Core) : (s.setCore i c).tasks = s.tasks := rfl
@[simp] theorem State.setCore_partials (s : State) (i : Nat) (c : Core) : (s.setCore i c).partials = s.partials := rfl
@[simp] theorem State.setCore_groups (s : State) (i : Nat) (c : Core) : (s.setCore i c).groups = s.groups := rfl
@[simp] theorem State.setCore_keys (s : State) (i : Nat) (c : Core) : (s.setCore i c).keys = s.keys := rfl
@[simp] theorem State.setCore_tlbInvs (s : State) (i : Nat) (c : Core) : (s.setCore i c).tlbInvs = s.tlbInvs := rfl
@[simp] theorem State.setCore_heldReds (s : State) (i : Nat) (c : Core) : (s.setCore i c).heldReds = s.heldReds := rfl
@[simp] theorem State.setCore_backlogs (s : State) (i : Nat) (c : Core) : (s.setCore i c).backlogs = s.backlogs := rfl
@[simp] theorem State.setCore_sups (s : State) (i : Nat) (c : Core) : (s.setCore i c).sups = s.sups := rfl
@[simp] theorem State.setCore_completion (s : State) (i : Nat) (c : Core) : (s.setCore i c).completion = s.completion := rfl
@[simp] theorem State.setCore_boot (s : State) (i : Nat) (c : Core) : (s.setCore i c).boot = s.boot := rfl
@[simp] theorem State.setCore_rtime (s : State) (i : Nat) (c : Core) : (s.setCore i c).rtime = s.rtime := rfl

/-! ## setCluster -/

@[simp] theorem State.setCluster_cur (s : State) (i : Nat) (k : Cluster) : (s.setCluster i k).cur = s.cur := rfl
@[simp] theorem State.setCluster_others (s : State) (i : Nat) (k : Cluster) : (s.setCluster i k).others = s.others := rfl
@[simp] theorem State.setCluster_iss (s : State) (i : Nat) (k : Cluster) : (s.setCluster i k).iss = s.iss := rfl
@[simp] theorem State.setCluster_agenda (s : State) (i : Nat) (k : Cluster) : (s.setCluster i k).agenda = s.agenda := rfl
@[simp] theorem State.setCluster_nextId (s : State) (i : Nat) (k : Cluster) : (s.setCluster i k).nextId = s.nextId := rfl
@[simp] theorem State.setCluster_freeCount (s : State) (i : Nat) (k : Cluster) : (s.setCluster i k).freeCount = s.freeCount := rfl
@[simp] theorem State.setCluster_mem (s : State) (i : Nat) (k : Cluster) : (s.setCluster i k).mem = s.mem := rfl
@[simp] theorem State.setCluster_lineSeq (s : State) (i : Nat) (k : Cluster) : (s.setCluster i k).lineSeq = s.lineSeq := rfl
@[simp] theorem State.setCluster_linePast (s : State) (i : Nat) (k : Cluster) : (s.setCluster i k).linePast = s.linePast := rfl
@[simp] theorem State.setCluster_poison (s : State) (i : Nat) (k : Cluster) : (s.setCluster i k).poison = s.poison := rfl
@[simp] theorem State.setCluster_flights (s : State) (i : Nat) (k : Cluster) : (s.setCluster i k).flights = s.flights := rfl
@[simp] theorem State.setCluster_posts (s : State) (i : Nat) (k : Cluster) : (s.setCluster i k).posts = s.posts := rfl
@[simp] theorem State.setCluster_cores (s : State) (i : Nat) (k : Cluster) : (s.setCluster i k).cores = s.cores := rfl
@[simp] theorem State.setCluster_dies (s : State) (i : Nat) (k : Cluster) : (s.setCluster i k).dies = s.dies := rfl
@[simp] theorem State.setCluster_terraces (s : State) (i : Nat) (k : Cluster) : (s.setCluster i k).terraces = s.terraces := rfl
@[simp] theorem State.setCluster_veils (s : State) (i : Nat) (k : Cluster) : (s.setCluster i k).veils = s.veils := rfl
@[simp] theorem State.setCluster_cellar (s : State) (i : Nat) (k : Cluster) : (s.setCluster i k).cellar = s.cellar := rfl
@[simp] theorem State.setCluster_channels (s : State) (i : Nat) (k : Cluster) : (s.setCluster i k).channels = s.channels := rfl
@[simp] theorem State.setCluster_workgroups (s : State) (i : Nat) (k : Cluster) : (s.setCluster i k).workgroups = s.workgroups := rfl
@[simp] theorem State.setCluster_parcels (s : State) (i : Nat) (k : Cluster) : (s.setCluster i k).parcels = s.parcels := rfl
@[simp] theorem State.setCluster_barriers (s : State) (i : Nat) (k : Cluster) : (s.setCluster i k).barriers = s.barriers := rfl
@[simp] theorem State.setCluster_pendingArrivals (s : State) (i : Nat) (k : Cluster) : (s.setCluster i k).pendingArrivals = s.pendingArrivals := rfl
@[simp] theorem State.setCluster_transEntries (s : State) (i : Nat) (k : Cluster) : (s.setCluster i k).transEntries = s.transEntries := rfl
@[simp] theorem State.setCluster_images (s : State) (i : Nat) (k : Cluster) : (s.setCluster i k).images = s.images := rfl
@[simp] theorem State.setCluster_links (s : State) (i : Nat) (k : Cluster) : (s.setCluster i k).links = s.links := rfl
@[simp] theorem State.setCluster_asyncOps (s : State) (i : Nat) (k : Cluster) : (s.setCluster i k).asyncOps = s.asyncOps := rfl
@[simp] theorem State.setCluster_decantOps (s : State) (i : Nat) (k : Cluster) : (s.setCluster i k).decantOps = s.decantOps := rfl
@[simp] theorem State.setCluster_tasks (s : State) (i : Nat) (k : Cluster) : (s.setCluster i k).tasks = s.tasks := rfl
@[simp] theorem State.setCluster_partials (s : State) (i : Nat) (k : Cluster) : (s.setCluster i k).partials = s.partials := rfl
@[simp] theorem State.setCluster_groups (s : State) (i : Nat) (k : Cluster) : (s.setCluster i k).groups = s.groups := rfl
@[simp] theorem State.setCluster_keys (s : State) (i : Nat) (k : Cluster) : (s.setCluster i k).keys = s.keys := rfl
@[simp] theorem State.setCluster_tlbInvs (s : State) (i : Nat) (k : Cluster) : (s.setCluster i k).tlbInvs = s.tlbInvs := rfl
@[simp] theorem State.setCluster_heldReds (s : State) (i : Nat) (k : Cluster) : (s.setCluster i k).heldReds = s.heldReds := rfl
@[simp] theorem State.setCluster_backlogs (s : State) (i : Nat) (k : Cluster) : (s.setCluster i k).backlogs = s.backlogs := rfl
@[simp] theorem State.setCluster_sups (s : State) (i : Nat) (k : Cluster) : (s.setCluster i k).sups = s.sups := rfl
@[simp] theorem State.setCluster_completion (s : State) (i : Nat) (k : Cluster) : (s.setCluster i k).completion = s.completion := rfl
@[simp] theorem State.setCluster_boot (s : State) (i : Nat) (k : Cluster) : (s.setCluster i k).boot = s.boot := rfl
@[simp] theorem State.setCluster_rtime (s : State) (i : Nat) (k : Cluster) : (s.setCluster i k).rtime = s.rtime := rfl

/-! ## setDie -/

@[simp] theorem State.setDie_cur (s : State) (i : Nat) (d : Die) : (s.setDie i d).cur = s.cur := rfl
@[simp] theorem State.setDie_others (s : State) (i : Nat) (d : Die) : (s.setDie i d).others = s.others := rfl
@[simp] theorem State.setDie_iss (s : State) (i : Nat) (d : Die) : (s.setDie i d).iss = s.iss := rfl
@[simp] theorem State.setDie_agenda (s : State) (i : Nat) (d : Die) : (s.setDie i d).agenda = s.agenda := rfl
@[simp] theorem State.setDie_nextId (s : State) (i : Nat) (d : Die) : (s.setDie i d).nextId = s.nextId := rfl
@[simp] theorem State.setDie_freeCount (s : State) (i : Nat) (d : Die) : (s.setDie i d).freeCount = s.freeCount := rfl
@[simp] theorem State.setDie_mem (s : State) (i : Nat) (d : Die) : (s.setDie i d).mem = s.mem := rfl
@[simp] theorem State.setDie_lineSeq (s : State) (i : Nat) (d : Die) : (s.setDie i d).lineSeq = s.lineSeq := rfl
@[simp] theorem State.setDie_linePast (s : State) (i : Nat) (d : Die) : (s.setDie i d).linePast = s.linePast := rfl
@[simp] theorem State.setDie_poison (s : State) (i : Nat) (d : Die) : (s.setDie i d).poison = s.poison := rfl
@[simp] theorem State.setDie_flights (s : State) (i : Nat) (d : Die) : (s.setDie i d).flights = s.flights := rfl
@[simp] theorem State.setDie_posts (s : State) (i : Nat) (d : Die) : (s.setDie i d).posts = s.posts := rfl
@[simp] theorem State.setDie_cores (s : State) (i : Nat) (d : Die) : (s.setDie i d).cores = s.cores := rfl
@[simp] theorem State.setDie_clusters (s : State) (i : Nat) (d : Die) : (s.setDie i d).clusters = s.clusters := rfl
@[simp] theorem State.setDie_terraces (s : State) (i : Nat) (d : Die) : (s.setDie i d).terraces = s.terraces := rfl
@[simp] theorem State.setDie_veils (s : State) (i : Nat) (d : Die) : (s.setDie i d).veils = s.veils := rfl
@[simp] theorem State.setDie_cellar (s : State) (i : Nat) (d : Die) : (s.setDie i d).cellar = s.cellar := rfl
@[simp] theorem State.setDie_channels (s : State) (i : Nat) (d : Die) : (s.setDie i d).channels = s.channels := rfl
@[simp] theorem State.setDie_workgroups (s : State) (i : Nat) (d : Die) : (s.setDie i d).workgroups = s.workgroups := rfl
@[simp] theorem State.setDie_parcels (s : State) (i : Nat) (d : Die) : (s.setDie i d).parcels = s.parcels := rfl
@[simp] theorem State.setDie_barriers (s : State) (i : Nat) (d : Die) : (s.setDie i d).barriers = s.barriers := rfl
@[simp] theorem State.setDie_pendingArrivals (s : State) (i : Nat) (d : Die) : (s.setDie i d).pendingArrivals = s.pendingArrivals := rfl
@[simp] theorem State.setDie_transEntries (s : State) (i : Nat) (d : Die) : (s.setDie i d).transEntries = s.transEntries := rfl
@[simp] theorem State.setDie_images (s : State) (i : Nat) (d : Die) : (s.setDie i d).images = s.images := rfl
@[simp] theorem State.setDie_links (s : State) (i : Nat) (d : Die) : (s.setDie i d).links = s.links := rfl
@[simp] theorem State.setDie_asyncOps (s : State) (i : Nat) (d : Die) : (s.setDie i d).asyncOps = s.asyncOps := rfl
@[simp] theorem State.setDie_decantOps (s : State) (i : Nat) (d : Die) : (s.setDie i d).decantOps = s.decantOps := rfl
@[simp] theorem State.setDie_tasks (s : State) (i : Nat) (d : Die) : (s.setDie i d).tasks = s.tasks := rfl
@[simp] theorem State.setDie_partials (s : State) (i : Nat) (d : Die) : (s.setDie i d).partials = s.partials := rfl
@[simp] theorem State.setDie_groups (s : State) (i : Nat) (d : Die) : (s.setDie i d).groups = s.groups := rfl
@[simp] theorem State.setDie_keys (s : State) (i : Nat) (d : Die) : (s.setDie i d).keys = s.keys := rfl
@[simp] theorem State.setDie_tlbInvs (s : State) (i : Nat) (d : Die) : (s.setDie i d).tlbInvs = s.tlbInvs := rfl
@[simp] theorem State.setDie_heldReds (s : State) (i : Nat) (d : Die) : (s.setDie i d).heldReds = s.heldReds := rfl
@[simp] theorem State.setDie_backlogs (s : State) (i : Nat) (d : Die) : (s.setDie i d).backlogs = s.backlogs := rfl
@[simp] theorem State.setDie_sups (s : State) (i : Nat) (d : Die) : (s.setDie i d).sups = s.sups := rfl
@[simp] theorem State.setDie_completion (s : State) (i : Nat) (d : Die) : (s.setDie i d).completion = s.completion := rfl
@[simp] theorem State.setDie_boot (s : State) (i : Nat) (d : Die) : (s.setDie i d).boot = s.boot := rfl
@[simp] theorem State.setDie_rtime (s : State) (i : Nat) (d : Die) : (s.setDie i d).rtime = s.rtime := rfl

/-! ## setTerrace -/

@[simp] theorem State.setTerrace_cur (s : State) (i : Nat) (t : Terrace) : (s.setTerrace i t).cur = s.cur := rfl
@[simp] theorem State.setTerrace_others (s : State) (i : Nat) (t : Terrace) : (s.setTerrace i t).others = s.others := rfl
@[simp] theorem State.setTerrace_iss (s : State) (i : Nat) (t : Terrace) : (s.setTerrace i t).iss = s.iss := rfl
@[simp] theorem State.setTerrace_agenda (s : State) (i : Nat) (t : Terrace) : (s.setTerrace i t).agenda = s.agenda := rfl
@[simp] theorem State.setTerrace_nextId (s : State) (i : Nat) (t : Terrace) : (s.setTerrace i t).nextId = s.nextId := rfl
@[simp] theorem State.setTerrace_freeCount (s : State) (i : Nat) (t : Terrace) : (s.setTerrace i t).freeCount = s.freeCount := rfl
@[simp] theorem State.setTerrace_mem (s : State) (i : Nat) (t : Terrace) : (s.setTerrace i t).mem = s.mem := rfl
@[simp] theorem State.setTerrace_lineSeq (s : State) (i : Nat) (t : Terrace) : (s.setTerrace i t).lineSeq = s.lineSeq := rfl
@[simp] theorem State.setTerrace_linePast (s : State) (i : Nat) (t : Terrace) : (s.setTerrace i t).linePast = s.linePast := rfl
@[simp] theorem State.setTerrace_poison (s : State) (i : Nat) (t : Terrace) : (s.setTerrace i t).poison = s.poison := rfl
@[simp] theorem State.setTerrace_flights (s : State) (i : Nat) (t : Terrace) : (s.setTerrace i t).flights = s.flights := rfl
@[simp] theorem State.setTerrace_posts (s : State) (i : Nat) (t : Terrace) : (s.setTerrace i t).posts = s.posts := rfl
@[simp] theorem State.setTerrace_cores (s : State) (i : Nat) (t : Terrace) : (s.setTerrace i t).cores = s.cores := rfl
@[simp] theorem State.setTerrace_clusters (s : State) (i : Nat) (t : Terrace) : (s.setTerrace i t).clusters = s.clusters := rfl
@[simp] theorem State.setTerrace_dies (s : State) (i : Nat) (t : Terrace) : (s.setTerrace i t).dies = s.dies := rfl
@[simp] theorem State.setTerrace_veils (s : State) (i : Nat) (t : Terrace) : (s.setTerrace i t).veils = s.veils := rfl
@[simp] theorem State.setTerrace_cellar (s : State) (i : Nat) (t : Terrace) : (s.setTerrace i t).cellar = s.cellar := rfl
@[simp] theorem State.setTerrace_channels (s : State) (i : Nat) (t : Terrace) : (s.setTerrace i t).channels = s.channels := rfl
@[simp] theorem State.setTerrace_workgroups (s : State) (i : Nat) (t : Terrace) : (s.setTerrace i t).workgroups = s.workgroups := rfl
@[simp] theorem State.setTerrace_parcels (s : State) (i : Nat) (t : Terrace) : (s.setTerrace i t).parcels = s.parcels := rfl
@[simp] theorem State.setTerrace_barriers (s : State) (i : Nat) (t : Terrace) : (s.setTerrace i t).barriers = s.barriers := rfl
@[simp] theorem State.setTerrace_pendingArrivals (s : State) (i : Nat) (t : Terrace) : (s.setTerrace i t).pendingArrivals = s.pendingArrivals := rfl
@[simp] theorem State.setTerrace_transEntries (s : State) (i : Nat) (t : Terrace) : (s.setTerrace i t).transEntries = s.transEntries := rfl
@[simp] theorem State.setTerrace_images (s : State) (i : Nat) (t : Terrace) : (s.setTerrace i t).images = s.images := rfl
@[simp] theorem State.setTerrace_links (s : State) (i : Nat) (t : Terrace) : (s.setTerrace i t).links = s.links := rfl
@[simp] theorem State.setTerrace_asyncOps (s : State) (i : Nat) (t : Terrace) : (s.setTerrace i t).asyncOps = s.asyncOps := rfl
@[simp] theorem State.setTerrace_decantOps (s : State) (i : Nat) (t : Terrace) : (s.setTerrace i t).decantOps = s.decantOps := rfl
@[simp] theorem State.setTerrace_tasks (s : State) (i : Nat) (t : Terrace) : (s.setTerrace i t).tasks = s.tasks := rfl
@[simp] theorem State.setTerrace_partials (s : State) (i : Nat) (t : Terrace) : (s.setTerrace i t).partials = s.partials := rfl
@[simp] theorem State.setTerrace_groups (s : State) (i : Nat) (t : Terrace) : (s.setTerrace i t).groups = s.groups := rfl
@[simp] theorem State.setTerrace_keys (s : State) (i : Nat) (t : Terrace) : (s.setTerrace i t).keys = s.keys := rfl
@[simp] theorem State.setTerrace_tlbInvs (s : State) (i : Nat) (t : Terrace) : (s.setTerrace i t).tlbInvs = s.tlbInvs := rfl
@[simp] theorem State.setTerrace_heldReds (s : State) (i : Nat) (t : Terrace) : (s.setTerrace i t).heldReds = s.heldReds := rfl
@[simp] theorem State.setTerrace_backlogs (s : State) (i : Nat) (t : Terrace) : (s.setTerrace i t).backlogs = s.backlogs := rfl
@[simp] theorem State.setTerrace_sups (s : State) (i : Nat) (t : Terrace) : (s.setTerrace i t).sups = s.sups := rfl
@[simp] theorem State.setTerrace_completion (s : State) (i : Nat) (t : Terrace) : (s.setTerrace i t).completion = s.completion := rfl
@[simp] theorem State.setTerrace_boot (s : State) (i : Nat) (t : Terrace) : (s.setTerrace i t).boot = s.boot := rfl
@[simp] theorem State.setTerrace_rtime (s : State) (i : Nat) (t : Terrace) : (s.setTerrace i t).rtime = s.rtime := rfl

/-! ## updWg -/

@[simp] theorem State.updWg_cur (s : State) (i : Nat) (f : Workgroup → Workgroup) : (s.updWg i f).cur = s.cur := rfl
@[simp] theorem State.updWg_others (s : State) (i : Nat) (f : Workgroup → Workgroup) : (s.updWg i f).others = s.others := rfl
@[simp] theorem State.updWg_iss (s : State) (i : Nat) (f : Workgroup → Workgroup) : (s.updWg i f).iss = s.iss := rfl
@[simp] theorem State.updWg_agenda (s : State) (i : Nat) (f : Workgroup → Workgroup) : (s.updWg i f).agenda = s.agenda := rfl
@[simp] theorem State.updWg_nextId (s : State) (i : Nat) (f : Workgroup → Workgroup) : (s.updWg i f).nextId = s.nextId := rfl
@[simp] theorem State.updWg_freeCount (s : State) (i : Nat) (f : Workgroup → Workgroup) : (s.updWg i f).freeCount = s.freeCount := rfl
@[simp] theorem State.updWg_mem (s : State) (i : Nat) (f : Workgroup → Workgroup) : (s.updWg i f).mem = s.mem := rfl
@[simp] theorem State.updWg_lineSeq (s : State) (i : Nat) (f : Workgroup → Workgroup) : (s.updWg i f).lineSeq = s.lineSeq := rfl
@[simp] theorem State.updWg_linePast (s : State) (i : Nat) (f : Workgroup → Workgroup) : (s.updWg i f).linePast = s.linePast := rfl
@[simp] theorem State.updWg_poison (s : State) (i : Nat) (f : Workgroup → Workgroup) : (s.updWg i f).poison = s.poison := rfl
@[simp] theorem State.updWg_flights (s : State) (i : Nat) (f : Workgroup → Workgroup) : (s.updWg i f).flights = s.flights := rfl
@[simp] theorem State.updWg_posts (s : State) (i : Nat) (f : Workgroup → Workgroup) : (s.updWg i f).posts = s.posts := rfl
@[simp] theorem State.updWg_cores (s : State) (i : Nat) (f : Workgroup → Workgroup) : (s.updWg i f).cores = s.cores := rfl
@[simp] theorem State.updWg_clusters (s : State) (i : Nat) (f : Workgroup → Workgroup) : (s.updWg i f).clusters = s.clusters := rfl
@[simp] theorem State.updWg_dies (s : State) (i : Nat) (f : Workgroup → Workgroup) : (s.updWg i f).dies = s.dies := rfl
@[simp] theorem State.updWg_terraces (s : State) (i : Nat) (f : Workgroup → Workgroup) : (s.updWg i f).terraces = s.terraces := rfl
@[simp] theorem State.updWg_veils (s : State) (i : Nat) (f : Workgroup → Workgroup) : (s.updWg i f).veils = s.veils := rfl
@[simp] theorem State.updWg_cellar (s : State) (i : Nat) (f : Workgroup → Workgroup) : (s.updWg i f).cellar = s.cellar := rfl
@[simp] theorem State.updWg_channels (s : State) (i : Nat) (f : Workgroup → Workgroup) : (s.updWg i f).channels = s.channels := rfl
@[simp] theorem State.updWg_parcels (s : State) (i : Nat) (f : Workgroup → Workgroup) : (s.updWg i f).parcels = s.parcels := rfl
@[simp] theorem State.updWg_barriers (s : State) (i : Nat) (f : Workgroup → Workgroup) : (s.updWg i f).barriers = s.barriers := rfl
@[simp] theorem State.updWg_pendingArrivals (s : State) (i : Nat) (f : Workgroup → Workgroup) : (s.updWg i f).pendingArrivals = s.pendingArrivals := rfl
@[simp] theorem State.updWg_transEntries (s : State) (i : Nat) (f : Workgroup → Workgroup) : (s.updWg i f).transEntries = s.transEntries := rfl
@[simp] theorem State.updWg_images (s : State) (i : Nat) (f : Workgroup → Workgroup) : (s.updWg i f).images = s.images := rfl
@[simp] theorem State.updWg_links (s : State) (i : Nat) (f : Workgroup → Workgroup) : (s.updWg i f).links = s.links := rfl
@[simp] theorem State.updWg_asyncOps (s : State) (i : Nat) (f : Workgroup → Workgroup) : (s.updWg i f).asyncOps = s.asyncOps := rfl
@[simp] theorem State.updWg_decantOps (s : State) (i : Nat) (f : Workgroup → Workgroup) : (s.updWg i f).decantOps = s.decantOps := rfl
@[simp] theorem State.updWg_tasks (s : State) (i : Nat) (f : Workgroup → Workgroup) : (s.updWg i f).tasks = s.tasks := rfl
@[simp] theorem State.updWg_partials (s : State) (i : Nat) (f : Workgroup → Workgroup) : (s.updWg i f).partials = s.partials := rfl
@[simp] theorem State.updWg_groups (s : State) (i : Nat) (f : Workgroup → Workgroup) : (s.updWg i f).groups = s.groups := rfl
@[simp] theorem State.updWg_keys (s : State) (i : Nat) (f : Workgroup → Workgroup) : (s.updWg i f).keys = s.keys := rfl
@[simp] theorem State.updWg_tlbInvs (s : State) (i : Nat) (f : Workgroup → Workgroup) : (s.updWg i f).tlbInvs = s.tlbInvs := rfl
@[simp] theorem State.updWg_heldReds (s : State) (i : Nat) (f : Workgroup → Workgroup) : (s.updWg i f).heldReds = s.heldReds := rfl
@[simp] theorem State.updWg_backlogs (s : State) (i : Nat) (f : Workgroup → Workgroup) : (s.updWg i f).backlogs = s.backlogs := rfl
@[simp] theorem State.updWg_sups (s : State) (i : Nat) (f : Workgroup → Workgroup) : (s.updWg i f).sups = s.sups := rfl
@[simp] theorem State.updWg_completion (s : State) (i : Nat) (f : Workgroup → Workgroup) : (s.updWg i f).completion = s.completion := rfl
@[simp] theorem State.updWg_boot (s : State) (i : Nat) (f : Workgroup → Workgroup) : (s.updWg i f).boot = s.boot := rfl
@[simp] theorem State.updWg_rtime (s : State) (i : Nat) (f : Workgroup → Workgroup) : (s.updWg i f).rtime = s.rtime := rfl

/-! ## updParcel -/

@[simp] theorem State.updParcel_cur (s : State) (i : Nat) (f : Parcel → Parcel) : (s.updParcel i f).cur = s.cur := rfl
@[simp] theorem State.updParcel_others (s : State) (i : Nat) (f : Parcel → Parcel) : (s.updParcel i f).others = s.others := rfl
@[simp] theorem State.updParcel_iss (s : State) (i : Nat) (f : Parcel → Parcel) : (s.updParcel i f).iss = s.iss := rfl
@[simp] theorem State.updParcel_agenda (s : State) (i : Nat) (f : Parcel → Parcel) : (s.updParcel i f).agenda = s.agenda := rfl
@[simp] theorem State.updParcel_nextId (s : State) (i : Nat) (f : Parcel → Parcel) : (s.updParcel i f).nextId = s.nextId := rfl
@[simp] theorem State.updParcel_freeCount (s : State) (i : Nat) (f : Parcel → Parcel) : (s.updParcel i f).freeCount = s.freeCount := rfl
@[simp] theorem State.updParcel_mem (s : State) (i : Nat) (f : Parcel → Parcel) : (s.updParcel i f).mem = s.mem := rfl
@[simp] theorem State.updParcel_lineSeq (s : State) (i : Nat) (f : Parcel → Parcel) : (s.updParcel i f).lineSeq = s.lineSeq := rfl
@[simp] theorem State.updParcel_linePast (s : State) (i : Nat) (f : Parcel → Parcel) : (s.updParcel i f).linePast = s.linePast := rfl
@[simp] theorem State.updParcel_poison (s : State) (i : Nat) (f : Parcel → Parcel) : (s.updParcel i f).poison = s.poison := rfl
@[simp] theorem State.updParcel_flights (s : State) (i : Nat) (f : Parcel → Parcel) : (s.updParcel i f).flights = s.flights := rfl
@[simp] theorem State.updParcel_posts (s : State) (i : Nat) (f : Parcel → Parcel) : (s.updParcel i f).posts = s.posts := rfl
@[simp] theorem State.updParcel_cores (s : State) (i : Nat) (f : Parcel → Parcel) : (s.updParcel i f).cores = s.cores := rfl
@[simp] theorem State.updParcel_clusters (s : State) (i : Nat) (f : Parcel → Parcel) : (s.updParcel i f).clusters = s.clusters := rfl
@[simp] theorem State.updParcel_dies (s : State) (i : Nat) (f : Parcel → Parcel) : (s.updParcel i f).dies = s.dies := rfl
@[simp] theorem State.updParcel_terraces (s : State) (i : Nat) (f : Parcel → Parcel) : (s.updParcel i f).terraces = s.terraces := rfl
@[simp] theorem State.updParcel_veils (s : State) (i : Nat) (f : Parcel → Parcel) : (s.updParcel i f).veils = s.veils := rfl
@[simp] theorem State.updParcel_cellar (s : State) (i : Nat) (f : Parcel → Parcel) : (s.updParcel i f).cellar = s.cellar := rfl
@[simp] theorem State.updParcel_channels (s : State) (i : Nat) (f : Parcel → Parcel) : (s.updParcel i f).channels = s.channels := rfl
@[simp] theorem State.updParcel_workgroups (s : State) (i : Nat) (f : Parcel → Parcel) : (s.updParcel i f).workgroups = s.workgroups := rfl
@[simp] theorem State.updParcel_barriers (s : State) (i : Nat) (f : Parcel → Parcel) : (s.updParcel i f).barriers = s.barriers := rfl
@[simp] theorem State.updParcel_pendingArrivals (s : State) (i : Nat) (f : Parcel → Parcel) : (s.updParcel i f).pendingArrivals = s.pendingArrivals := rfl
@[simp] theorem State.updParcel_transEntries (s : State) (i : Nat) (f : Parcel → Parcel) : (s.updParcel i f).transEntries = s.transEntries := rfl
@[simp] theorem State.updParcel_images (s : State) (i : Nat) (f : Parcel → Parcel) : (s.updParcel i f).images = s.images := rfl
@[simp] theorem State.updParcel_links (s : State) (i : Nat) (f : Parcel → Parcel) : (s.updParcel i f).links = s.links := rfl
@[simp] theorem State.updParcel_asyncOps (s : State) (i : Nat) (f : Parcel → Parcel) : (s.updParcel i f).asyncOps = s.asyncOps := rfl
@[simp] theorem State.updParcel_decantOps (s : State) (i : Nat) (f : Parcel → Parcel) : (s.updParcel i f).decantOps = s.decantOps := rfl
@[simp] theorem State.updParcel_tasks (s : State) (i : Nat) (f : Parcel → Parcel) : (s.updParcel i f).tasks = s.tasks := rfl
@[simp] theorem State.updParcel_partials (s : State) (i : Nat) (f : Parcel → Parcel) : (s.updParcel i f).partials = s.partials := rfl
@[simp] theorem State.updParcel_groups (s : State) (i : Nat) (f : Parcel → Parcel) : (s.updParcel i f).groups = s.groups := rfl
@[simp] theorem State.updParcel_keys (s : State) (i : Nat) (f : Parcel → Parcel) : (s.updParcel i f).keys = s.keys := rfl
@[simp] theorem State.updParcel_tlbInvs (s : State) (i : Nat) (f : Parcel → Parcel) : (s.updParcel i f).tlbInvs = s.tlbInvs := rfl
@[simp] theorem State.updParcel_heldReds (s : State) (i : Nat) (f : Parcel → Parcel) : (s.updParcel i f).heldReds = s.heldReds := rfl
@[simp] theorem State.updParcel_backlogs (s : State) (i : Nat) (f : Parcel → Parcel) : (s.updParcel i f).backlogs = s.backlogs := rfl
@[simp] theorem State.updParcel_sups (s : State) (i : Nat) (f : Parcel → Parcel) : (s.updParcel i f).sups = s.sups := rfl
@[simp] theorem State.updParcel_completion (s : State) (i : Nat) (f : Parcel → Parcel) : (s.updParcel i f).completion = s.completion := rfl
@[simp] theorem State.updParcel_boot (s : State) (i : Nat) (f : Parcel → Parcel) : (s.updParcel i f).boot = s.boot := rfl
@[simp] theorem State.updParcel_rtime (s : State) (i : Nat) (f : Parcel → Parcel) : (s.updParcel i f).rtime = s.rtime := rfl

/-! ## mapCanes -/

@[simp] theorem State.mapCanes_iss (s : State) (f : Cane → Cane) : (s.mapCanes f).iss = s.iss := rfl
@[simp] theorem State.mapCanes_agenda (s : State) (f : Cane → Cane) : (s.mapCanes f).agenda = s.agenda := rfl
@[simp] theorem State.mapCanes_nextId (s : State) (f : Cane → Cane) : (s.mapCanes f).nextId = s.nextId := rfl
@[simp] theorem State.mapCanes_freeCount (s : State) (f : Cane → Cane) : (s.mapCanes f).freeCount = s.freeCount := rfl
@[simp] theorem State.mapCanes_mem (s : State) (f : Cane → Cane) : (s.mapCanes f).mem = s.mem := rfl
@[simp] theorem State.mapCanes_lineSeq (s : State) (f : Cane → Cane) : (s.mapCanes f).lineSeq = s.lineSeq := rfl
@[simp] theorem State.mapCanes_linePast (s : State) (f : Cane → Cane) : (s.mapCanes f).linePast = s.linePast := rfl
@[simp] theorem State.mapCanes_poison (s : State) (f : Cane → Cane) : (s.mapCanes f).poison = s.poison := rfl
@[simp] theorem State.mapCanes_flights (s : State) (f : Cane → Cane) : (s.mapCanes f).flights = s.flights := rfl
@[simp] theorem State.mapCanes_posts (s : State) (f : Cane → Cane) : (s.mapCanes f).posts = s.posts := rfl
@[simp] theorem State.mapCanes_cores (s : State) (f : Cane → Cane) : (s.mapCanes f).cores = s.cores := rfl
@[simp] theorem State.mapCanes_clusters (s : State) (f : Cane → Cane) : (s.mapCanes f).clusters = s.clusters := rfl
@[simp] theorem State.mapCanes_dies (s : State) (f : Cane → Cane) : (s.mapCanes f).dies = s.dies := rfl
@[simp] theorem State.mapCanes_terraces (s : State) (f : Cane → Cane) : (s.mapCanes f).terraces = s.terraces := rfl
@[simp] theorem State.mapCanes_veils (s : State) (f : Cane → Cane) : (s.mapCanes f).veils = s.veils := rfl
@[simp] theorem State.mapCanes_cellar (s : State) (f : Cane → Cane) : (s.mapCanes f).cellar = s.cellar := rfl
@[simp] theorem State.mapCanes_channels (s : State) (f : Cane → Cane) : (s.mapCanes f).channels = s.channels := rfl
@[simp] theorem State.mapCanes_workgroups (s : State) (f : Cane → Cane) : (s.mapCanes f).workgroups = s.workgroups := rfl
@[simp] theorem State.mapCanes_parcels (s : State) (f : Cane → Cane) : (s.mapCanes f).parcels = s.parcels := rfl
@[simp] theorem State.mapCanes_barriers (s : State) (f : Cane → Cane) : (s.mapCanes f).barriers = s.barriers := rfl
@[simp] theorem State.mapCanes_pendingArrivals (s : State) (f : Cane → Cane) : (s.mapCanes f).pendingArrivals = s.pendingArrivals := rfl
@[simp] theorem State.mapCanes_transEntries (s : State) (f : Cane → Cane) : (s.mapCanes f).transEntries = s.transEntries := rfl
@[simp] theorem State.mapCanes_images (s : State) (f : Cane → Cane) : (s.mapCanes f).images = s.images := rfl
@[simp] theorem State.mapCanes_links (s : State) (f : Cane → Cane) : (s.mapCanes f).links = s.links := rfl
@[simp] theorem State.mapCanes_asyncOps (s : State) (f : Cane → Cane) : (s.mapCanes f).asyncOps = s.asyncOps := rfl
@[simp] theorem State.mapCanes_decantOps (s : State) (f : Cane → Cane) : (s.mapCanes f).decantOps = s.decantOps := rfl
@[simp] theorem State.mapCanes_tasks (s : State) (f : Cane → Cane) : (s.mapCanes f).tasks = s.tasks := rfl
@[simp] theorem State.mapCanes_partials (s : State) (f : Cane → Cane) : (s.mapCanes f).partials = s.partials := rfl
@[simp] theorem State.mapCanes_groups (s : State) (f : Cane → Cane) : (s.mapCanes f).groups = s.groups := rfl
@[simp] theorem State.mapCanes_keys (s : State) (f : Cane → Cane) : (s.mapCanes f).keys = s.keys := rfl
@[simp] theorem State.mapCanes_tlbInvs (s : State) (f : Cane → Cane) : (s.mapCanes f).tlbInvs = s.tlbInvs := rfl
@[simp] theorem State.mapCanes_heldReds (s : State) (f : Cane → Cane) : (s.mapCanes f).heldReds = s.heldReds := rfl
@[simp] theorem State.mapCanes_backlogs (s : State) (f : Cane → Cane) : (s.mapCanes f).backlogs = s.backlogs := rfl
@[simp] theorem State.mapCanes_sups (s : State) (f : Cane → Cane) : (s.mapCanes f).sups = s.sups := rfl
@[simp] theorem State.mapCanes_completion (s : State) (f : Cane → Cane) : (s.mapCanes f).completion = s.completion := rfl
@[simp] theorem State.mapCanes_boot (s : State) (f : Cane → Cane) : (s.mapCanes f).boot = s.boot := rfl
@[simp] theorem State.mapCanes_rtime (s : State) (f : Cane → Cane) : (s.mapCanes f).rtime = s.rtime := rfl

/-! ## writeHome -/

@[simp] theorem State.writeHome_cur (s : State) (a : Nat) (b : Byte) : (s.writeHome a b).cur = s.cur := rfl
@[simp] theorem State.writeHome_others (s : State) (a : Nat) (b : Byte) : (s.writeHome a b).others = s.others := rfl
@[simp] theorem State.writeHome_iss (s : State) (a : Nat) (b : Byte) : (s.writeHome a b).iss = s.iss := rfl
@[simp] theorem State.writeHome_agenda (s : State) (a : Nat) (b : Byte) : (s.writeHome a b).agenda = s.agenda := rfl
@[simp] theorem State.writeHome_nextId (s : State) (a : Nat) (b : Byte) : (s.writeHome a b).nextId = s.nextId := rfl
@[simp] theorem State.writeHome_freeCount (s : State) (a : Nat) (b : Byte) : (s.writeHome a b).freeCount = s.freeCount := rfl
@[simp] theorem State.writeHome_lineSeq (s : State) (a : Nat) (b : Byte) : (s.writeHome a b).lineSeq = s.lineSeq := rfl
@[simp] theorem State.writeHome_linePast (s : State) (a : Nat) (b : Byte) : (s.writeHome a b).linePast = s.linePast := rfl
@[simp] theorem State.writeHome_poison (s : State) (a : Nat) (b : Byte) : (s.writeHome a b).poison = s.poison := rfl
@[simp] theorem State.writeHome_flights (s : State) (a : Nat) (b : Byte) : (s.writeHome a b).flights = s.flights := rfl
@[simp] theorem State.writeHome_posts (s : State) (a : Nat) (b : Byte) : (s.writeHome a b).posts = s.posts := rfl
@[simp] theorem State.writeHome_cores (s : State) (a : Nat) (b : Byte) : (s.writeHome a b).cores = s.cores := rfl
@[simp] theorem State.writeHome_clusters (s : State) (a : Nat) (b : Byte) : (s.writeHome a b).clusters = s.clusters := rfl
@[simp] theorem State.writeHome_dies (s : State) (a : Nat) (b : Byte) : (s.writeHome a b).dies = s.dies := rfl
@[simp] theorem State.writeHome_terraces (s : State) (a : Nat) (b : Byte) : (s.writeHome a b).terraces = s.terraces := rfl
@[simp] theorem State.writeHome_cellar (s : State) (a : Nat) (b : Byte) : (s.writeHome a b).cellar = s.cellar := rfl
@[simp] theorem State.writeHome_channels (s : State) (a : Nat) (b : Byte) : (s.writeHome a b).channels = s.channels := rfl
@[simp] theorem State.writeHome_workgroups (s : State) (a : Nat) (b : Byte) : (s.writeHome a b).workgroups = s.workgroups := rfl
@[simp] theorem State.writeHome_parcels (s : State) (a : Nat) (b : Byte) : (s.writeHome a b).parcels = s.parcels := rfl
@[simp] theorem State.writeHome_barriers (s : State) (a : Nat) (b : Byte) : (s.writeHome a b).barriers = s.barriers := rfl
@[simp] theorem State.writeHome_pendingArrivals (s : State) (a : Nat) (b : Byte) : (s.writeHome a b).pendingArrivals = s.pendingArrivals := rfl
@[simp] theorem State.writeHome_transEntries (s : State) (a : Nat) (b : Byte) : (s.writeHome a b).transEntries = s.transEntries := rfl
@[simp] theorem State.writeHome_images (s : State) (a : Nat) (b : Byte) : (s.writeHome a b).images = s.images := rfl
@[simp] theorem State.writeHome_links (s : State) (a : Nat) (b : Byte) : (s.writeHome a b).links = s.links := rfl
@[simp] theorem State.writeHome_asyncOps (s : State) (a : Nat) (b : Byte) : (s.writeHome a b).asyncOps = s.asyncOps := rfl
@[simp] theorem State.writeHome_decantOps (s : State) (a : Nat) (b : Byte) : (s.writeHome a b).decantOps = s.decantOps := rfl
@[simp] theorem State.writeHome_tasks (s : State) (a : Nat) (b : Byte) : (s.writeHome a b).tasks = s.tasks := rfl
@[simp] theorem State.writeHome_partials (s : State) (a : Nat) (b : Byte) : (s.writeHome a b).partials = s.partials := rfl
@[simp] theorem State.writeHome_groups (s : State) (a : Nat) (b : Byte) : (s.writeHome a b).groups = s.groups := rfl
@[simp] theorem State.writeHome_keys (s : State) (a : Nat) (b : Byte) : (s.writeHome a b).keys = s.keys := rfl
@[simp] theorem State.writeHome_tlbInvs (s : State) (a : Nat) (b : Byte) : (s.writeHome a b).tlbInvs = s.tlbInvs := rfl
@[simp] theorem State.writeHome_heldReds (s : State) (a : Nat) (b : Byte) : (s.writeHome a b).heldReds = s.heldReds := rfl
@[simp] theorem State.writeHome_backlogs (s : State) (a : Nat) (b : Byte) : (s.writeHome a b).backlogs = s.backlogs := rfl
@[simp] theorem State.writeHome_sups (s : State) (a : Nat) (b : Byte) : (s.writeHome a b).sups = s.sups := rfl
@[simp] theorem State.writeHome_completion (s : State) (a : Nat) (b : Byte) : (s.writeHome a b).completion = s.completion := rfl
@[simp] theorem State.writeHome_boot (s : State) (a : Nat) (b : Byte) : (s.writeHome a b).boot = s.boot := rfl
@[simp] theorem State.writeHome_rtime (s : State) (a : Nat) (b : Byte) : (s.writeHome a b).rtime = s.rtime := rfl

/-! ## passTime -/

@[simp] theorem State.passTime_cur (s : State) (n : Nat) : (s.passTime n).cur = s.cur := rfl
@[simp] theorem State.passTime_others (s : State) (n : Nat) : (s.passTime n).others = s.others := rfl
@[simp] theorem State.passTime_iss (s : State) (n : Nat) : (s.passTime n).iss = s.iss := rfl
@[simp] theorem State.passTime_agenda (s : State) (n : Nat) : (s.passTime n).agenda = s.agenda := rfl
@[simp] theorem State.passTime_nextId (s : State) (n : Nat) : (s.passTime n).nextId = s.nextId := rfl
@[simp] theorem State.passTime_mem (s : State) (n : Nat) : (s.passTime n).mem = s.mem := rfl
@[simp] theorem State.passTime_lineSeq (s : State) (n : Nat) : (s.passTime n).lineSeq = s.lineSeq := rfl
@[simp] theorem State.passTime_linePast (s : State) (n : Nat) : (s.passTime n).linePast = s.linePast := rfl
@[simp] theorem State.passTime_poison (s : State) (n : Nat) : (s.passTime n).poison = s.poison := rfl
@[simp] theorem State.passTime_flights (s : State) (n : Nat) : (s.passTime n).flights = s.flights := rfl
@[simp] theorem State.passTime_posts (s : State) (n : Nat) : (s.passTime n).posts = s.posts := rfl
@[simp] theorem State.passTime_cores (s : State) (n : Nat) : (s.passTime n).cores = s.cores := rfl
@[simp] theorem State.passTime_dies (s : State) (n : Nat) : (s.passTime n).dies = s.dies := rfl
@[simp] theorem State.passTime_veils (s : State) (n : Nat) : (s.passTime n).veils = s.veils := rfl
@[simp] theorem State.passTime_cellar (s : State) (n : Nat) : (s.passTime n).cellar = s.cellar := rfl
@[simp] theorem State.passTime_channels (s : State) (n : Nat) : (s.passTime n).channels = s.channels := rfl
@[simp] theorem State.passTime_workgroups (s : State) (n : Nat) : (s.passTime n).workgroups = s.workgroups := rfl
@[simp] theorem State.passTime_parcels (s : State) (n : Nat) : (s.passTime n).parcels = s.parcels := rfl
@[simp] theorem State.passTime_barriers (s : State) (n : Nat) : (s.passTime n).barriers = s.barriers := rfl
@[simp] theorem State.passTime_pendingArrivals (s : State) (n : Nat) : (s.passTime n).pendingArrivals = s.pendingArrivals := rfl
@[simp] theorem State.passTime_transEntries (s : State) (n : Nat) : (s.passTime n).transEntries = s.transEntries := rfl
@[simp] theorem State.passTime_images (s : State) (n : Nat) : (s.passTime n).images = s.images := rfl
@[simp] theorem State.passTime_links (s : State) (n : Nat) : (s.passTime n).links = s.links := rfl
@[simp] theorem State.passTime_asyncOps (s : State) (n : Nat) : (s.passTime n).asyncOps = s.asyncOps := rfl
@[simp] theorem State.passTime_decantOps (s : State) (n : Nat) : (s.passTime n).decantOps = s.decantOps := rfl
@[simp] theorem State.passTime_tasks (s : State) (n : Nat) : (s.passTime n).tasks = s.tasks := rfl
@[simp] theorem State.passTime_partials (s : State) (n : Nat) : (s.passTime n).partials = s.partials := rfl
@[simp] theorem State.passTime_groups (s : State) (n : Nat) : (s.passTime n).groups = s.groups := rfl
@[simp] theorem State.passTime_keys (s : State) (n : Nat) : (s.passTime n).keys = s.keys := rfl
@[simp] theorem State.passTime_tlbInvs (s : State) (n : Nat) : (s.passTime n).tlbInvs = s.tlbInvs := rfl
@[simp] theorem State.passTime_heldReds (s : State) (n : Nat) : (s.passTime n).heldReds = s.heldReds := rfl
@[simp] theorem State.passTime_backlogs (s : State) (n : Nat) : (s.passTime n).backlogs = s.backlogs := rfl
@[simp] theorem State.passTime_sups (s : State) (n : Nat) : (s.passTime n).sups = s.sups := rfl
@[simp] theorem State.passTime_completion (s : State) (n : Nat) : (s.passTime n).completion = s.completion := rfl
@[simp] theorem State.passTime_boot (s : State) (n : Nat) : (s.passTime n).boot = s.boot := rfl

/-! ## charge -/

@[simp] theorem State.charge_cur (s : State) (v u b : Nat) : (s.charge v u b).cur = s.cur := rfl
@[simp] theorem State.charge_others (s : State) (v u b : Nat) : (s.charge v u b).others = s.others := rfl
@[simp] theorem State.charge_iss (s : State) (v u b : Nat) : (s.charge v u b).iss = s.iss := rfl
@[simp] theorem State.charge_agenda (s : State) (v u b : Nat) : (s.charge v u b).agenda = s.agenda := rfl
@[simp] theorem State.charge_nextId (s : State) (v u b : Nat) : (s.charge v u b).nextId = s.nextId := rfl
@[simp] theorem State.charge_freeCount (s : State) (v u b : Nat) : (s.charge v u b).freeCount = s.freeCount := rfl
@[simp] theorem State.charge_mem (s : State) (v u b : Nat) : (s.charge v u b).mem = s.mem := rfl
@[simp] theorem State.charge_lineSeq (s : State) (v u b : Nat) : (s.charge v u b).lineSeq = s.lineSeq := rfl
@[simp] theorem State.charge_linePast (s : State) (v u b : Nat) : (s.charge v u b).linePast = s.linePast := rfl
@[simp] theorem State.charge_poison (s : State) (v u b : Nat) : (s.charge v u b).poison = s.poison := rfl
@[simp] theorem State.charge_flights (s : State) (v u b : Nat) : (s.charge v u b).flights = s.flights := rfl
@[simp] theorem State.charge_posts (s : State) (v u b : Nat) : (s.charge v u b).posts = s.posts := rfl
@[simp] theorem State.charge_dies (s : State) (v u b : Nat) : (s.charge v u b).dies = s.dies := rfl
@[simp] theorem State.charge_terraces (s : State) (v u b : Nat) : (s.charge v u b).terraces = s.terraces := rfl
@[simp] theorem State.charge_veils (s : State) (v u b : Nat) : (s.charge v u b).veils = s.veils := rfl
@[simp] theorem State.charge_cellar (s : State) (v u b : Nat) : (s.charge v u b).cellar = s.cellar := rfl
@[simp] theorem State.charge_channels (s : State) (v u b : Nat) : (s.charge v u b).channels = s.channels := rfl
@[simp] theorem State.charge_workgroups (s : State) (v u b : Nat) : (s.charge v u b).workgroups = s.workgroups := rfl
@[simp] theorem State.charge_parcels (s : State) (v u b : Nat) : (s.charge v u b).parcels = s.parcels := rfl
@[simp] theorem State.charge_barriers (s : State) (v u b : Nat) : (s.charge v u b).barriers = s.barriers := rfl
@[simp] theorem State.charge_pendingArrivals (s : State) (v u b : Nat) : (s.charge v u b).pendingArrivals = s.pendingArrivals := rfl
@[simp] theorem State.charge_transEntries (s : State) (v u b : Nat) : (s.charge v u b).transEntries = s.transEntries := rfl
@[simp] theorem State.charge_images (s : State) (v u b : Nat) : (s.charge v u b).images = s.images := rfl
@[simp] theorem State.charge_links (s : State) (v u b : Nat) : (s.charge v u b).links = s.links := rfl
@[simp] theorem State.charge_asyncOps (s : State) (v u b : Nat) : (s.charge v u b).asyncOps = s.asyncOps := rfl
@[simp] theorem State.charge_decantOps (s : State) (v u b : Nat) : (s.charge v u b).decantOps = s.decantOps := rfl
@[simp] theorem State.charge_tasks (s : State) (v u b : Nat) : (s.charge v u b).tasks = s.tasks := rfl
@[simp] theorem State.charge_partials (s : State) (v u b : Nat) : (s.charge v u b).partials = s.partials := rfl
@[simp] theorem State.charge_groups (s : State) (v u b : Nat) : (s.charge v u b).groups = s.groups := rfl
@[simp] theorem State.charge_keys (s : State) (v u b : Nat) : (s.charge v u b).keys = s.keys := rfl
@[simp] theorem State.charge_tlbInvs (s : State) (v u b : Nat) : (s.charge v u b).tlbInvs = s.tlbInvs := rfl
@[simp] theorem State.charge_heldReds (s : State) (v u b : Nat) : (s.charge v u b).heldReds = s.heldReds := rfl
@[simp] theorem State.charge_backlogs (s : State) (v u b : Nat) : (s.charge v u b).backlogs = s.backlogs := rfl
@[simp] theorem State.charge_sups (s : State) (v u b : Nat) : (s.charge v u b).sups = s.sups := rfl
@[simp] theorem State.charge_completion (s : State) (v u b : Nat) : (s.charge v u b).completion = s.completion := rfl
@[simp] theorem State.charge_boot (s : State) (v u b : Nat) : (s.charge v u b).boot = s.boot := rfl
@[simp] theorem State.charge_rtime (s : State) (v u b : Nat) : (s.charge v u b).rtime = s.rtime := rfl

/-! ## passCycles -/

@[simp] theorem State.passCycles_cur (s : State) (k n : Nat) : (s.passCycles k n).cur = s.cur := rfl
@[simp] theorem State.passCycles_others (s : State) (k n : Nat) : (s.passCycles k n).others = s.others := rfl
@[simp] theorem State.passCycles_iss (s : State) (k n : Nat) : (s.passCycles k n).iss = s.iss := rfl
@[simp] theorem State.passCycles_agenda (s : State) (k n : Nat) : (s.passCycles k n).agenda = s.agenda := rfl
@[simp] theorem State.passCycles_nextId (s : State) (k n : Nat) : (s.passCycles k n).nextId = s.nextId := rfl
@[simp] theorem State.passCycles_freeCount (s : State) (k n : Nat) : (s.passCycles k n).freeCount = s.freeCount := rfl
@[simp] theorem State.passCycles_mem (s : State) (k n : Nat) : (s.passCycles k n).mem = s.mem := rfl
@[simp] theorem State.passCycles_lineSeq (s : State) (k n : Nat) : (s.passCycles k n).lineSeq = s.lineSeq := rfl
@[simp] theorem State.passCycles_linePast (s : State) (k n : Nat) : (s.passCycles k n).linePast = s.linePast := rfl
@[simp] theorem State.passCycles_poison (s : State) (k n : Nat) : (s.passCycles k n).poison = s.poison := rfl
@[simp] theorem State.passCycles_flights (s : State) (k n : Nat) : (s.passCycles k n).flights = s.flights := rfl
@[simp] theorem State.passCycles_posts (s : State) (k n : Nat) : (s.passCycles k n).posts = s.posts := rfl
@[simp] theorem State.passCycles_dies (s : State) (k n : Nat) : (s.passCycles k n).dies = s.dies := rfl
@[simp] theorem State.passCycles_terraces (s : State) (k n : Nat) : (s.passCycles k n).terraces = s.terraces := rfl
@[simp] theorem State.passCycles_veils (s : State) (k n : Nat) : (s.passCycles k n).veils = s.veils := rfl
@[simp] theorem State.passCycles_cellar (s : State) (k n : Nat) : (s.passCycles k n).cellar = s.cellar := rfl
@[simp] theorem State.passCycles_channels (s : State) (k n : Nat) : (s.passCycles k n).channels = s.channels := rfl
@[simp] theorem State.passCycles_workgroups (s : State) (k n : Nat) : (s.passCycles k n).workgroups = s.workgroups := rfl
@[simp] theorem State.passCycles_parcels (s : State) (k n : Nat) : (s.passCycles k n).parcels = s.parcels := rfl
@[simp] theorem State.passCycles_barriers (s : State) (k n : Nat) : (s.passCycles k n).barriers = s.barriers := rfl
@[simp] theorem State.passCycles_pendingArrivals (s : State) (k n : Nat) : (s.passCycles k n).pendingArrivals = s.pendingArrivals := rfl
@[simp] theorem State.passCycles_transEntries (s : State) (k n : Nat) : (s.passCycles k n).transEntries = s.transEntries := rfl
@[simp] theorem State.passCycles_images (s : State) (k n : Nat) : (s.passCycles k n).images = s.images := rfl
@[simp] theorem State.passCycles_links (s : State) (k n : Nat) : (s.passCycles k n).links = s.links := rfl
@[simp] theorem State.passCycles_asyncOps (s : State) (k n : Nat) : (s.passCycles k n).asyncOps = s.asyncOps := rfl
@[simp] theorem State.passCycles_decantOps (s : State) (k n : Nat) : (s.passCycles k n).decantOps = s.decantOps := rfl
@[simp] theorem State.passCycles_tasks (s : State) (k n : Nat) : (s.passCycles k n).tasks = s.tasks := rfl
@[simp] theorem State.passCycles_partials (s : State) (k n : Nat) : (s.passCycles k n).partials = s.partials := rfl
@[simp] theorem State.passCycles_groups (s : State) (k n : Nat) : (s.passCycles k n).groups = s.groups := rfl
@[simp] theorem State.passCycles_keys (s : State) (k n : Nat) : (s.passCycles k n).keys = s.keys := rfl
@[simp] theorem State.passCycles_tlbInvs (s : State) (k n : Nat) : (s.passCycles k n).tlbInvs = s.tlbInvs := rfl
@[simp] theorem State.passCycles_heldReds (s : State) (k n : Nat) : (s.passCycles k n).heldReds = s.heldReds := rfl
@[simp] theorem State.passCycles_backlogs (s : State) (k n : Nat) : (s.passCycles k n).backlogs = s.backlogs := rfl
@[simp] theorem State.passCycles_sups (s : State) (k n : Nat) : (s.passCycles k n).sups = s.sups := rfl
@[simp] theorem State.passCycles_completion (s : State) (k n : Nat) : (s.passCycles k n).completion = s.completion := rfl
@[simp] theorem State.passCycles_boot (s : State) (k n : Nat) : (s.passCycles k n).boot = s.boot := rfl
@[simp] theorem State.passCycles_rtime (s : State) (k n : Nat) : (s.passCycles k n).rtime = s.rtime := rfl

/-! ## goTo -/

@[simp] theorem State.goTo_others (s : State) (m : Marks) (pc : Dword) : (s.goTo m pc).others = s.others := rfl
@[simp] theorem State.goTo_iss (s : State) (m : Marks) (pc : Dword) : (s.goTo m pc).iss = s.iss := rfl
@[simp] theorem State.goTo_agenda (s : State) (m : Marks) (pc : Dword) : (s.goTo m pc).agenda = s.agenda := rfl
@[simp] theorem State.goTo_nextId (s : State) (m : Marks) (pc : Dword) : (s.goTo m pc).nextId = s.nextId := rfl
@[simp] theorem State.goTo_freeCount (s : State) (m : Marks) (pc : Dword) : (s.goTo m pc).freeCount = s.freeCount := rfl
@[simp] theorem State.goTo_mem (s : State) (m : Marks) (pc : Dword) : (s.goTo m pc).mem = s.mem := rfl
@[simp] theorem State.goTo_lineSeq (s : State) (m : Marks) (pc : Dword) : (s.goTo m pc).lineSeq = s.lineSeq := rfl
@[simp] theorem State.goTo_linePast (s : State) (m : Marks) (pc : Dword) : (s.goTo m pc).linePast = s.linePast := rfl
@[simp] theorem State.goTo_poison (s : State) (m : Marks) (pc : Dword) : (s.goTo m pc).poison = s.poison := rfl
@[simp] theorem State.goTo_flights (s : State) (m : Marks) (pc : Dword) : (s.goTo m pc).flights = s.flights := rfl
@[simp] theorem State.goTo_posts (s : State) (m : Marks) (pc : Dword) : (s.goTo m pc).posts = s.posts := rfl
@[simp] theorem State.goTo_cores (s : State) (m : Marks) (pc : Dword) : (s.goTo m pc).cores = s.cores := rfl
@[simp] theorem State.goTo_clusters (s : State) (m : Marks) (pc : Dword) : (s.goTo m pc).clusters = s.clusters := rfl
@[simp] theorem State.goTo_dies (s : State) (m : Marks) (pc : Dword) : (s.goTo m pc).dies = s.dies := rfl
@[simp] theorem State.goTo_terraces (s : State) (m : Marks) (pc : Dword) : (s.goTo m pc).terraces = s.terraces := rfl
@[simp] theorem State.goTo_veils (s : State) (m : Marks) (pc : Dword) : (s.goTo m pc).veils = s.veils := rfl
@[simp] theorem State.goTo_cellar (s : State) (m : Marks) (pc : Dword) : (s.goTo m pc).cellar = s.cellar := rfl
@[simp] theorem State.goTo_channels (s : State) (m : Marks) (pc : Dword) : (s.goTo m pc).channels = s.channels := rfl
@[simp] theorem State.goTo_workgroups (s : State) (m : Marks) (pc : Dword) : (s.goTo m pc).workgroups = s.workgroups := rfl
@[simp] theorem State.goTo_parcels (s : State) (m : Marks) (pc : Dword) : (s.goTo m pc).parcels = s.parcels := rfl
@[simp] theorem State.goTo_barriers (s : State) (m : Marks) (pc : Dword) : (s.goTo m pc).barriers = s.barriers := rfl
@[simp] theorem State.goTo_pendingArrivals (s : State) (m : Marks) (pc : Dword) : (s.goTo m pc).pendingArrivals = s.pendingArrivals := rfl
@[simp] theorem State.goTo_transEntries (s : State) (m : Marks) (pc : Dword) : (s.goTo m pc).transEntries = s.transEntries := rfl
@[simp] theorem State.goTo_images (s : State) (m : Marks) (pc : Dword) : (s.goTo m pc).images = s.images := rfl
@[simp] theorem State.goTo_links (s : State) (m : Marks) (pc : Dword) : (s.goTo m pc).links = s.links := rfl
@[simp] theorem State.goTo_asyncOps (s : State) (m : Marks) (pc : Dword) : (s.goTo m pc).asyncOps = s.asyncOps := rfl
@[simp] theorem State.goTo_decantOps (s : State) (m : Marks) (pc : Dword) : (s.goTo m pc).decantOps = s.decantOps := rfl
@[simp] theorem State.goTo_tasks (s : State) (m : Marks) (pc : Dword) : (s.goTo m pc).tasks = s.tasks := rfl
@[simp] theorem State.goTo_partials (s : State) (m : Marks) (pc : Dword) : (s.goTo m pc).partials = s.partials := rfl
@[simp] theorem State.goTo_groups (s : State) (m : Marks) (pc : Dword) : (s.goTo m pc).groups = s.groups := rfl
@[simp] theorem State.goTo_keys (s : State) (m : Marks) (pc : Dword) : (s.goTo m pc).keys = s.keys := rfl
@[simp] theorem State.goTo_tlbInvs (s : State) (m : Marks) (pc : Dword) : (s.goTo m pc).tlbInvs = s.tlbInvs := rfl
@[simp] theorem State.goTo_heldReds (s : State) (m : Marks) (pc : Dword) : (s.goTo m pc).heldReds = s.heldReds := rfl
@[simp] theorem State.goTo_backlogs (s : State) (m : Marks) (pc : Dword) : (s.goTo m pc).backlogs = s.backlogs := rfl
@[simp] theorem State.goTo_sups (s : State) (m : Marks) (pc : Dword) : (s.goTo m pc).sups = s.sups := rfl
@[simp] theorem State.goTo_completion (s : State) (m : Marks) (pc : Dword) : (s.goTo m pc).completion = s.completion := rfl
@[simp] theorem State.goTo_boot (s : State) (m : Marks) (pc : Dword) : (s.goTo m pc).boot = s.boot := rfl
@[simp] theorem State.goTo_rtime (s : State) (m : Marks) (pc : Dword) : (s.goTo m pc).rtime = s.rtime := rfl

/-! ## finish -/

@[simp] theorem State.finish_others (s : State) (m : Marks) : (s.finish m).others = s.others := rfl
@[simp] theorem State.finish_iss (s : State) (m : Marks) : (s.finish m).iss = s.iss := rfl
@[simp] theorem State.finish_agenda (s : State) (m : Marks) : (s.finish m).agenda = s.agenda := rfl
@[simp] theorem State.finish_nextId (s : State) (m : Marks) : (s.finish m).nextId = s.nextId := rfl
@[simp] theorem State.finish_freeCount (s : State) (m : Marks) : (s.finish m).freeCount = s.freeCount := rfl
@[simp] theorem State.finish_mem (s : State) (m : Marks) : (s.finish m).mem = s.mem := rfl
@[simp] theorem State.finish_lineSeq (s : State) (m : Marks) : (s.finish m).lineSeq = s.lineSeq := rfl
@[simp] theorem State.finish_linePast (s : State) (m : Marks) : (s.finish m).linePast = s.linePast := rfl
@[simp] theorem State.finish_poison (s : State) (m : Marks) : (s.finish m).poison = s.poison := rfl
@[simp] theorem State.finish_flights (s : State) (m : Marks) : (s.finish m).flights = s.flights := rfl
@[simp] theorem State.finish_posts (s : State) (m : Marks) : (s.finish m).posts = s.posts := rfl
@[simp] theorem State.finish_cores (s : State) (m : Marks) : (s.finish m).cores = s.cores := rfl
@[simp] theorem State.finish_clusters (s : State) (m : Marks) : (s.finish m).clusters = s.clusters := rfl
@[simp] theorem State.finish_dies (s : State) (m : Marks) : (s.finish m).dies = s.dies := rfl
@[simp] theorem State.finish_terraces (s : State) (m : Marks) : (s.finish m).terraces = s.terraces := rfl
@[simp] theorem State.finish_veils (s : State) (m : Marks) : (s.finish m).veils = s.veils := rfl
@[simp] theorem State.finish_cellar (s : State) (m : Marks) : (s.finish m).cellar = s.cellar := rfl
@[simp] theorem State.finish_channels (s : State) (m : Marks) : (s.finish m).channels = s.channels := rfl
@[simp] theorem State.finish_workgroups (s : State) (m : Marks) : (s.finish m).workgroups = s.workgroups := rfl
@[simp] theorem State.finish_parcels (s : State) (m : Marks) : (s.finish m).parcels = s.parcels := rfl
@[simp] theorem State.finish_barriers (s : State) (m : Marks) : (s.finish m).barriers = s.barriers := rfl
@[simp] theorem State.finish_pendingArrivals (s : State) (m : Marks) : (s.finish m).pendingArrivals = s.pendingArrivals := rfl
@[simp] theorem State.finish_transEntries (s : State) (m : Marks) : (s.finish m).transEntries = s.transEntries := rfl
@[simp] theorem State.finish_images (s : State) (m : Marks) : (s.finish m).images = s.images := rfl
@[simp] theorem State.finish_links (s : State) (m : Marks) : (s.finish m).links = s.links := rfl
@[simp] theorem State.finish_asyncOps (s : State) (m : Marks) : (s.finish m).asyncOps = s.asyncOps := rfl
@[simp] theorem State.finish_decantOps (s : State) (m : Marks) : (s.finish m).decantOps = s.decantOps := rfl
@[simp] theorem State.finish_tasks (s : State) (m : Marks) : (s.finish m).tasks = s.tasks := rfl
@[simp] theorem State.finish_partials (s : State) (m : Marks) : (s.finish m).partials = s.partials := rfl
@[simp] theorem State.finish_groups (s : State) (m : Marks) : (s.finish m).groups = s.groups := rfl
@[simp] theorem State.finish_keys (s : State) (m : Marks) : (s.finish m).keys = s.keys := rfl
@[simp] theorem State.finish_tlbInvs (s : State) (m : Marks) : (s.finish m).tlbInvs = s.tlbInvs := rfl
@[simp] theorem State.finish_heldReds (s : State) (m : Marks) : (s.finish m).heldReds = s.heldReds := rfl
@[simp] theorem State.finish_backlogs (s : State) (m : Marks) : (s.finish m).backlogs = s.backlogs := rfl
@[simp] theorem State.finish_sups (s : State) (m : Marks) : (s.finish m).sups = s.sups := rfl
@[simp] theorem State.finish_completion (s : State) (m : Marks) : (s.finish m).completion = s.completion := rfl
@[simp] theorem State.finish_boot (s : State) (m : Marks) : (s.finish m).boot = s.boot := rfl
@[simp] theorem State.finish_rtime (s : State) (m : Marks) : (s.finish m).rtime = s.rtime := rfl

/-! ## finishOnce -/

@[simp] theorem State.finishOnce_others (s : State) (m : Marks) : (s.finishOnce m).others = s.others := rfl
@[simp] theorem State.finishOnce_iss (s : State) (m : Marks) : (s.finishOnce m).iss = s.iss := rfl
@[simp] theorem State.finishOnce_agenda (s : State) (m : Marks) : (s.finishOnce m).agenda = s.agenda := rfl
@[simp] theorem State.finishOnce_nextId (s : State) (m : Marks) : (s.finishOnce m).nextId = s.nextId := rfl
@[simp] theorem State.finishOnce_freeCount (s : State) (m : Marks) : (s.finishOnce m).freeCount = s.freeCount := rfl
@[simp] theorem State.finishOnce_mem (s : State) (m : Marks) : (s.finishOnce m).mem = s.mem := rfl
@[simp] theorem State.finishOnce_lineSeq (s : State) (m : Marks) : (s.finishOnce m).lineSeq = s.lineSeq := rfl
@[simp] theorem State.finishOnce_linePast (s : State) (m : Marks) : (s.finishOnce m).linePast = s.linePast := rfl
@[simp] theorem State.finishOnce_poison (s : State) (m : Marks) : (s.finishOnce m).poison = s.poison := rfl
@[simp] theorem State.finishOnce_flights (s : State) (m : Marks) : (s.finishOnce m).flights = s.flights := rfl
@[simp] theorem State.finishOnce_posts (s : State) (m : Marks) : (s.finishOnce m).posts = s.posts := rfl
@[simp] theorem State.finishOnce_dies (s : State) (m : Marks) : (s.finishOnce m).dies = s.dies := rfl
@[simp] theorem State.finishOnce_terraces (s : State) (m : Marks) : (s.finishOnce m).terraces = s.terraces := rfl
@[simp] theorem State.finishOnce_veils (s : State) (m : Marks) : (s.finishOnce m).veils = s.veils := rfl
@[simp] theorem State.finishOnce_cellar (s : State) (m : Marks) : (s.finishOnce m).cellar = s.cellar := rfl
@[simp] theorem State.finishOnce_channels (s : State) (m : Marks) : (s.finishOnce m).channels = s.channels := rfl
@[simp] theorem State.finishOnce_workgroups (s : State) (m : Marks) : (s.finishOnce m).workgroups = s.workgroups := rfl
@[simp] theorem State.finishOnce_parcels (s : State) (m : Marks) : (s.finishOnce m).parcels = s.parcels := rfl
@[simp] theorem State.finishOnce_barriers (s : State) (m : Marks) : (s.finishOnce m).barriers = s.barriers := rfl
@[simp] theorem State.finishOnce_pendingArrivals (s : State) (m : Marks) : (s.finishOnce m).pendingArrivals = s.pendingArrivals := rfl
@[simp] theorem State.finishOnce_transEntries (s : State) (m : Marks) : (s.finishOnce m).transEntries = s.transEntries := rfl
@[simp] theorem State.finishOnce_images (s : State) (m : Marks) : (s.finishOnce m).images = s.images := rfl
@[simp] theorem State.finishOnce_links (s : State) (m : Marks) : (s.finishOnce m).links = s.links := rfl
@[simp] theorem State.finishOnce_asyncOps (s : State) (m : Marks) : (s.finishOnce m).asyncOps = s.asyncOps := rfl
@[simp] theorem State.finishOnce_decantOps (s : State) (m : Marks) : (s.finishOnce m).decantOps = s.decantOps := rfl
@[simp] theorem State.finishOnce_tasks (s : State) (m : Marks) : (s.finishOnce m).tasks = s.tasks := rfl
@[simp] theorem State.finishOnce_partials (s : State) (m : Marks) : (s.finishOnce m).partials = s.partials := rfl
@[simp] theorem State.finishOnce_groups (s : State) (m : Marks) : (s.finishOnce m).groups = s.groups := rfl
@[simp] theorem State.finishOnce_keys (s : State) (m : Marks) : (s.finishOnce m).keys = s.keys := rfl
@[simp] theorem State.finishOnce_tlbInvs (s : State) (m : Marks) : (s.finishOnce m).tlbInvs = s.tlbInvs := rfl
@[simp] theorem State.finishOnce_heldReds (s : State) (m : Marks) : (s.finishOnce m).heldReds = s.heldReds := rfl
@[simp] theorem State.finishOnce_backlogs (s : State) (m : Marks) : (s.finishOnce m).backlogs = s.backlogs := rfl
@[simp] theorem State.finishOnce_sups (s : State) (m : Marks) : (s.finishOnce m).sups = s.sups := rfl
@[simp] theorem State.finishOnce_completion (s : State) (m : Marks) : (s.finishOnce m).completion = s.completion := rfl
@[simp] theorem State.finishOnce_boot (s : State) (m : Marks) : (s.finishOnce m).boot = s.boot := rfl
@[simp] theorem State.finishOnce_rtime (s : State) (m : Marks) : (s.finishOnce m).rtime = s.rtime := rfl

/-! ## park -/

@[simp] theorem State.park_others (s : State) (w : Wait) : (s.park w).others = s.others := rfl
@[simp] theorem State.park_iss (s : State) (w : Wait) : (s.park w).iss = s.iss := rfl
@[simp] theorem State.park_agenda (s : State) (w : Wait) : (s.park w).agenda = s.agenda := rfl
@[simp] theorem State.park_nextId (s : State) (w : Wait) : (s.park w).nextId = s.nextId := rfl
@[simp] theorem State.park_freeCount (s : State) (w : Wait) : (s.park w).freeCount = s.freeCount := rfl
@[simp] theorem State.park_mem (s : State) (w : Wait) : (s.park w).mem = s.mem := rfl
@[simp] theorem State.park_lineSeq (s : State) (w : Wait) : (s.park w).lineSeq = s.lineSeq := rfl
@[simp] theorem State.park_linePast (s : State) (w : Wait) : (s.park w).linePast = s.linePast := rfl
@[simp] theorem State.park_poison (s : State) (w : Wait) : (s.park w).poison = s.poison := rfl
@[simp] theorem State.park_flights (s : State) (w : Wait) : (s.park w).flights = s.flights := rfl
@[simp] theorem State.park_posts (s : State) (w : Wait) : (s.park w).posts = s.posts := rfl
@[simp] theorem State.park_cores (s : State) (w : Wait) : (s.park w).cores = s.cores := rfl
@[simp] theorem State.park_clusters (s : State) (w : Wait) : (s.park w).clusters = s.clusters := rfl
@[simp] theorem State.park_dies (s : State) (w : Wait) : (s.park w).dies = s.dies := rfl
@[simp] theorem State.park_terraces (s : State) (w : Wait) : (s.park w).terraces = s.terraces := rfl
@[simp] theorem State.park_veils (s : State) (w : Wait) : (s.park w).veils = s.veils := rfl
@[simp] theorem State.park_cellar (s : State) (w : Wait) : (s.park w).cellar = s.cellar := rfl
@[simp] theorem State.park_channels (s : State) (w : Wait) : (s.park w).channels = s.channels := rfl
@[simp] theorem State.park_workgroups (s : State) (w : Wait) : (s.park w).workgroups = s.workgroups := rfl
@[simp] theorem State.park_parcels (s : State) (w : Wait) : (s.park w).parcels = s.parcels := rfl
@[simp] theorem State.park_barriers (s : State) (w : Wait) : (s.park w).barriers = s.barriers := rfl
@[simp] theorem State.park_pendingArrivals (s : State) (w : Wait) : (s.park w).pendingArrivals = s.pendingArrivals := rfl
@[simp] theorem State.park_transEntries (s : State) (w : Wait) : (s.park w).transEntries = s.transEntries := rfl
@[simp] theorem State.park_images (s : State) (w : Wait) : (s.park w).images = s.images := rfl
@[simp] theorem State.park_links (s : State) (w : Wait) : (s.park w).links = s.links := rfl
@[simp] theorem State.park_asyncOps (s : State) (w : Wait) : (s.park w).asyncOps = s.asyncOps := rfl
@[simp] theorem State.park_decantOps (s : State) (w : Wait) : (s.park w).decantOps = s.decantOps := rfl
@[simp] theorem State.park_tasks (s : State) (w : Wait) : (s.park w).tasks = s.tasks := rfl
@[simp] theorem State.park_partials (s : State) (w : Wait) : (s.park w).partials = s.partials := rfl
@[simp] theorem State.park_groups (s : State) (w : Wait) : (s.park w).groups = s.groups := rfl
@[simp] theorem State.park_keys (s : State) (w : Wait) : (s.park w).keys = s.keys := rfl
@[simp] theorem State.park_tlbInvs (s : State) (w : Wait) : (s.park w).tlbInvs = s.tlbInvs := rfl
@[simp] theorem State.park_heldReds (s : State) (w : Wait) : (s.park w).heldReds = s.heldReds := rfl
@[simp] theorem State.park_backlogs (s : State) (w : Wait) : (s.park w).backlogs = s.backlogs := rfl
@[simp] theorem State.park_sups (s : State) (w : Wait) : (s.park w).sups = s.sups := rfl
@[simp] theorem State.park_completion (s : State) (w : Wait) : (s.park w).completion = s.completion := rfl
@[simp] theorem State.park_boot (s : State) (w : Wait) : (s.park w).boot = s.boot := rfl
@[simp] theorem State.park_rtime (s : State) (w : Wait) : (s.park w).rtime = s.rtime := rfl

/-! ## enterHandler -/

@[simp] theorem State.enterHandler_others (s : State) (c : Cause) (x : Word) : (s.enterHandler c x).others = s.others := rfl
@[simp] theorem State.enterHandler_iss (s : State) (c : Cause) (x : Word) : (s.enterHandler c x).iss = s.iss := rfl
@[simp] theorem State.enterHandler_agenda (s : State) (c : Cause) (x : Word) : (s.enterHandler c x).agenda = s.agenda := rfl
@[simp] theorem State.enterHandler_nextId (s : State) (c : Cause) (x : Word) : (s.enterHandler c x).nextId = s.nextId := rfl
@[simp] theorem State.enterHandler_freeCount (s : State) (c : Cause) (x : Word) : (s.enterHandler c x).freeCount = s.freeCount := rfl
@[simp] theorem State.enterHandler_mem (s : State) (c : Cause) (x : Word) : (s.enterHandler c x).mem = s.mem := rfl
@[simp] theorem State.enterHandler_lineSeq (s : State) (c : Cause) (x : Word) : (s.enterHandler c x).lineSeq = s.lineSeq := rfl
@[simp] theorem State.enterHandler_linePast (s : State) (c : Cause) (x : Word) : (s.enterHandler c x).linePast = s.linePast := rfl
@[simp] theorem State.enterHandler_poison (s : State) (c : Cause) (x : Word) : (s.enterHandler c x).poison = s.poison := rfl
@[simp] theorem State.enterHandler_flights (s : State) (c : Cause) (x : Word) : (s.enterHandler c x).flights = s.flights := rfl
@[simp] theorem State.enterHandler_posts (s : State) (c : Cause) (x : Word) : (s.enterHandler c x).posts = s.posts := rfl
@[simp] theorem State.enterHandler_cores (s : State) (c : Cause) (x : Word) : (s.enterHandler c x).cores = s.cores := rfl
@[simp] theorem State.enterHandler_clusters (s : State) (c : Cause) (x : Word) : (s.enterHandler c x).clusters = s.clusters := rfl
@[simp] theorem State.enterHandler_dies (s : State) (c : Cause) (x : Word) : (s.enterHandler c x).dies = s.dies := rfl
@[simp] theorem State.enterHandler_terraces (s : State) (c : Cause) (x : Word) : (s.enterHandler c x).terraces = s.terraces := rfl
@[simp] theorem State.enterHandler_veils (s : State) (c : Cause) (x : Word) : (s.enterHandler c x).veils = s.veils := rfl
@[simp] theorem State.enterHandler_cellar (s : State) (c : Cause) (x : Word) : (s.enterHandler c x).cellar = s.cellar := rfl
@[simp] theorem State.enterHandler_channels (s : State) (c : Cause) (x : Word) : (s.enterHandler c x).channels = s.channels := rfl
@[simp] theorem State.enterHandler_workgroups (s : State) (c : Cause) (x : Word) : (s.enterHandler c x).workgroups = s.workgroups := rfl
@[simp] theorem State.enterHandler_parcels (s : State) (c : Cause) (x : Word) : (s.enterHandler c x).parcels = s.parcels := rfl
@[simp] theorem State.enterHandler_barriers (s : State) (c : Cause) (x : Word) : (s.enterHandler c x).barriers = s.barriers := rfl
@[simp] theorem State.enterHandler_pendingArrivals (s : State) (c : Cause) (x : Word) : (s.enterHandler c x).pendingArrivals = s.pendingArrivals := rfl
@[simp] theorem State.enterHandler_transEntries (s : State) (c : Cause) (x : Word) : (s.enterHandler c x).transEntries = s.transEntries := rfl
@[simp] theorem State.enterHandler_images (s : State) (c : Cause) (x : Word) : (s.enterHandler c x).images = s.images := rfl
@[simp] theorem State.enterHandler_links (s : State) (c : Cause) (x : Word) : (s.enterHandler c x).links = s.links := rfl
@[simp] theorem State.enterHandler_asyncOps (s : State) (c : Cause) (x : Word) : (s.enterHandler c x).asyncOps = s.asyncOps := rfl
@[simp] theorem State.enterHandler_decantOps (s : State) (c : Cause) (x : Word) : (s.enterHandler c x).decantOps = s.decantOps := rfl
@[simp] theorem State.enterHandler_tasks (s : State) (c : Cause) (x : Word) : (s.enterHandler c x).tasks = s.tasks := rfl
@[simp] theorem State.enterHandler_partials (s : State) (c : Cause) (x : Word) : (s.enterHandler c x).partials = s.partials := rfl
@[simp] theorem State.enterHandler_groups (s : State) (c : Cause) (x : Word) : (s.enterHandler c x).groups = s.groups := rfl
@[simp] theorem State.enterHandler_keys (s : State) (c : Cause) (x : Word) : (s.enterHandler c x).keys = s.keys := rfl
@[simp] theorem State.enterHandler_tlbInvs (s : State) (c : Cause) (x : Word) : (s.enterHandler c x).tlbInvs = s.tlbInvs := rfl
@[simp] theorem State.enterHandler_heldReds (s : State) (c : Cause) (x : Word) : (s.enterHandler c x).heldReds = s.heldReds := rfl
@[simp] theorem State.enterHandler_backlogs (s : State) (c : Cause) (x : Word) : (s.enterHandler c x).backlogs = s.backlogs := rfl
@[simp] theorem State.enterHandler_sups (s : State) (c : Cause) (x : Word) : (s.enterHandler c x).sups = s.sups := rfl
@[simp] theorem State.enterHandler_completion (s : State) (c : Cause) (x : Word) : (s.enterHandler c x).completion = s.completion := rfl
@[simp] theorem State.enterHandler_boot (s : State) (c : Cause) (x : Word) : (s.enterHandler c x).boot = s.boot := rfl
@[simp] theorem State.enterHandler_rtime (s : State) (c : Cause) (x : Word) : (s.enterHandler c x).rtime = s.rtime := rfl

@[simp] theorem State.updCur_cur (s : State) (f : Cane → Cane) : (s.updCur f).cur = f s.cur := rfl
@[simp] theorem State.mapCanes_cur (s : State) (f : Cane → Cane) : (s.mapCanes f).cur = f s.cur := rfl
@[simp] theorem State.fall_charge (s : State) (v u b : Nat) : (s.charge v u b).fall = s.fall := rfl
@[simp] theorem State.fall_updCur (s : State) (f : Cane → Cane) : (s.updCur f).fall = s.fall := rfl

/-! ## Cane.setV -/

@[simp] theorem Cane.setV_id (c : Cane) (m : Mask) (i : Nat) (f : Nat → Word) : (c.setV m i f).id = c.id := rfl
@[simp] theorem Cane.setV_live (c : Cane) (m : Mask) (i : Nat) (f : Nat → Word) : (c.setV m i f).live = c.live := rfl
@[simp] theorem Cane.setV_idx (c : Cane) (m : Mask) (i : Nat) (f : Nat → Word) : (c.setV m i f).idx = c.idx := rfl
@[simp] theorem Cane.setV_wg (c : Cane) (m : Mask) (i : Nat) (f : Nat → Word) : (c.setV m i f).wg = c.wg := rfl
@[simp] theorem Cane.setV_core (c : Cane) (m : Mask) (i : Nat) (f : Nat → Word) : (c.setV m i f).core = c.core := rfl
@[simp] theorem Cane.setV_slot (c : Cane) (m : Mask) (i : Nat) (f : Nat → Word) : (c.setV m i f).slot = c.slot := rfl
@[simp] theorem Cane.setV_a (c : Cane) (m : Mask) (i : Nat) (f : Nat → Word) : (c.setV m i f).a = c.a := rfl
@[simp] theorem Cane.setV_p (c : Cane) (m : Mask) (i : Nat) (f : Nat → Word) : (c.setV m i f).p = c.p := rfl
@[simp] theorem Cane.setV_mode (c : Cane) (m : Mask) (i : Nat) (f : Nat → Word) : (c.setV m i f).mode = c.mode := rfl
@[simp] theorem Cane.setV_flags (c : Cane) (m : Mask) (i : Nat) (f : Nat → Word) : (c.setV m i f).flags = c.flags := rfl
@[simp] theorem Cane.setV_link (c : Cane) (m : Mask) (i : Nat) (f : Nat → Word) : (c.setV m i f).link = c.link := rfl
@[simp] theorem Cane.setV_pc (c : Cane) (m : Mask) (i : Nat) (f : Nat → Word) : (c.setV m i f).pc = c.pc := rfl
@[simp] theorem Cane.setV_stack (c : Cane) (m : Mask) (i : Nat) (f : Nat → Word) : (c.setV m i f).stack = c.stack := rfl
@[simp] theorem Cane.setV_recon (c : Cane) (m : Mask) (i : Nat) (f : Nat → Word) : (c.setV m i f).recon = c.recon := rfl
@[simp] theorem Cane.setV_qmask (c : Cane) (m : Mask) (i : Nat) (f : Nat → Word) : (c.setV m i f).qmask = c.qmask := rfl
@[simp] theorem Cane.setV_lfsr (c : Cane) (m : Mask) (i : Nat) (f : Nat → Word) : (c.setV m i f).lfsr = c.lfsr := rfl
@[simp] theorem Cane.setV_epc (c : Cane) (m : Mask) (i : Nat) (f : Nat → Word) : (c.setV m i f).epc = c.epc := rfl
@[simp] theorem Cane.setV_estat (c : Cane) (m : Mask) (i : Nat) (f : Nat → Word) : (c.setV m i f).estat = c.estat := rfl
@[simp] theorem Cane.setV_emask (c : Cane) (m : Mask) (i : Nat) (f : Nat → Word) : (c.setV m i f).emask = c.emask := rfl
@[simp] theorem Cane.setV_earg (c : Cane) (m : Mask) (i : Nat) (f : Nat → Word) : (c.setV m i f).earg = c.earg := rfl
@[simp] theorem Cane.setV_tvec (c : Cane) (m : Mask) (i : Nat) (f : Nat → Word) : (c.setV m i f).tvec = c.tvec := rfl
@[simp] theorem Cane.setV_priv (c : Cane) (m : Mask) (i : Nat) (f : Nat → Word) : (c.setV m i f).priv = c.priv := rfl
@[simp] theorem Cane.setV_gfm (c : Cane) (m : Mask) (i : Nat) (f : Nat → Word) : (c.setV m i f).gfm = c.gfm := rfl
@[simp] theorem Cane.setV_watch (c : Cane) (m : Mask) (i : Nat) (f : Nat → Word) : (c.setV m i f).watch = c.watch := rfl
@[simp] theorem Cane.setV_arrivals (c : Cane) (m : Mask) (i : Nat) (f : Nat → Word) : (c.setV m i f).arrivals = c.arrivals := rfl
@[simp] theorem Cane.setV_sealCount (c : Cane) (m : Mask) (i : Nat) (f : Nat → Word) : (c.setV m i f).sealCount = c.sealCount := rfl
@[simp] theorem Cane.setV_openPending (c : Cane) (m : Mask) (i : Nat) (f : Nat → Word) : (c.setV m i f).openPending = c.openPending := rfl
@[simp] theorem Cane.setV_openUsed (c : Cane) (m : Mask) (i : Nat) (f : Nat → Word) : (c.setV m i f).openUsed = c.openUsed := rfl
@[simp] theorem Cane.setV_openErr (c : Cane) (m : Mask) (i : Nat) (f : Nat → Word) : (c.setV m i f).openErr = c.openErr := rfl
@[simp] theorem Cane.setV_batches (c : Cane) (m : Mask) (i : Nat) (f : Nat → Word) : (c.setV m i f).batches = c.batches := rfl
@[simp] theorem Cane.setV_waitSet (c : Cane) (m : Mask) (i : Nat) (f : Nat → Word) : (c.setV m i f).waitSet = c.waitSet := rfl
@[simp] theorem Cane.setV_waitErr (c : Cane) (m : Mask) (i : Nat) (f : Nat → Word) : (c.setV m i f).waitErr = c.waitErr := rfl
@[simp] theorem Cane.setV_unfenced (c : Cane) (m : Mask) (i : Nat) (f : Nat → Word) : (c.setV m i f).unfenced = c.unfenced := rfl
@[simp] theorem Cane.setV_seen (c : Cane) (m : Mask) (i : Nat) (f : Nat → Word) : (c.setV m i f).seen = c.seen := rfl
@[simp] theorem Cane.setV_fenceScope (c : Cane) (m : Mask) (i : Nat) (f : Nat → Word) : (c.setV m i f).fenceScope = c.fenceScope := rfl
@[simp] theorem Cane.setV_nreg (c : Cane) (m : Mask) (i : Nat) (f : Nat → Word) : (c.setV m i f).nreg = c.nreg := rfl
@[simp] theorem Cane.setV_stripe (c : Cane) (m : Mask) (i : Nat) (f : Nat → Word) : (c.setV m i f).stripe = c.stripe := rfl
@[simp] theorem Cane.setV_ext0 (c : Cane) (m : Mask) (i : Nat) (f : Nat → Word) : (c.setV m i f).ext0 = c.ext0 := rfl
@[simp] theorem Cane.setV_ext1 (c : Cane) (m : Mask) (i : Nat) (f : Nat → Word) : (c.setV m i f).ext1 = c.ext1 := rfl
@[simp] theorem Cane.setV_wcnt (c : Cane) (m : Mask) (i : Nat) (f : Nat → Word) : (c.setV m i f).wcnt = c.wcnt := rfl
@[simp] theorem Cane.setV_dcnt (c : Cane) (m : Mask) (i : Nat) (f : Nat → Word) : (c.setV m i f).dcnt = c.dcnt := rfl
@[simp] theorem Cane.setV_hcnt (c : Cane) (m : Mask) (i : Nat) (f : Nat → Word) : (c.setV m i f).hcnt = c.hcnt := rfl
@[simp] theorem Cane.setV_outstanding (c : Cane) (m : Mask) (i : Nat) (f : Nat → Word) : (c.setV m i f).outstanding = c.outstanding := rfl
@[simp] theorem Cane.setV_outPower (c : Cane) (m : Mask) (i : Nat) (f : Nat → Word) : (c.setV m i f).outPower = c.outPower := rfl
@[simp] theorem Cane.setV_sinceSwitch (c : Cane) (m : Mask) (i : Nat) (f : Nat → Word) : (c.setV m i f).sinceSwitch = c.sinceSwitch := rfl
@[simp] theorem Cane.setV_pipe (c : Cane) (m : Mask) (i : Nat) (f : Nat → Word) : (c.setV m i f).pipe = c.pipe := rfl
@[simp] theorem Cane.setV_readyAt (c : Cane) (m : Mask) (i : Nat) (f : Nat → Word) : (c.setV m i f).readyAt = c.readyAt := rfl
@[simp] theorem Cane.setV_parked (c : Cane) (m : Mask) (i : Nat) (f : Nat → Word) : (c.setV m i f).parked = c.parked := rfl
@[simp] theorem Cane.setV_aged (c : Cane) (m : Mask) (i : Nat) (f : Nat → Word) : (c.setV m i f).aged = c.aged := rfl
@[simp] theorem Cane.setV_wait (c : Cane) (m : Mask) (i : Nat) (f : Nat → Word) : (c.setV m i f).wait = c.wait := rfl
@[simp] theorem Cane.setV_need (c : Cane) (m : Mask) (i : Nat) (f : Nat → Word) : (c.setV m i f).need = c.need := rfl
@[simp] theorem Cane.setV_answer (c : Cane) (m : Mask) (i : Nat) (f : Nat → Word) : (c.setV m i f).answer = c.answer := rfl
@[simp] theorem Cane.setV_stage (c : Cane) (m : Mask) (i : Nat) (f : Nat → Word) : (c.setV m i f).stage = c.stage := rfl
@[simp] theorem Cane.setV_stageArg (c : Cane) (m : Mask) (i : Nat) (f : Nat → Word) : (c.setV m i f).stageArg = c.stageArg := rfl
@[simp] theorem Cane.setV_claim (c : Cane) (m : Mask) (i : Nat) (f : Nat → Word) : (c.setV m i f).claim = c.claim := rfl
@[simp] theorem Cane.setV_supArg (c : Cane) (m : Mask) (i : Nat) (f : Nat → Word) : (c.setV m i f).supArg = c.supArg := rfl
@[simp] theorem Cane.setV_parkLeaf (c : Cane) (m : Mask) (i : Nat) (f : Nat → Word) : (c.setV m i f).parkLeaf = c.parkLeaf := rfl
@[simp] theorem Cane.setV_saccSeen (c : Cane) (m : Mask) (i : Nat) (f : Nat → Word) : (c.setV m i f).saccSeen = c.saccSeen := rfl
@[simp] theorem Cane.setV_entered (c : Cane) (m : Mask) (i : Nat) (f : Nat → Word) : (c.setV m i f).entered = c.entered := rfl
@[simp] theorem Cane.setV_denied (c : Cane) (m : Mask) (i : Nat) (f : Nat → Word) : (c.setV m i f).denied = c.denied := rfl
@[simp] theorem Cane.setV_routine (c : Cane) (m : Mask) (i : Nat) (f : Nat → Word) : (c.setV m i f).routine = c.routine := rfl
@[simp] theorem Cane.setV_routineDone (c : Cane) (m : Mask) (i : Nat) (f : Nat → Word) : (c.setV m i f).routineDone = c.routineDone := rfl
@[simp] theorem Cane.setV_vectored (c : Cane) (m : Mask) (i : Nat) (f : Nat → Word) : (c.setV m i f).vectored = c.vectored := rfl
@[simp] theorem Cane.setV_vecPc (c : Cane) (m : Mask) (i : Nat) (f : Nat → Word) : (c.setV m i f).vecPc = c.vecPc := rfl
@[simp] theorem Cane.setV_vecRecon (c : Cane) (m : Mask) (i : Nat) (f : Nat → Word) : (c.setV m i f).vecRecon = c.vecRecon := rfl
@[simp] theorem Cane.setV_stepping (c : Cane) (m : Mask) (i : Nat) (f : Nat → Word) : (c.setV m i f).stepping = c.stepping := rfl
@[simp] theorem Cane.setV_passBreak (c : Cane) (m : Mask) (i : Nat) (f : Nat → Word) : (c.setV m i f).passBreak = c.passBreak := rfl
@[simp] theorem Cane.setV_passBkpt (c : Cane) (m : Mask) (i : Nat) (f : Nat → Word) : (c.setV m i f).passBkpt = c.passBkpt := rfl
@[simp] theorem Cane.setV_passWatch (c : Cane) (m : Mask) (i : Nat) (f : Nat → Word) : (c.setV m i f).passWatch = c.passWatch := rfl
@[simp] theorem Cane.setV_halting (c : Cane) (m : Mask) (i : Nat) (f : Nat → Word) : (c.setV m i f).halting = c.halting := rfl
@[simp] theorem Cane.setV_noted (c : Cane) (m : Mask) (i : Nat) (f : Nat → Word) : (c.setV m i f).noted = c.noted := rfl
@[simp] theorem Cane.setV_hash (c : Cane) (m : Mask) (i : Nat) (f : Nat → Word) : (c.setV m i f).hash = c.hash := rfl
@[simp] theorem Cane.setV_lastPc (c : Cane) (m : Mask) (i : Nat) (f : Nat → Word) : (c.setV m i f).lastPc = c.lastPc := rfl
@[simp] theorem Cane.setV_lastStop (c : Cane) (m : Mask) (i : Nat) (f : Nat → Word) : (c.setV m i f).lastStop = c.lastStop := rfl

/-! ## Cane.setV64 -/

@[simp] theorem Cane.setV64_id (c : Cane) (m : Mask) (i : Nat) (f : Nat → Dword) : (c.setV64 m i f).id = c.id := rfl
@[simp] theorem Cane.setV64_live (c : Cane) (m : Mask) (i : Nat) (f : Nat → Dword) : (c.setV64 m i f).live = c.live := rfl
@[simp] theorem Cane.setV64_idx (c : Cane) (m : Mask) (i : Nat) (f : Nat → Dword) : (c.setV64 m i f).idx = c.idx := rfl
@[simp] theorem Cane.setV64_wg (c : Cane) (m : Mask) (i : Nat) (f : Nat → Dword) : (c.setV64 m i f).wg = c.wg := rfl
@[simp] theorem Cane.setV64_core (c : Cane) (m : Mask) (i : Nat) (f : Nat → Dword) : (c.setV64 m i f).core = c.core := rfl
@[simp] theorem Cane.setV64_slot (c : Cane) (m : Mask) (i : Nat) (f : Nat → Dword) : (c.setV64 m i f).slot = c.slot := rfl
@[simp] theorem Cane.setV64_a (c : Cane) (m : Mask) (i : Nat) (f : Nat → Dword) : (c.setV64 m i f).a = c.a := rfl
@[simp] theorem Cane.setV64_p (c : Cane) (m : Mask) (i : Nat) (f : Nat → Dword) : (c.setV64 m i f).p = c.p := rfl
@[simp] theorem Cane.setV64_mode (c : Cane) (m : Mask) (i : Nat) (f : Nat → Dword) : (c.setV64 m i f).mode = c.mode := rfl
@[simp] theorem Cane.setV64_flags (c : Cane) (m : Mask) (i : Nat) (f : Nat → Dword) : (c.setV64 m i f).flags = c.flags := rfl
@[simp] theorem Cane.setV64_link (c : Cane) (m : Mask) (i : Nat) (f : Nat → Dword) : (c.setV64 m i f).link = c.link := rfl
@[simp] theorem Cane.setV64_pc (c : Cane) (m : Mask) (i : Nat) (f : Nat → Dword) : (c.setV64 m i f).pc = c.pc := rfl
@[simp] theorem Cane.setV64_stack (c : Cane) (m : Mask) (i : Nat) (f : Nat → Dword) : (c.setV64 m i f).stack = c.stack := rfl
@[simp] theorem Cane.setV64_recon (c : Cane) (m : Mask) (i : Nat) (f : Nat → Dword) : (c.setV64 m i f).recon = c.recon := rfl
@[simp] theorem Cane.setV64_qmask (c : Cane) (m : Mask) (i : Nat) (f : Nat → Dword) : (c.setV64 m i f).qmask = c.qmask := rfl
@[simp] theorem Cane.setV64_lfsr (c : Cane) (m : Mask) (i : Nat) (f : Nat → Dword) : (c.setV64 m i f).lfsr = c.lfsr := rfl
@[simp] theorem Cane.setV64_epc (c : Cane) (m : Mask) (i : Nat) (f : Nat → Dword) : (c.setV64 m i f).epc = c.epc := rfl
@[simp] theorem Cane.setV64_estat (c : Cane) (m : Mask) (i : Nat) (f : Nat → Dword) : (c.setV64 m i f).estat = c.estat := rfl
@[simp] theorem Cane.setV64_emask (c : Cane) (m : Mask) (i : Nat) (f : Nat → Dword) : (c.setV64 m i f).emask = c.emask := rfl
@[simp] theorem Cane.setV64_earg (c : Cane) (m : Mask) (i : Nat) (f : Nat → Dword) : (c.setV64 m i f).earg = c.earg := rfl
@[simp] theorem Cane.setV64_tvec (c : Cane) (m : Mask) (i : Nat) (f : Nat → Dword) : (c.setV64 m i f).tvec = c.tvec := rfl
@[simp] theorem Cane.setV64_priv (c : Cane) (m : Mask) (i : Nat) (f : Nat → Dword) : (c.setV64 m i f).priv = c.priv := rfl
@[simp] theorem Cane.setV64_gfm (c : Cane) (m : Mask) (i : Nat) (f : Nat → Dword) : (c.setV64 m i f).gfm = c.gfm := rfl
@[simp] theorem Cane.setV64_watch (c : Cane) (m : Mask) (i : Nat) (f : Nat → Dword) : (c.setV64 m i f).watch = c.watch := rfl
@[simp] theorem Cane.setV64_arrivals (c : Cane) (m : Mask) (i : Nat) (f : Nat → Dword) : (c.setV64 m i f).arrivals = c.arrivals := rfl
@[simp] theorem Cane.setV64_sealCount (c : Cane) (m : Mask) (i : Nat) (f : Nat → Dword) : (c.setV64 m i f).sealCount = c.sealCount := rfl
@[simp] theorem Cane.setV64_openPending (c : Cane) (m : Mask) (i : Nat) (f : Nat → Dword) : (c.setV64 m i f).openPending = c.openPending := rfl
@[simp] theorem Cane.setV64_openUsed (c : Cane) (m : Mask) (i : Nat) (f : Nat → Dword) : (c.setV64 m i f).openUsed = c.openUsed := rfl
@[simp] theorem Cane.setV64_openErr (c : Cane) (m : Mask) (i : Nat) (f : Nat → Dword) : (c.setV64 m i f).openErr = c.openErr := rfl
@[simp] theorem Cane.setV64_batches (c : Cane) (m : Mask) (i : Nat) (f : Nat → Dword) : (c.setV64 m i f).batches = c.batches := rfl
@[simp] theorem Cane.setV64_waitSet (c : Cane) (m : Mask) (i : Nat) (f : Nat → Dword) : (c.setV64 m i f).waitSet = c.waitSet := rfl
@[simp] theorem Cane.setV64_waitErr (c : Cane) (m : Mask) (i : Nat) (f : Nat → Dword) : (c.setV64 m i f).waitErr = c.waitErr := rfl
@[simp] theorem Cane.setV64_unfenced (c : Cane) (m : Mask) (i : Nat) (f : Nat → Dword) : (c.setV64 m i f).unfenced = c.unfenced := rfl
@[simp] theorem Cane.setV64_seen (c : Cane) (m : Mask) (i : Nat) (f : Nat → Dword) : (c.setV64 m i f).seen = c.seen := rfl
@[simp] theorem Cane.setV64_fenceScope (c : Cane) (m : Mask) (i : Nat) (f : Nat → Dword) : (c.setV64 m i f).fenceScope = c.fenceScope := rfl
@[simp] theorem Cane.setV64_nreg (c : Cane) (m : Mask) (i : Nat) (f : Nat → Dword) : (c.setV64 m i f).nreg = c.nreg := rfl
@[simp] theorem Cane.setV64_stripe (c : Cane) (m : Mask) (i : Nat) (f : Nat → Dword) : (c.setV64 m i f).stripe = c.stripe := rfl
@[simp] theorem Cane.setV64_ext0 (c : Cane) (m : Mask) (i : Nat) (f : Nat → Dword) : (c.setV64 m i f).ext0 = c.ext0 := rfl
@[simp] theorem Cane.setV64_ext1 (c : Cane) (m : Mask) (i : Nat) (f : Nat → Dword) : (c.setV64 m i f).ext1 = c.ext1 := rfl
@[simp] theorem Cane.setV64_wcnt (c : Cane) (m : Mask) (i : Nat) (f : Nat → Dword) : (c.setV64 m i f).wcnt = c.wcnt := rfl
@[simp] theorem Cane.setV64_dcnt (c : Cane) (m : Mask) (i : Nat) (f : Nat → Dword) : (c.setV64 m i f).dcnt = c.dcnt := rfl
@[simp] theorem Cane.setV64_hcnt (c : Cane) (m : Mask) (i : Nat) (f : Nat → Dword) : (c.setV64 m i f).hcnt = c.hcnt := rfl
@[simp] theorem Cane.setV64_outstanding (c : Cane) (m : Mask) (i : Nat) (f : Nat → Dword) : (c.setV64 m i f).outstanding = c.outstanding := rfl
@[simp] theorem Cane.setV64_outPower (c : Cane) (m : Mask) (i : Nat) (f : Nat → Dword) : (c.setV64 m i f).outPower = c.outPower := rfl
@[simp] theorem Cane.setV64_sinceSwitch (c : Cane) (m : Mask) (i : Nat) (f : Nat → Dword) : (c.setV64 m i f).sinceSwitch = c.sinceSwitch := rfl
@[simp] theorem Cane.setV64_pipe (c : Cane) (m : Mask) (i : Nat) (f : Nat → Dword) : (c.setV64 m i f).pipe = c.pipe := rfl
@[simp] theorem Cane.setV64_readyAt (c : Cane) (m : Mask) (i : Nat) (f : Nat → Dword) : (c.setV64 m i f).readyAt = c.readyAt := rfl
@[simp] theorem Cane.setV64_parked (c : Cane) (m : Mask) (i : Nat) (f : Nat → Dword) : (c.setV64 m i f).parked = c.parked := rfl
@[simp] theorem Cane.setV64_aged (c : Cane) (m : Mask) (i : Nat) (f : Nat → Dword) : (c.setV64 m i f).aged = c.aged := rfl
@[simp] theorem Cane.setV64_wait (c : Cane) (m : Mask) (i : Nat) (f : Nat → Dword) : (c.setV64 m i f).wait = c.wait := rfl
@[simp] theorem Cane.setV64_need (c : Cane) (m : Mask) (i : Nat) (f : Nat → Dword) : (c.setV64 m i f).need = c.need := rfl
@[simp] theorem Cane.setV64_answer (c : Cane) (m : Mask) (i : Nat) (f : Nat → Dword) : (c.setV64 m i f).answer = c.answer := rfl
@[simp] theorem Cane.setV64_stage (c : Cane) (m : Mask) (i : Nat) (f : Nat → Dword) : (c.setV64 m i f).stage = c.stage := rfl
@[simp] theorem Cane.setV64_stageArg (c : Cane) (m : Mask) (i : Nat) (f : Nat → Dword) : (c.setV64 m i f).stageArg = c.stageArg := rfl
@[simp] theorem Cane.setV64_claim (c : Cane) (m : Mask) (i : Nat) (f : Nat → Dword) : (c.setV64 m i f).claim = c.claim := rfl
@[simp] theorem Cane.setV64_supArg (c : Cane) (m : Mask) (i : Nat) (f : Nat → Dword) : (c.setV64 m i f).supArg = c.supArg := rfl
@[simp] theorem Cane.setV64_parkLeaf (c : Cane) (m : Mask) (i : Nat) (f : Nat → Dword) : (c.setV64 m i f).parkLeaf = c.parkLeaf := rfl
@[simp] theorem Cane.setV64_saccSeen (c : Cane) (m : Mask) (i : Nat) (f : Nat → Dword) : (c.setV64 m i f).saccSeen = c.saccSeen := rfl
@[simp] theorem Cane.setV64_entered (c : Cane) (m : Mask) (i : Nat) (f : Nat → Dword) : (c.setV64 m i f).entered = c.entered := rfl
@[simp] theorem Cane.setV64_denied (c : Cane) (m : Mask) (i : Nat) (f : Nat → Dword) : (c.setV64 m i f).denied = c.denied := rfl
@[simp] theorem Cane.setV64_routine (c : Cane) (m : Mask) (i : Nat) (f : Nat → Dword) : (c.setV64 m i f).routine = c.routine := rfl
@[simp] theorem Cane.setV64_routineDone (c : Cane) (m : Mask) (i : Nat) (f : Nat → Dword) : (c.setV64 m i f).routineDone = c.routineDone := rfl
@[simp] theorem Cane.setV64_vectored (c : Cane) (m : Mask) (i : Nat) (f : Nat → Dword) : (c.setV64 m i f).vectored = c.vectored := rfl
@[simp] theorem Cane.setV64_vecPc (c : Cane) (m : Mask) (i : Nat) (f : Nat → Dword) : (c.setV64 m i f).vecPc = c.vecPc := rfl
@[simp] theorem Cane.setV64_vecRecon (c : Cane) (m : Mask) (i : Nat) (f : Nat → Dword) : (c.setV64 m i f).vecRecon = c.vecRecon := rfl
@[simp] theorem Cane.setV64_stepping (c : Cane) (m : Mask) (i : Nat) (f : Nat → Dword) : (c.setV64 m i f).stepping = c.stepping := rfl
@[simp] theorem Cane.setV64_passBreak (c : Cane) (m : Mask) (i : Nat) (f : Nat → Dword) : (c.setV64 m i f).passBreak = c.passBreak := rfl
@[simp] theorem Cane.setV64_passBkpt (c : Cane) (m : Mask) (i : Nat) (f : Nat → Dword) : (c.setV64 m i f).passBkpt = c.passBkpt := rfl
@[simp] theorem Cane.setV64_passWatch (c : Cane) (m : Mask) (i : Nat) (f : Nat → Dword) : (c.setV64 m i f).passWatch = c.passWatch := rfl
@[simp] theorem Cane.setV64_halting (c : Cane) (m : Mask) (i : Nat) (f : Nat → Dword) : (c.setV64 m i f).halting = c.halting := rfl
@[simp] theorem Cane.setV64_noted (c : Cane) (m : Mask) (i : Nat) (f : Nat → Dword) : (c.setV64 m i f).noted = c.noted := rfl
@[simp] theorem Cane.setV64_hash (c : Cane) (m : Mask) (i : Nat) (f : Nat → Dword) : (c.setV64 m i f).hash = c.hash := rfl
@[simp] theorem Cane.setV64_lastPc (c : Cane) (m : Mask) (i : Nat) (f : Nat → Dword) : (c.setV64 m i f).lastPc = c.lastPc := rfl
@[simp] theorem Cane.setV64_lastStop (c : Cane) (m : Mask) (i : Nat) (f : Nat → Dword) : (c.setV64 m i f).lastStop = c.lastStop := rfl

/-! ## Cane.setVal -/

@[simp] theorem Cane.setVal_id (c : Cane) (w : Bool) (m : Mask) (i : Nat) (f : Nat → Nat) : (c.setVal w m i f).id = c.id := by unfold Cane.setVal; split <;> rfl
@[simp] theorem Cane.setVal_live (c : Cane) (w : Bool) (m : Mask) (i : Nat) (f : Nat → Nat) : (c.setVal w m i f).live = c.live := by unfold Cane.setVal; split <;> rfl
@[simp] theorem Cane.setVal_idx (c : Cane) (w : Bool) (m : Mask) (i : Nat) (f : Nat → Nat) : (c.setVal w m i f).idx = c.idx := by unfold Cane.setVal; split <;> rfl
@[simp] theorem Cane.setVal_wg (c : Cane) (w : Bool) (m : Mask) (i : Nat) (f : Nat → Nat) : (c.setVal w m i f).wg = c.wg := by unfold Cane.setVal; split <;> rfl
@[simp] theorem Cane.setVal_core (c : Cane) (w : Bool) (m : Mask) (i : Nat) (f : Nat → Nat) : (c.setVal w m i f).core = c.core := by unfold Cane.setVal; split <;> rfl
@[simp] theorem Cane.setVal_slot (c : Cane) (w : Bool) (m : Mask) (i : Nat) (f : Nat → Nat) : (c.setVal w m i f).slot = c.slot := by unfold Cane.setVal; split <;> rfl
@[simp] theorem Cane.setVal_a (c : Cane) (w : Bool) (m : Mask) (i : Nat) (f : Nat → Nat) : (c.setVal w m i f).a = c.a := by unfold Cane.setVal; split <;> rfl
@[simp] theorem Cane.setVal_p (c : Cane) (w : Bool) (m : Mask) (i : Nat) (f : Nat → Nat) : (c.setVal w m i f).p = c.p := by unfold Cane.setVal; split <;> rfl
@[simp] theorem Cane.setVal_mode (c : Cane) (w : Bool) (m : Mask) (i : Nat) (f : Nat → Nat) : (c.setVal w m i f).mode = c.mode := by unfold Cane.setVal; split <;> rfl
@[simp] theorem Cane.setVal_flags (c : Cane) (w : Bool) (m : Mask) (i : Nat) (f : Nat → Nat) : (c.setVal w m i f).flags = c.flags := by unfold Cane.setVal; split <;> rfl
@[simp] theorem Cane.setVal_link (c : Cane) (w : Bool) (m : Mask) (i : Nat) (f : Nat → Nat) : (c.setVal w m i f).link = c.link := by unfold Cane.setVal; split <;> rfl
@[simp] theorem Cane.setVal_pc (c : Cane) (w : Bool) (m : Mask) (i : Nat) (f : Nat → Nat) : (c.setVal w m i f).pc = c.pc := by unfold Cane.setVal; split <;> rfl
@[simp] theorem Cane.setVal_stack (c : Cane) (w : Bool) (m : Mask) (i : Nat) (f : Nat → Nat) : (c.setVal w m i f).stack = c.stack := by unfold Cane.setVal; split <;> rfl
@[simp] theorem Cane.setVal_recon (c : Cane) (w : Bool) (m : Mask) (i : Nat) (f : Nat → Nat) : (c.setVal w m i f).recon = c.recon := by unfold Cane.setVal; split <;> rfl
@[simp] theorem Cane.setVal_qmask (c : Cane) (w : Bool) (m : Mask) (i : Nat) (f : Nat → Nat) : (c.setVal w m i f).qmask = c.qmask := by unfold Cane.setVal; split <;> rfl
@[simp] theorem Cane.setVal_lfsr (c : Cane) (w : Bool) (m : Mask) (i : Nat) (f : Nat → Nat) : (c.setVal w m i f).lfsr = c.lfsr := by unfold Cane.setVal; split <;> rfl
@[simp] theorem Cane.setVal_epc (c : Cane) (w : Bool) (m : Mask) (i : Nat) (f : Nat → Nat) : (c.setVal w m i f).epc = c.epc := by unfold Cane.setVal; split <;> rfl
@[simp] theorem Cane.setVal_estat (c : Cane) (w : Bool) (m : Mask) (i : Nat) (f : Nat → Nat) : (c.setVal w m i f).estat = c.estat := by unfold Cane.setVal; split <;> rfl
@[simp] theorem Cane.setVal_emask (c : Cane) (w : Bool) (m : Mask) (i : Nat) (f : Nat → Nat) : (c.setVal w m i f).emask = c.emask := by unfold Cane.setVal; split <;> rfl
@[simp] theorem Cane.setVal_earg (c : Cane) (w : Bool) (m : Mask) (i : Nat) (f : Nat → Nat) : (c.setVal w m i f).earg = c.earg := by unfold Cane.setVal; split <;> rfl
@[simp] theorem Cane.setVal_tvec (c : Cane) (w : Bool) (m : Mask) (i : Nat) (f : Nat → Nat) : (c.setVal w m i f).tvec = c.tvec := by unfold Cane.setVal; split <;> rfl
@[simp] theorem Cane.setVal_priv (c : Cane) (w : Bool) (m : Mask) (i : Nat) (f : Nat → Nat) : (c.setVal w m i f).priv = c.priv := by unfold Cane.setVal; split <;> rfl
@[simp] theorem Cane.setVal_gfm (c : Cane) (w : Bool) (m : Mask) (i : Nat) (f : Nat → Nat) : (c.setVal w m i f).gfm = c.gfm := by unfold Cane.setVal; split <;> rfl
@[simp] theorem Cane.setVal_watch (c : Cane) (w : Bool) (m : Mask) (i : Nat) (f : Nat → Nat) : (c.setVal w m i f).watch = c.watch := by unfold Cane.setVal; split <;> rfl
@[simp] theorem Cane.setVal_arrivals (c : Cane) (w : Bool) (m : Mask) (i : Nat) (f : Nat → Nat) : (c.setVal w m i f).arrivals = c.arrivals := by unfold Cane.setVal; split <;> rfl
@[simp] theorem Cane.setVal_sealCount (c : Cane) (w : Bool) (m : Mask) (i : Nat) (f : Nat → Nat) : (c.setVal w m i f).sealCount = c.sealCount := by unfold Cane.setVal; split <;> rfl
@[simp] theorem Cane.setVal_openPending (c : Cane) (w : Bool) (m : Mask) (i : Nat) (f : Nat → Nat) : (c.setVal w m i f).openPending = c.openPending := by unfold Cane.setVal; split <;> rfl
@[simp] theorem Cane.setVal_openUsed (c : Cane) (w : Bool) (m : Mask) (i : Nat) (f : Nat → Nat) : (c.setVal w m i f).openUsed = c.openUsed := by unfold Cane.setVal; split <;> rfl
@[simp] theorem Cane.setVal_openErr (c : Cane) (w : Bool) (m : Mask) (i : Nat) (f : Nat → Nat) : (c.setVal w m i f).openErr = c.openErr := by unfold Cane.setVal; split <;> rfl
@[simp] theorem Cane.setVal_batches (c : Cane) (w : Bool) (m : Mask) (i : Nat) (f : Nat → Nat) : (c.setVal w m i f).batches = c.batches := by unfold Cane.setVal; split <;> rfl
@[simp] theorem Cane.setVal_waitSet (c : Cane) (w : Bool) (m : Mask) (i : Nat) (f : Nat → Nat) : (c.setVal w m i f).waitSet = c.waitSet := by unfold Cane.setVal; split <;> rfl
@[simp] theorem Cane.setVal_waitErr (c : Cane) (w : Bool) (m : Mask) (i : Nat) (f : Nat → Nat) : (c.setVal w m i f).waitErr = c.waitErr := by unfold Cane.setVal; split <;> rfl
@[simp] theorem Cane.setVal_unfenced (c : Cane) (w : Bool) (m : Mask) (i : Nat) (f : Nat → Nat) : (c.setVal w m i f).unfenced = c.unfenced := by unfold Cane.setVal; split <;> rfl
@[simp] theorem Cane.setVal_seen (c : Cane) (w : Bool) (m : Mask) (i : Nat) (f : Nat → Nat) : (c.setVal w m i f).seen = c.seen := by unfold Cane.setVal; split <;> rfl
@[simp] theorem Cane.setVal_fenceScope (c : Cane) (w : Bool) (m : Mask) (i : Nat) (f : Nat → Nat) : (c.setVal w m i f).fenceScope = c.fenceScope := by unfold Cane.setVal; split <;> rfl
@[simp] theorem Cane.setVal_nreg (c : Cane) (w : Bool) (m : Mask) (i : Nat) (f : Nat → Nat) : (c.setVal w m i f).nreg = c.nreg := by unfold Cane.setVal; split <;> rfl
@[simp] theorem Cane.setVal_stripe (c : Cane) (w : Bool) (m : Mask) (i : Nat) (f : Nat → Nat) : (c.setVal w m i f).stripe = c.stripe := by unfold Cane.setVal; split <;> rfl
@[simp] theorem Cane.setVal_ext0 (c : Cane) (w : Bool) (m : Mask) (i : Nat) (f : Nat → Nat) : (c.setVal w m i f).ext0 = c.ext0 := by unfold Cane.setVal; split <;> rfl
@[simp] theorem Cane.setVal_ext1 (c : Cane) (w : Bool) (m : Mask) (i : Nat) (f : Nat → Nat) : (c.setVal w m i f).ext1 = c.ext1 := by unfold Cane.setVal; split <;> rfl
@[simp] theorem Cane.setVal_wcnt (c : Cane) (w : Bool) (m : Mask) (i : Nat) (f : Nat → Nat) : (c.setVal w m i f).wcnt = c.wcnt := by unfold Cane.setVal; split <;> rfl
@[simp] theorem Cane.setVal_dcnt (c : Cane) (w : Bool) (m : Mask) (i : Nat) (f : Nat → Nat) : (c.setVal w m i f).dcnt = c.dcnt := by unfold Cane.setVal; split <;> rfl
@[simp] theorem Cane.setVal_hcnt (c : Cane) (w : Bool) (m : Mask) (i : Nat) (f : Nat → Nat) : (c.setVal w m i f).hcnt = c.hcnt := by unfold Cane.setVal; split <;> rfl
@[simp] theorem Cane.setVal_outstanding (c : Cane) (w : Bool) (m : Mask) (i : Nat) (f : Nat → Nat) : (c.setVal w m i f).outstanding = c.outstanding := by unfold Cane.setVal; split <;> rfl
@[simp] theorem Cane.setVal_outPower (c : Cane) (w : Bool) (m : Mask) (i : Nat) (f : Nat → Nat) : (c.setVal w m i f).outPower = c.outPower := by unfold Cane.setVal; split <;> rfl
@[simp] theorem Cane.setVal_sinceSwitch (c : Cane) (w : Bool) (m : Mask) (i : Nat) (f : Nat → Nat) : (c.setVal w m i f).sinceSwitch = c.sinceSwitch := by unfold Cane.setVal; split <;> rfl
@[simp] theorem Cane.setVal_pipe (c : Cane) (w : Bool) (m : Mask) (i : Nat) (f : Nat → Nat) : (c.setVal w m i f).pipe = c.pipe := by unfold Cane.setVal; split <;> rfl
@[simp] theorem Cane.setVal_readyAt (c : Cane) (w : Bool) (m : Mask) (i : Nat) (f : Nat → Nat) : (c.setVal w m i f).readyAt = c.readyAt := by unfold Cane.setVal; split <;> rfl
@[simp] theorem Cane.setVal_parked (c : Cane) (w : Bool) (m : Mask) (i : Nat) (f : Nat → Nat) : (c.setVal w m i f).parked = c.parked := by unfold Cane.setVal; split <;> rfl
@[simp] theorem Cane.setVal_aged (c : Cane) (w : Bool) (m : Mask) (i : Nat) (f : Nat → Nat) : (c.setVal w m i f).aged = c.aged := by unfold Cane.setVal; split <;> rfl
@[simp] theorem Cane.setVal_wait (c : Cane) (w : Bool) (m : Mask) (i : Nat) (f : Nat → Nat) : (c.setVal w m i f).wait = c.wait := by unfold Cane.setVal; split <;> rfl
@[simp] theorem Cane.setVal_need (c : Cane) (w : Bool) (m : Mask) (i : Nat) (f : Nat → Nat) : (c.setVal w m i f).need = c.need := by unfold Cane.setVal; split <;> rfl
@[simp] theorem Cane.setVal_answer (c : Cane) (w : Bool) (m : Mask) (i : Nat) (f : Nat → Nat) : (c.setVal w m i f).answer = c.answer := by unfold Cane.setVal; split <;> rfl
@[simp] theorem Cane.setVal_stage (c : Cane) (w : Bool) (m : Mask) (i : Nat) (f : Nat → Nat) : (c.setVal w m i f).stage = c.stage := by unfold Cane.setVal; split <;> rfl
@[simp] theorem Cane.setVal_stageArg (c : Cane) (w : Bool) (m : Mask) (i : Nat) (f : Nat → Nat) : (c.setVal w m i f).stageArg = c.stageArg := by unfold Cane.setVal; split <;> rfl
@[simp] theorem Cane.setVal_claim (c : Cane) (w : Bool) (m : Mask) (i : Nat) (f : Nat → Nat) : (c.setVal w m i f).claim = c.claim := by unfold Cane.setVal; split <;> rfl
@[simp] theorem Cane.setVal_supArg (c : Cane) (w : Bool) (m : Mask) (i : Nat) (f : Nat → Nat) : (c.setVal w m i f).supArg = c.supArg := by unfold Cane.setVal; split <;> rfl
@[simp] theorem Cane.setVal_parkLeaf (c : Cane) (w : Bool) (m : Mask) (i : Nat) (f : Nat → Nat) : (c.setVal w m i f).parkLeaf = c.parkLeaf := by unfold Cane.setVal; split <;> rfl
@[simp] theorem Cane.setVal_saccSeen (c : Cane) (w : Bool) (m : Mask) (i : Nat) (f : Nat → Nat) : (c.setVal w m i f).saccSeen = c.saccSeen := by unfold Cane.setVal; split <;> rfl
@[simp] theorem Cane.setVal_entered (c : Cane) (w : Bool) (m : Mask) (i : Nat) (f : Nat → Nat) : (c.setVal w m i f).entered = c.entered := by unfold Cane.setVal; split <;> rfl
@[simp] theorem Cane.setVal_denied (c : Cane) (w : Bool) (m : Mask) (i : Nat) (f : Nat → Nat) : (c.setVal w m i f).denied = c.denied := by unfold Cane.setVal; split <;> rfl
@[simp] theorem Cane.setVal_routine (c : Cane) (w : Bool) (m : Mask) (i : Nat) (f : Nat → Nat) : (c.setVal w m i f).routine = c.routine := by unfold Cane.setVal; split <;> rfl
@[simp] theorem Cane.setVal_routineDone (c : Cane) (w : Bool) (m : Mask) (i : Nat) (f : Nat → Nat) : (c.setVal w m i f).routineDone = c.routineDone := by unfold Cane.setVal; split <;> rfl
@[simp] theorem Cane.setVal_vectored (c : Cane) (w : Bool) (m : Mask) (i : Nat) (f : Nat → Nat) : (c.setVal w m i f).vectored = c.vectored := by unfold Cane.setVal; split <;> rfl
@[simp] theorem Cane.setVal_vecPc (c : Cane) (w : Bool) (m : Mask) (i : Nat) (f : Nat → Nat) : (c.setVal w m i f).vecPc = c.vecPc := by unfold Cane.setVal; split <;> rfl
@[simp] theorem Cane.setVal_vecRecon (c : Cane) (w : Bool) (m : Mask) (i : Nat) (f : Nat → Nat) : (c.setVal w m i f).vecRecon = c.vecRecon := by unfold Cane.setVal; split <;> rfl
@[simp] theorem Cane.setVal_stepping (c : Cane) (w : Bool) (m : Mask) (i : Nat) (f : Nat → Nat) : (c.setVal w m i f).stepping = c.stepping := by unfold Cane.setVal; split <;> rfl
@[simp] theorem Cane.setVal_passBreak (c : Cane) (w : Bool) (m : Mask) (i : Nat) (f : Nat → Nat) : (c.setVal w m i f).passBreak = c.passBreak := by unfold Cane.setVal; split <;> rfl
@[simp] theorem Cane.setVal_passBkpt (c : Cane) (w : Bool) (m : Mask) (i : Nat) (f : Nat → Nat) : (c.setVal w m i f).passBkpt = c.passBkpt := by unfold Cane.setVal; split <;> rfl
@[simp] theorem Cane.setVal_passWatch (c : Cane) (w : Bool) (m : Mask) (i : Nat) (f : Nat → Nat) : (c.setVal w m i f).passWatch = c.passWatch := by unfold Cane.setVal; split <;> rfl
@[simp] theorem Cane.setVal_halting (c : Cane) (w : Bool) (m : Mask) (i : Nat) (f : Nat → Nat) : (c.setVal w m i f).halting = c.halting := by unfold Cane.setVal; split <;> rfl
@[simp] theorem Cane.setVal_noted (c : Cane) (w : Bool) (m : Mask) (i : Nat) (f : Nat → Nat) : (c.setVal w m i f).noted = c.noted := by unfold Cane.setVal; split <;> rfl
@[simp] theorem Cane.setVal_hash (c : Cane) (w : Bool) (m : Mask) (i : Nat) (f : Nat → Nat) : (c.setVal w m i f).hash = c.hash := by unfold Cane.setVal; split <;> rfl
@[simp] theorem Cane.setVal_lastPc (c : Cane) (w : Bool) (m : Mask) (i : Nat) (f : Nat → Nat) : (c.setVal w m i f).lastPc = c.lastPc := by unfold Cane.setVal; split <;> rfl
@[simp] theorem Cane.setVal_lastStop (c : Cane) (w : Bool) (m : Mask) (i : Nat) (f : Nat → Nat) : (c.setVal w m i f).lastStop = c.lastStop := by unfold Cane.setVal; split <;> rfl

/-! ## Cane.setA -/

@[simp] theorem Cane.setA_id (c : Cane) (i : Nat) (x : Affine) : (c.setA i x).id = c.id := rfl
@[simp] theorem Cane.setA_live (c : Cane) (i : Nat) (x : Affine) : (c.setA i x).live = c.live := rfl
@[simp] theorem Cane.setA_idx (c : Cane) (i : Nat) (x : Affine) : (c.setA i x).idx = c.idx := rfl
@[simp] theorem Cane.setA_wg (c : Cane) (i : Nat) (x : Affine) : (c.setA i x).wg = c.wg := rfl
@[simp] theorem Cane.setA_core (c : Cane) (i : Nat) (x : Affine) : (c.setA i x).core = c.core := rfl
@[simp] theorem Cane.setA_slot (c : Cane) (i : Nat) (x : Affine) : (c.setA i x).slot = c.slot := rfl
@[simp] theorem Cane.setA_v (c : Cane) (i : Nat) (x : Affine) : (c.setA i x).v = c.v := rfl
@[simp] theorem Cane.setA_rowPoison (c : Cane) (i : Nat) (x : Affine) : (c.setA i x).rowPoison = c.rowPoison := rfl
@[simp] theorem Cane.setA_p (c : Cane) (i : Nat) (x : Affine) : (c.setA i x).p = c.p := rfl
@[simp] theorem Cane.setA_mode (c : Cane) (i : Nat) (x : Affine) : (c.setA i x).mode = c.mode := rfl
@[simp] theorem Cane.setA_flags (c : Cane) (i : Nat) (x : Affine) : (c.setA i x).flags = c.flags := rfl
@[simp] theorem Cane.setA_link (c : Cane) (i : Nat) (x : Affine) : (c.setA i x).link = c.link := rfl
@[simp] theorem Cane.setA_pc (c : Cane) (i : Nat) (x : Affine) : (c.setA i x).pc = c.pc := rfl
@[simp] theorem Cane.setA_stack (c : Cane) (i : Nat) (x : Affine) : (c.setA i x).stack = c.stack := rfl
@[simp] theorem Cane.setA_recon (c : Cane) (i : Nat) (x : Affine) : (c.setA i x).recon = c.recon := rfl
@[simp] theorem Cane.setA_qmask (c : Cane) (i : Nat) (x : Affine) : (c.setA i x).qmask = c.qmask := rfl
@[simp] theorem Cane.setA_lfsr (c : Cane) (i : Nat) (x : Affine) : (c.setA i x).lfsr = c.lfsr := rfl
@[simp] theorem Cane.setA_epc (c : Cane) (i : Nat) (x : Affine) : (c.setA i x).epc = c.epc := rfl
@[simp] theorem Cane.setA_estat (c : Cane) (i : Nat) (x : Affine) : (c.setA i x).estat = c.estat := rfl
@[simp] theorem Cane.setA_emask (c : Cane) (i : Nat) (x : Affine) : (c.setA i x).emask = c.emask := rfl
@[simp] theorem Cane.setA_earg (c : Cane) (i : Nat) (x : Affine) : (c.setA i x).earg = c.earg := rfl
@[simp] theorem Cane.setA_tvec (c : Cane) (i : Nat) (x : Affine) : (c.setA i x).tvec = c.tvec := rfl
@[simp] theorem Cane.setA_priv (c : Cane) (i : Nat) (x : Affine) : (c.setA i x).priv = c.priv := rfl
@[simp] theorem Cane.setA_gfm (c : Cane) (i : Nat) (x : Affine) : (c.setA i x).gfm = c.gfm := rfl
@[simp] theorem Cane.setA_watch (c : Cane) (i : Nat) (x : Affine) : (c.setA i x).watch = c.watch := rfl
@[simp] theorem Cane.setA_arrivals (c : Cane) (i : Nat) (x : Affine) : (c.setA i x).arrivals = c.arrivals := rfl
@[simp] theorem Cane.setA_sealCount (c : Cane) (i : Nat) (x : Affine) : (c.setA i x).sealCount = c.sealCount := rfl
@[simp] theorem Cane.setA_openPending (c : Cane) (i : Nat) (x : Affine) : (c.setA i x).openPending = c.openPending := rfl
@[simp] theorem Cane.setA_openUsed (c : Cane) (i : Nat) (x : Affine) : (c.setA i x).openUsed = c.openUsed := rfl
@[simp] theorem Cane.setA_openErr (c : Cane) (i : Nat) (x : Affine) : (c.setA i x).openErr = c.openErr := rfl
@[simp] theorem Cane.setA_batches (c : Cane) (i : Nat) (x : Affine) : (c.setA i x).batches = c.batches := rfl
@[simp] theorem Cane.setA_waitSet (c : Cane) (i : Nat) (x : Affine) : (c.setA i x).waitSet = c.waitSet := rfl
@[simp] theorem Cane.setA_waitErr (c : Cane) (i : Nat) (x : Affine) : (c.setA i x).waitErr = c.waitErr := rfl
@[simp] theorem Cane.setA_unfenced (c : Cane) (i : Nat) (x : Affine) : (c.setA i x).unfenced = c.unfenced := rfl
@[simp] theorem Cane.setA_seen (c : Cane) (i : Nat) (x : Affine) : (c.setA i x).seen = c.seen := rfl
@[simp] theorem Cane.setA_fenceScope (c : Cane) (i : Nat) (x : Affine) : (c.setA i x).fenceScope = c.fenceScope := rfl
@[simp] theorem Cane.setA_nreg (c : Cane) (i : Nat) (x : Affine) : (c.setA i x).nreg = c.nreg := rfl
@[simp] theorem Cane.setA_stripe (c : Cane) (i : Nat) (x : Affine) : (c.setA i x).stripe = c.stripe := rfl
@[simp] theorem Cane.setA_ext0 (c : Cane) (i : Nat) (x : Affine) : (c.setA i x).ext0 = c.ext0 := rfl
@[simp] theorem Cane.setA_ext1 (c : Cane) (i : Nat) (x : Affine) : (c.setA i x).ext1 = c.ext1 := rfl
@[simp] theorem Cane.setA_wcnt (c : Cane) (i : Nat) (x : Affine) : (c.setA i x).wcnt = c.wcnt := rfl
@[simp] theorem Cane.setA_dcnt (c : Cane) (i : Nat) (x : Affine) : (c.setA i x).dcnt = c.dcnt := rfl
@[simp] theorem Cane.setA_hcnt (c : Cane) (i : Nat) (x : Affine) : (c.setA i x).hcnt = c.hcnt := rfl
@[simp] theorem Cane.setA_outstanding (c : Cane) (i : Nat) (x : Affine) : (c.setA i x).outstanding = c.outstanding := rfl
@[simp] theorem Cane.setA_outPower (c : Cane) (i : Nat) (x : Affine) : (c.setA i x).outPower = c.outPower := rfl
@[simp] theorem Cane.setA_sinceSwitch (c : Cane) (i : Nat) (x : Affine) : (c.setA i x).sinceSwitch = c.sinceSwitch := rfl
@[simp] theorem Cane.setA_pipe (c : Cane) (i : Nat) (x : Affine) : (c.setA i x).pipe = c.pipe := rfl
@[simp] theorem Cane.setA_readyAt (c : Cane) (i : Nat) (x : Affine) : (c.setA i x).readyAt = c.readyAt := rfl
@[simp] theorem Cane.setA_parked (c : Cane) (i : Nat) (x : Affine) : (c.setA i x).parked = c.parked := rfl
@[simp] theorem Cane.setA_aged (c : Cane) (i : Nat) (x : Affine) : (c.setA i x).aged = c.aged := rfl
@[simp] theorem Cane.setA_wait (c : Cane) (i : Nat) (x : Affine) : (c.setA i x).wait = c.wait := rfl
@[simp] theorem Cane.setA_need (c : Cane) (i : Nat) (x : Affine) : (c.setA i x).need = c.need := rfl
@[simp] theorem Cane.setA_answer (c : Cane) (i : Nat) (x : Affine) : (c.setA i x).answer = c.answer := rfl
@[simp] theorem Cane.setA_stage (c : Cane) (i : Nat) (x : Affine) : (c.setA i x).stage = c.stage := rfl
@[simp] theorem Cane.setA_stageArg (c : Cane) (i : Nat) (x : Affine) : (c.setA i x).stageArg = c.stageArg := rfl
@[simp] theorem Cane.setA_claim (c : Cane) (i : Nat) (x : Affine) : (c.setA i x).claim = c.claim := rfl
@[simp] theorem Cane.setA_supArg (c : Cane) (i : Nat) (x : Affine) : (c.setA i x).supArg = c.supArg := rfl
@[simp] theorem Cane.setA_parkLeaf (c : Cane) (i : Nat) (x : Affine) : (c.setA i x).parkLeaf = c.parkLeaf := rfl
@[simp] theorem Cane.setA_saccSeen (c : Cane) (i : Nat) (x : Affine) : (c.setA i x).saccSeen = c.saccSeen := rfl
@[simp] theorem Cane.setA_entered (c : Cane) (i : Nat) (x : Affine) : (c.setA i x).entered = c.entered := rfl
@[simp] theorem Cane.setA_denied (c : Cane) (i : Nat) (x : Affine) : (c.setA i x).denied = c.denied := rfl
@[simp] theorem Cane.setA_routine (c : Cane) (i : Nat) (x : Affine) : (c.setA i x).routine = c.routine := rfl
@[simp] theorem Cane.setA_routineDone (c : Cane) (i : Nat) (x : Affine) : (c.setA i x).routineDone = c.routineDone := rfl
@[simp] theorem Cane.setA_vectored (c : Cane) (i : Nat) (x : Affine) : (c.setA i x).vectored = c.vectored := rfl
@[simp] theorem Cane.setA_vecPc (c : Cane) (i : Nat) (x : Affine) : (c.setA i x).vecPc = c.vecPc := rfl
@[simp] theorem Cane.setA_vecRecon (c : Cane) (i : Nat) (x : Affine) : (c.setA i x).vecRecon = c.vecRecon := rfl
@[simp] theorem Cane.setA_stepping (c : Cane) (i : Nat) (x : Affine) : (c.setA i x).stepping = c.stepping := rfl
@[simp] theorem Cane.setA_passBreak (c : Cane) (i : Nat) (x : Affine) : (c.setA i x).passBreak = c.passBreak := rfl
@[simp] theorem Cane.setA_passBkpt (c : Cane) (i : Nat) (x : Affine) : (c.setA i x).passBkpt = c.passBkpt := rfl
@[simp] theorem Cane.setA_passWatch (c : Cane) (i : Nat) (x : Affine) : (c.setA i x).passWatch = c.passWatch := rfl
@[simp] theorem Cane.setA_halting (c : Cane) (i : Nat) (x : Affine) : (c.setA i x).halting = c.halting := rfl
@[simp] theorem Cane.setA_noted (c : Cane) (i : Nat) (x : Affine) : (c.setA i x).noted = c.noted := rfl
@[simp] theorem Cane.setA_hash (c : Cane) (i : Nat) (x : Affine) : (c.setA i x).hash = c.hash := rfl
@[simp] theorem Cane.setA_lastPc (c : Cane) (i : Nat) (x : Affine) : (c.setA i x).lastPc = c.lastPc := rfl
@[simp] theorem Cane.setA_lastStop (c : Cane) (i : Nat) (x : Affine) : (c.setA i x).lastStop = c.lastStop := rfl

/-! ## Cane.setP -/

@[simp] theorem Cane.setP_id (c : Cane) (m : Mask) (i : Nat) (x : Mask) : (c.setP m i x).id = c.id := by unfold Cane.setP; split <;> rfl
@[simp] theorem Cane.setP_live (c : Cane) (m : Mask) (i : Nat) (x : Mask) : (c.setP m i x).live = c.live := by unfold Cane.setP; split <;> rfl
@[simp] theorem Cane.setP_idx (c : Cane) (m : Mask) (i : Nat) (x : Mask) : (c.setP m i x).idx = c.idx := by unfold Cane.setP; split <;> rfl
@[simp] theorem Cane.setP_wg (c : Cane) (m : Mask) (i : Nat) (x : Mask) : (c.setP m i x).wg = c.wg := by unfold Cane.setP; split <;> rfl
@[simp] theorem Cane.setP_core (c : Cane) (m : Mask) (i : Nat) (x : Mask) : (c.setP m i x).core = c.core := by unfold Cane.setP; split <;> rfl
@[simp] theorem Cane.setP_slot (c : Cane) (m : Mask) (i : Nat) (x : Mask) : (c.setP m i x).slot = c.slot := by unfold Cane.setP; split <;> rfl
@[simp] theorem Cane.setP_v (c : Cane) (m : Mask) (i : Nat) (x : Mask) : (c.setP m i x).v = c.v := by unfold Cane.setP; split <;> rfl
@[simp] theorem Cane.setP_rowPoison (c : Cane) (m : Mask) (i : Nat) (x : Mask) : (c.setP m i x).rowPoison = c.rowPoison := by unfold Cane.setP; split <;> rfl
@[simp] theorem Cane.setP_a (c : Cane) (m : Mask) (i : Nat) (x : Mask) : (c.setP m i x).a = c.a := by unfold Cane.setP; split <;> rfl
@[simp] theorem Cane.setP_mode (c : Cane) (m : Mask) (i : Nat) (x : Mask) : (c.setP m i x).mode = c.mode := by unfold Cane.setP; split <;> rfl
@[simp] theorem Cane.setP_flags (c : Cane) (m : Mask) (i : Nat) (x : Mask) : (c.setP m i x).flags = c.flags := by unfold Cane.setP; split <;> rfl
@[simp] theorem Cane.setP_link (c : Cane) (m : Mask) (i : Nat) (x : Mask) : (c.setP m i x).link = c.link := by unfold Cane.setP; split <;> rfl
@[simp] theorem Cane.setP_pc (c : Cane) (m : Mask) (i : Nat) (x : Mask) : (c.setP m i x).pc = c.pc := by unfold Cane.setP; split <;> rfl
@[simp] theorem Cane.setP_stack (c : Cane) (m : Mask) (i : Nat) (x : Mask) : (c.setP m i x).stack = c.stack := by unfold Cane.setP; split <;> rfl
@[simp] theorem Cane.setP_recon (c : Cane) (m : Mask) (i : Nat) (x : Mask) : (c.setP m i x).recon = c.recon := by unfold Cane.setP; split <;> rfl
@[simp] theorem Cane.setP_qmask (c : Cane) (m : Mask) (i : Nat) (x : Mask) : (c.setP m i x).qmask = c.qmask := by unfold Cane.setP; split <;> rfl
@[simp] theorem Cane.setP_lfsr (c : Cane) (m : Mask) (i : Nat) (x : Mask) : (c.setP m i x).lfsr = c.lfsr := by unfold Cane.setP; split <;> rfl
@[simp] theorem Cane.setP_epc (c : Cane) (m : Mask) (i : Nat) (x : Mask) : (c.setP m i x).epc = c.epc := by unfold Cane.setP; split <;> rfl
@[simp] theorem Cane.setP_estat (c : Cane) (m : Mask) (i : Nat) (x : Mask) : (c.setP m i x).estat = c.estat := by unfold Cane.setP; split <;> rfl
@[simp] theorem Cane.setP_emask (c : Cane) (m : Mask) (i : Nat) (x : Mask) : (c.setP m i x).emask = c.emask := by unfold Cane.setP; split <;> rfl
@[simp] theorem Cane.setP_earg (c : Cane) (m : Mask) (i : Nat) (x : Mask) : (c.setP m i x).earg = c.earg := by unfold Cane.setP; split <;> rfl
@[simp] theorem Cane.setP_tvec (c : Cane) (m : Mask) (i : Nat) (x : Mask) : (c.setP m i x).tvec = c.tvec := by unfold Cane.setP; split <;> rfl
@[simp] theorem Cane.setP_priv (c : Cane) (m : Mask) (i : Nat) (x : Mask) : (c.setP m i x).priv = c.priv := by unfold Cane.setP; split <;> rfl
@[simp] theorem Cane.setP_gfm (c : Cane) (m : Mask) (i : Nat) (x : Mask) : (c.setP m i x).gfm = c.gfm := by unfold Cane.setP; split <;> rfl
@[simp] theorem Cane.setP_watch (c : Cane) (m : Mask) (i : Nat) (x : Mask) : (c.setP m i x).watch = c.watch := by unfold Cane.setP; split <;> rfl
@[simp] theorem Cane.setP_arrivals (c : Cane) (m : Mask) (i : Nat) (x : Mask) : (c.setP m i x).arrivals = c.arrivals := by unfold Cane.setP; split <;> rfl
@[simp] theorem Cane.setP_sealCount (c : Cane) (m : Mask) (i : Nat) (x : Mask) : (c.setP m i x).sealCount = c.sealCount := by unfold Cane.setP; split <;> rfl
@[simp] theorem Cane.setP_openPending (c : Cane) (m : Mask) (i : Nat) (x : Mask) : (c.setP m i x).openPending = c.openPending := by unfold Cane.setP; split <;> rfl
@[simp] theorem Cane.setP_openUsed (c : Cane) (m : Mask) (i : Nat) (x : Mask) : (c.setP m i x).openUsed = c.openUsed := by unfold Cane.setP; split <;> rfl
@[simp] theorem Cane.setP_openErr (c : Cane) (m : Mask) (i : Nat) (x : Mask) : (c.setP m i x).openErr = c.openErr := by unfold Cane.setP; split <;> rfl
@[simp] theorem Cane.setP_batches (c : Cane) (m : Mask) (i : Nat) (x : Mask) : (c.setP m i x).batches = c.batches := by unfold Cane.setP; split <;> rfl
@[simp] theorem Cane.setP_waitSet (c : Cane) (m : Mask) (i : Nat) (x : Mask) : (c.setP m i x).waitSet = c.waitSet := by unfold Cane.setP; split <;> rfl
@[simp] theorem Cane.setP_waitErr (c : Cane) (m : Mask) (i : Nat) (x : Mask) : (c.setP m i x).waitErr = c.waitErr := by unfold Cane.setP; split <;> rfl
@[simp] theorem Cane.setP_unfenced (c : Cane) (m : Mask) (i : Nat) (x : Mask) : (c.setP m i x).unfenced = c.unfenced := by unfold Cane.setP; split <;> rfl
@[simp] theorem Cane.setP_seen (c : Cane) (m : Mask) (i : Nat) (x : Mask) : (c.setP m i x).seen = c.seen := by unfold Cane.setP; split <;> rfl
@[simp] theorem Cane.setP_fenceScope (c : Cane) (m : Mask) (i : Nat) (x : Mask) : (c.setP m i x).fenceScope = c.fenceScope := by unfold Cane.setP; split <;> rfl
@[simp] theorem Cane.setP_nreg (c : Cane) (m : Mask) (i : Nat) (x : Mask) : (c.setP m i x).nreg = c.nreg := by unfold Cane.setP; split <;> rfl
@[simp] theorem Cane.setP_stripe (c : Cane) (m : Mask) (i : Nat) (x : Mask) : (c.setP m i x).stripe = c.stripe := by unfold Cane.setP; split <;> rfl
@[simp] theorem Cane.setP_ext0 (c : Cane) (m : Mask) (i : Nat) (x : Mask) : (c.setP m i x).ext0 = c.ext0 := by unfold Cane.setP; split <;> rfl
@[simp] theorem Cane.setP_ext1 (c : Cane) (m : Mask) (i : Nat) (x : Mask) : (c.setP m i x).ext1 = c.ext1 := by unfold Cane.setP; split <;> rfl
@[simp] theorem Cane.setP_wcnt (c : Cane) (m : Mask) (i : Nat) (x : Mask) : (c.setP m i x).wcnt = c.wcnt := by unfold Cane.setP; split <;> rfl
@[simp] theorem Cane.setP_dcnt (c : Cane) (m : Mask) (i : Nat) (x : Mask) : (c.setP m i x).dcnt = c.dcnt := by unfold Cane.setP; split <;> rfl
@[simp] theorem Cane.setP_hcnt (c : Cane) (m : Mask) (i : Nat) (x : Mask) : (c.setP m i x).hcnt = c.hcnt := by unfold Cane.setP; split <;> rfl
@[simp] theorem Cane.setP_outstanding (c : Cane) (m : Mask) (i : Nat) (x : Mask) : (c.setP m i x).outstanding = c.outstanding := by unfold Cane.setP; split <;> rfl
@[simp] theorem Cane.setP_outPower (c : Cane) (m : Mask) (i : Nat) (x : Mask) : (c.setP m i x).outPower = c.outPower := by unfold Cane.setP; split <;> rfl
@[simp] theorem Cane.setP_sinceSwitch (c : Cane) (m : Mask) (i : Nat) (x : Mask) : (c.setP m i x).sinceSwitch = c.sinceSwitch := by unfold Cane.setP; split <;> rfl
@[simp] theorem Cane.setP_pipe (c : Cane) (m : Mask) (i : Nat) (x : Mask) : (c.setP m i x).pipe = c.pipe := by unfold Cane.setP; split <;> rfl
@[simp] theorem Cane.setP_readyAt (c : Cane) (m : Mask) (i : Nat) (x : Mask) : (c.setP m i x).readyAt = c.readyAt := by unfold Cane.setP; split <;> rfl
@[simp] theorem Cane.setP_parked (c : Cane) (m : Mask) (i : Nat) (x : Mask) : (c.setP m i x).parked = c.parked := by unfold Cane.setP; split <;> rfl
@[simp] theorem Cane.setP_aged (c : Cane) (m : Mask) (i : Nat) (x : Mask) : (c.setP m i x).aged = c.aged := by unfold Cane.setP; split <;> rfl
@[simp] theorem Cane.setP_wait (c : Cane) (m : Mask) (i : Nat) (x : Mask) : (c.setP m i x).wait = c.wait := by unfold Cane.setP; split <;> rfl
@[simp] theorem Cane.setP_need (c : Cane) (m : Mask) (i : Nat) (x : Mask) : (c.setP m i x).need = c.need := by unfold Cane.setP; split <;> rfl
@[simp] theorem Cane.setP_answer (c : Cane) (m : Mask) (i : Nat) (x : Mask) : (c.setP m i x).answer = c.answer := by unfold Cane.setP; split <;> rfl
@[simp] theorem Cane.setP_stage (c : Cane) (m : Mask) (i : Nat) (x : Mask) : (c.setP m i x).stage = c.stage := by unfold Cane.setP; split <;> rfl
@[simp] theorem Cane.setP_stageArg (c : Cane) (m : Mask) (i : Nat) (x : Mask) : (c.setP m i x).stageArg = c.stageArg := by unfold Cane.setP; split <;> rfl
@[simp] theorem Cane.setP_claim (c : Cane) (m : Mask) (i : Nat) (x : Mask) : (c.setP m i x).claim = c.claim := by unfold Cane.setP; split <;> rfl
@[simp] theorem Cane.setP_supArg (c : Cane) (m : Mask) (i : Nat) (x : Mask) : (c.setP m i x).supArg = c.supArg := by unfold Cane.setP; split <;> rfl
@[simp] theorem Cane.setP_parkLeaf (c : Cane) (m : Mask) (i : Nat) (x : Mask) : (c.setP m i x).parkLeaf = c.parkLeaf := by unfold Cane.setP; split <;> rfl
@[simp] theorem Cane.setP_saccSeen (c : Cane) (m : Mask) (i : Nat) (x : Mask) : (c.setP m i x).saccSeen = c.saccSeen := by unfold Cane.setP; split <;> rfl
@[simp] theorem Cane.setP_entered (c : Cane) (m : Mask) (i : Nat) (x : Mask) : (c.setP m i x).entered = c.entered := by unfold Cane.setP; split <;> rfl
@[simp] theorem Cane.setP_denied (c : Cane) (m : Mask) (i : Nat) (x : Mask) : (c.setP m i x).denied = c.denied := by unfold Cane.setP; split <;> rfl
@[simp] theorem Cane.setP_routine (c : Cane) (m : Mask) (i : Nat) (x : Mask) : (c.setP m i x).routine = c.routine := by unfold Cane.setP; split <;> rfl
@[simp] theorem Cane.setP_routineDone (c : Cane) (m : Mask) (i : Nat) (x : Mask) : (c.setP m i x).routineDone = c.routineDone := by unfold Cane.setP; split <;> rfl
@[simp] theorem Cane.setP_vectored (c : Cane) (m : Mask) (i : Nat) (x : Mask) : (c.setP m i x).vectored = c.vectored := by unfold Cane.setP; split <;> rfl
@[simp] theorem Cane.setP_vecPc (c : Cane) (m : Mask) (i : Nat) (x : Mask) : (c.setP m i x).vecPc = c.vecPc := by unfold Cane.setP; split <;> rfl
@[simp] theorem Cane.setP_vecRecon (c : Cane) (m : Mask) (i : Nat) (x : Mask) : (c.setP m i x).vecRecon = c.vecRecon := by unfold Cane.setP; split <;> rfl
@[simp] theorem Cane.setP_stepping (c : Cane) (m : Mask) (i : Nat) (x : Mask) : (c.setP m i x).stepping = c.stepping := by unfold Cane.setP; split <;> rfl
@[simp] theorem Cane.setP_passBreak (c : Cane) (m : Mask) (i : Nat) (x : Mask) : (c.setP m i x).passBreak = c.passBreak := by unfold Cane.setP; split <;> rfl
@[simp] theorem Cane.setP_passBkpt (c : Cane) (m : Mask) (i : Nat) (x : Mask) : (c.setP m i x).passBkpt = c.passBkpt := by unfold Cane.setP; split <;> rfl
@[simp] theorem Cane.setP_passWatch (c : Cane) (m : Mask) (i : Nat) (x : Mask) : (c.setP m i x).passWatch = c.passWatch := by unfold Cane.setP; split <;> rfl
@[simp] theorem Cane.setP_halting (c : Cane) (m : Mask) (i : Nat) (x : Mask) : (c.setP m i x).halting = c.halting := by unfold Cane.setP; split <;> rfl
@[simp] theorem Cane.setP_noted (c : Cane) (m : Mask) (i : Nat) (x : Mask) : (c.setP m i x).noted = c.noted := by unfold Cane.setP; split <;> rfl
@[simp] theorem Cane.setP_hash (c : Cane) (m : Mask) (i : Nat) (x : Mask) : (c.setP m i x).hash = c.hash := by unfold Cane.setP; split <;> rfl
@[simp] theorem Cane.setP_lastPc (c : Cane) (m : Mask) (i : Nat) (x : Mask) : (c.setP m i x).lastPc = c.lastPc := by unfold Cane.setP; split <;> rfl
@[simp] theorem Cane.setP_lastStop (c : Cane) (m : Mask) (i : Nat) (x : Mask) : (c.setP m i x).lastStop = c.lastStop := by unfold Cane.setP; split <;> rfl

/-! ## Cane.advance -/

@[simp] theorem Cane.advance_id (c : Cane) (pc : Dword) (n : Nat) : (c.advance pc n).id = c.id := rfl
@[simp] theorem Cane.advance_live (c : Cane) (pc : Dword) (n : Nat) : (c.advance pc n).live = c.live := rfl
@[simp] theorem Cane.advance_idx (c : Cane) (pc : Dword) (n : Nat) : (c.advance pc n).idx = c.idx := rfl
@[simp] theorem Cane.advance_wg (c : Cane) (pc : Dword) (n : Nat) : (c.advance pc n).wg = c.wg := rfl
@[simp] theorem Cane.advance_core (c : Cane) (pc : Dword) (n : Nat) : (c.advance pc n).core = c.core := rfl
@[simp] theorem Cane.advance_slot (c : Cane) (pc : Dword) (n : Nat) : (c.advance pc n).slot = c.slot := rfl
@[simp] theorem Cane.advance_v (c : Cane) (pc : Dword) (n : Nat) : (c.advance pc n).v = c.v := rfl
@[simp] theorem Cane.advance_rowPoison (c : Cane) (pc : Dword) (n : Nat) : (c.advance pc n).rowPoison = c.rowPoison := rfl
@[simp] theorem Cane.advance_a (c : Cane) (pc : Dword) (n : Nat) : (c.advance pc n).a = c.a := rfl
@[simp] theorem Cane.advance_p (c : Cane) (pc : Dword) (n : Nat) : (c.advance pc n).p = c.p := rfl
@[simp] theorem Cane.advance_mode (c : Cane) (pc : Dword) (n : Nat) : (c.advance pc n).mode = c.mode := rfl
@[simp] theorem Cane.advance_flags (c : Cane) (pc : Dword) (n : Nat) : (c.advance pc n).flags = c.flags := rfl
@[simp] theorem Cane.advance_link (c : Cane) (pc : Dword) (n : Nat) : (c.advance pc n).link = c.link := rfl
@[simp] theorem Cane.advance_stack (c : Cane) (pc : Dword) (n : Nat) : (c.advance pc n).stack = c.stack := rfl
@[simp] theorem Cane.advance_recon (c : Cane) (pc : Dword) (n : Nat) : (c.advance pc n).recon = c.recon := rfl
@[simp] theorem Cane.advance_qmask (c : Cane) (pc : Dword) (n : Nat) : (c.advance pc n).qmask = c.qmask := rfl
@[simp] theorem Cane.advance_lfsr (c : Cane) (pc : Dword) (n : Nat) : (c.advance pc n).lfsr = c.lfsr := rfl
@[simp] theorem Cane.advance_epc (c : Cane) (pc : Dword) (n : Nat) : (c.advance pc n).epc = c.epc := rfl
@[simp] theorem Cane.advance_estat (c : Cane) (pc : Dword) (n : Nat) : (c.advance pc n).estat = c.estat := rfl
@[simp] theorem Cane.advance_emask (c : Cane) (pc : Dword) (n : Nat) : (c.advance pc n).emask = c.emask := rfl
@[simp] theorem Cane.advance_earg (c : Cane) (pc : Dword) (n : Nat) : (c.advance pc n).earg = c.earg := rfl
@[simp] theorem Cane.advance_tvec (c : Cane) (pc : Dword) (n : Nat) : (c.advance pc n).tvec = c.tvec := rfl
@[simp] theorem Cane.advance_priv (c : Cane) (pc : Dword) (n : Nat) : (c.advance pc n).priv = c.priv := rfl
@[simp] theorem Cane.advance_gfm (c : Cane) (pc : Dword) (n : Nat) : (c.advance pc n).gfm = c.gfm := rfl
@[simp] theorem Cane.advance_watch (c : Cane) (pc : Dword) (n : Nat) : (c.advance pc n).watch = c.watch := rfl
@[simp] theorem Cane.advance_arrivals (c : Cane) (pc : Dword) (n : Nat) : (c.advance pc n).arrivals = c.arrivals := rfl
@[simp] theorem Cane.advance_sealCount (c : Cane) (pc : Dword) (n : Nat) : (c.advance pc n).sealCount = c.sealCount := rfl
@[simp] theorem Cane.advance_openPending (c : Cane) (pc : Dword) (n : Nat) : (c.advance pc n).openPending = c.openPending := rfl
@[simp] theorem Cane.advance_openUsed (c : Cane) (pc : Dword) (n : Nat) : (c.advance pc n).openUsed = c.openUsed := rfl
@[simp] theorem Cane.advance_openErr (c : Cane) (pc : Dword) (n : Nat) : (c.advance pc n).openErr = c.openErr := rfl
@[simp] theorem Cane.advance_batches (c : Cane) (pc : Dword) (n : Nat) : (c.advance pc n).batches = c.batches := rfl
@[simp] theorem Cane.advance_waitSet (c : Cane) (pc : Dword) (n : Nat) : (c.advance pc n).waitSet = c.waitSet := rfl
@[simp] theorem Cane.advance_waitErr (c : Cane) (pc : Dword) (n : Nat) : (c.advance pc n).waitErr = c.waitErr := rfl
@[simp] theorem Cane.advance_unfenced (c : Cane) (pc : Dword) (n : Nat) : (c.advance pc n).unfenced = c.unfenced := rfl
@[simp] theorem Cane.advance_seen (c : Cane) (pc : Dword) (n : Nat) : (c.advance pc n).seen = c.seen := rfl
@[simp] theorem Cane.advance_fenceScope (c : Cane) (pc : Dword) (n : Nat) : (c.advance pc n).fenceScope = c.fenceScope := rfl
@[simp] theorem Cane.advance_nreg (c : Cane) (pc : Dword) (n : Nat) : (c.advance pc n).nreg = c.nreg := rfl
@[simp] theorem Cane.advance_stripe (c : Cane) (pc : Dword) (n : Nat) : (c.advance pc n).stripe = c.stripe := rfl
@[simp] theorem Cane.advance_ext0 (c : Cane) (pc : Dword) (n : Nat) : (c.advance pc n).ext0 = c.ext0 := rfl
@[simp] theorem Cane.advance_ext1 (c : Cane) (pc : Dword) (n : Nat) : (c.advance pc n).ext1 = c.ext1 := rfl
@[simp] theorem Cane.advance_wcnt (c : Cane) (pc : Dword) (n : Nat) : (c.advance pc n).wcnt = c.wcnt := rfl
@[simp] theorem Cane.advance_dcnt (c : Cane) (pc : Dword) (n : Nat) : (c.advance pc n).dcnt = c.dcnt := rfl
@[simp] theorem Cane.advance_hcnt (c : Cane) (pc : Dword) (n : Nat) : (c.advance pc n).hcnt = c.hcnt := rfl
@[simp] theorem Cane.advance_outstanding (c : Cane) (pc : Dword) (n : Nat) : (c.advance pc n).outstanding = c.outstanding := rfl
@[simp] theorem Cane.advance_outPower (c : Cane) (pc : Dword) (n : Nat) : (c.advance pc n).outPower = c.outPower := rfl
@[simp] theorem Cane.advance_pipe (c : Cane) (pc : Dword) (n : Nat) : (c.advance pc n).pipe = c.pipe := rfl
@[simp] theorem Cane.advance_parked (c : Cane) (pc : Dword) (n : Nat) : (c.advance pc n).parked = c.parked := rfl
@[simp] theorem Cane.advance_need (c : Cane) (pc : Dword) (n : Nat) : (c.advance pc n).need = c.need := rfl
@[simp] theorem Cane.advance_routine (c : Cane) (pc : Dword) (n : Nat) : (c.advance pc n).routine = c.routine := rfl
@[simp] theorem Cane.advance_routineDone (c : Cane) (pc : Dword) (n : Nat) : (c.advance pc n).routineDone = c.routineDone := rfl
@[simp] theorem Cane.advance_vectored (c : Cane) (pc : Dword) (n : Nat) : (c.advance pc n).vectored = c.vectored := rfl
@[simp] theorem Cane.advance_vecPc (c : Cane) (pc : Dword) (n : Nat) : (c.advance pc n).vecPc = c.vecPc := rfl
@[simp] theorem Cane.advance_vecRecon (c : Cane) (pc : Dword) (n : Nat) : (c.advance pc n).vecRecon = c.vecRecon := rfl
@[simp] theorem Cane.advance_stepping (c : Cane) (pc : Dword) (n : Nat) : (c.advance pc n).stepping = c.stepping := rfl
@[simp] theorem Cane.advance_halting (c : Cane) (pc : Dword) (n : Nat) : (c.advance pc n).halting = c.halting := rfl
@[simp] theorem Cane.advance_hash (c : Cane) (pc : Dword) (n : Nat) : (c.advance pc n).hash = c.hash := rfl
@[simp] theorem Cane.advance_lastPc (c : Cane) (pc : Dword) (n : Nat) : (c.advance pc n).lastPc = c.lastPc := rfl
@[simp] theorem Cane.advance_lastStop (c : Cane) (pc : Dword) (n : Nat) : (c.advance pc n).lastStop = c.lastStop := rfl

/-! ## Cane.switch -/

@[simp] theorem Cane.switch_id (c : Cane) : (c.switch).id = c.id := rfl
@[simp] theorem Cane.switch_live (c : Cane) : (c.switch).live = c.live := rfl
@[simp] theorem Cane.switch_idx (c : Cane) : (c.switch).idx = c.idx := rfl
@[simp] theorem Cane.switch_wg (c : Cane) : (c.switch).wg = c.wg := rfl
@[simp] theorem Cane.switch_core (c : Cane) : (c.switch).core = c.core := rfl
@[simp] theorem Cane.switch_slot (c : Cane) : (c.switch).slot = c.slot := rfl
@[simp] theorem Cane.switch_v (c : Cane) : (c.switch).v = c.v := rfl
@[simp] theorem Cane.switch_rowPoison (c : Cane) : (c.switch).rowPoison = c.rowPoison := rfl
@[simp] theorem Cane.switch_a (c : Cane) : (c.switch).a = c.a := rfl
@[simp] theorem Cane.switch_p (c : Cane) : (c.switch).p = c.p := rfl
@[simp] theorem Cane.switch_mode (c : Cane) : (c.switch).mode = c.mode := rfl
@[simp] theorem Cane.switch_flags (c : Cane) : (c.switch).flags = c.flags := rfl
@[simp] theorem Cane.switch_link (c : Cane) : (c.switch).link = c.link := rfl
@[simp] theorem Cane.switch_pc (c : Cane) : (c.switch).pc = c.pc := rfl
@[simp] theorem Cane.switch_stack (c : Cane) : (c.switch).stack = c.stack := rfl
@[simp] theorem Cane.switch_recon (c : Cane) : (c.switch).recon = c.recon := rfl
@[simp] theorem Cane.switch_qmask (c : Cane) : (c.switch).qmask = c.qmask := rfl
@[simp] theorem Cane.switch_lfsr (c : Cane) : (c.switch).lfsr = c.lfsr := rfl
@[simp] theorem Cane.switch_epc (c : Cane) : (c.switch).epc = c.epc := rfl
@[simp] theorem Cane.switch_estat (c : Cane) : (c.switch).estat = c.estat := rfl
@[simp] theorem Cane.switch_emask (c : Cane) : (c.switch).emask = c.emask := rfl
@[simp] theorem Cane.switch_earg (c : Cane) : (c.switch).earg = c.earg := rfl
@[simp] theorem Cane.switch_tvec (c : Cane) : (c.switch).tvec = c.tvec := rfl
@[simp] theorem Cane.switch_priv (c : Cane) : (c.switch).priv = c.priv := rfl
@[simp] theorem Cane.switch_gfm (c : Cane) : (c.switch).gfm = c.gfm := rfl
@[simp] theorem Cane.switch_watch (c : Cane) : (c.switch).watch = c.watch := rfl
@[simp] theorem Cane.switch_arrivals (c : Cane) : (c.switch).arrivals = c.arrivals := rfl
@[simp] theorem Cane.switch_sealCount (c : Cane) : (c.switch).sealCount = c.sealCount := rfl
@[simp] theorem Cane.switch_openPending (c : Cane) : (c.switch).openPending = c.openPending := rfl
@[simp] theorem Cane.switch_openUsed (c : Cane) : (c.switch).openUsed = c.openUsed := rfl
@[simp] theorem Cane.switch_openErr (c : Cane) : (c.switch).openErr = c.openErr := rfl
@[simp] theorem Cane.switch_batches (c : Cane) : (c.switch).batches = c.batches := rfl
@[simp] theorem Cane.switch_waitSet (c : Cane) : (c.switch).waitSet = c.waitSet := rfl
@[simp] theorem Cane.switch_waitErr (c : Cane) : (c.switch).waitErr = c.waitErr := rfl
@[simp] theorem Cane.switch_unfenced (c : Cane) : (c.switch).unfenced = c.unfenced := rfl
@[simp] theorem Cane.switch_seen (c : Cane) : (c.switch).seen = c.seen := rfl
@[simp] theorem Cane.switch_fenceScope (c : Cane) : (c.switch).fenceScope = c.fenceScope := rfl
@[simp] theorem Cane.switch_nreg (c : Cane) : (c.switch).nreg = c.nreg := rfl
@[simp] theorem Cane.switch_stripe (c : Cane) : (c.switch).stripe = c.stripe := rfl
@[simp] theorem Cane.switch_ext0 (c : Cane) : (c.switch).ext0 = c.ext0 := rfl
@[simp] theorem Cane.switch_ext1 (c : Cane) : (c.switch).ext1 = c.ext1 := rfl
@[simp] theorem Cane.switch_wcnt (c : Cane) : (c.switch).wcnt = c.wcnt := rfl
@[simp] theorem Cane.switch_dcnt (c : Cane) : (c.switch).dcnt = c.dcnt := rfl
@[simp] theorem Cane.switch_hcnt (c : Cane) : (c.switch).hcnt = c.hcnt := rfl
@[simp] theorem Cane.switch_outstanding (c : Cane) : (c.switch).outstanding = c.outstanding := rfl
@[simp] theorem Cane.switch_outPower (c : Cane) : (c.switch).outPower = c.outPower := rfl
@[simp] theorem Cane.switch_readyAt (c : Cane) : (c.switch).readyAt = c.readyAt := rfl
@[simp] theorem Cane.switch_parked (c : Cane) : (c.switch).parked = c.parked := rfl
@[simp] theorem Cane.switch_aged (c : Cane) : (c.switch).aged = c.aged := rfl
@[simp] theorem Cane.switch_need (c : Cane) : (c.switch).need = c.need := rfl
@[simp] theorem Cane.switch_answer (c : Cane) : (c.switch).answer = c.answer := rfl
@[simp] theorem Cane.switch_stage (c : Cane) : (c.switch).stage = c.stage := rfl
@[simp] theorem Cane.switch_stageArg (c : Cane) : (c.switch).stageArg = c.stageArg := rfl
@[simp] theorem Cane.switch_claim (c : Cane) : (c.switch).claim = c.claim := rfl
@[simp] theorem Cane.switch_supArg (c : Cane) : (c.switch).supArg = c.supArg := rfl
@[simp] theorem Cane.switch_parkLeaf (c : Cane) : (c.switch).parkLeaf = c.parkLeaf := rfl
@[simp] theorem Cane.switch_saccSeen (c : Cane) : (c.switch).saccSeen = c.saccSeen := rfl
@[simp] theorem Cane.switch_entered (c : Cane) : (c.switch).entered = c.entered := rfl
@[simp] theorem Cane.switch_denied (c : Cane) : (c.switch).denied = c.denied := rfl
@[simp] theorem Cane.switch_routine (c : Cane) : (c.switch).routine = c.routine := rfl
@[simp] theorem Cane.switch_routineDone (c : Cane) : (c.switch).routineDone = c.routineDone := rfl
@[simp] theorem Cane.switch_vectored (c : Cane) : (c.switch).vectored = c.vectored := rfl
@[simp] theorem Cane.switch_vecPc (c : Cane) : (c.switch).vecPc = c.vecPc := rfl
@[simp] theorem Cane.switch_vecRecon (c : Cane) : (c.switch).vecRecon = c.vecRecon := rfl
@[simp] theorem Cane.switch_stepping (c : Cane) : (c.switch).stepping = c.stepping := rfl
@[simp] theorem Cane.switch_passBreak (c : Cane) : (c.switch).passBreak = c.passBreak := rfl
@[simp] theorem Cane.switch_passBkpt (c : Cane) : (c.switch).passBkpt = c.passBkpt := rfl
@[simp] theorem Cane.switch_passWatch (c : Cane) : (c.switch).passWatch = c.passWatch := rfl
@[simp] theorem Cane.switch_halting (c : Cane) : (c.switch).halting = c.halting := rfl
@[simp] theorem Cane.switch_noted (c : Cane) : (c.switch).noted = c.noted := rfl
@[simp] theorem Cane.switch_hash (c : Cane) : (c.switch).hash = c.hash := rfl
@[simp] theorem Cane.switch_lastPc (c : Cane) : (c.switch).lastPc = c.lastPc := rfl
@[simp] theorem Cane.switch_lastStop (c : Cane) : (c.switch).lastStop = c.lastStop := rfl

/-! ## Cane.raiseFlags -/

@[simp] theorem Cane.raiseFlags_id (c : Cane) (w : Word) : (c.raiseFlags w).id = c.id := rfl
@[simp] theorem Cane.raiseFlags_live (c : Cane) (w : Word) : (c.raiseFlags w).live = c.live := rfl
@[simp] theorem Cane.raiseFlags_idx (c : Cane) (w : Word) : (c.raiseFlags w).idx = c.idx := rfl
@[simp] theorem Cane.raiseFlags_wg (c : Cane) (w : Word) : (c.raiseFlags w).wg = c.wg := rfl
@[simp] theorem Cane.raiseFlags_core (c : Cane) (w : Word) : (c.raiseFlags w).core = c.core := rfl
@[simp] theorem Cane.raiseFlags_slot (c : Cane) (w : Word) : (c.raiseFlags w).slot = c.slot := rfl
@[simp] theorem Cane.raiseFlags_v (c : Cane) (w : Word) : (c.raiseFlags w).v = c.v := rfl
@[simp] theorem Cane.raiseFlags_rowPoison (c : Cane) (w : Word) : (c.raiseFlags w).rowPoison = c.rowPoison := rfl
@[simp] theorem Cane.raiseFlags_a (c : Cane) (w : Word) : (c.raiseFlags w).a = c.a := rfl
@[simp] theorem Cane.raiseFlags_p (c : Cane) (w : Word) : (c.raiseFlags w).p = c.p := rfl
@[simp] theorem Cane.raiseFlags_mode (c : Cane) (w : Word) : (c.raiseFlags w).mode = c.mode := rfl
@[simp] theorem Cane.raiseFlags_link (c : Cane) (w : Word) : (c.raiseFlags w).link = c.link := rfl
@[simp] theorem Cane.raiseFlags_pc (c : Cane) (w : Word) : (c.raiseFlags w).pc = c.pc := rfl
@[simp] theorem Cane.raiseFlags_stack (c : Cane) (w : Word) : (c.raiseFlags w).stack = c.stack := rfl
@[simp] theorem Cane.raiseFlags_recon (c : Cane) (w : Word) : (c.raiseFlags w).recon = c.recon := rfl
@[simp] theorem Cane.raiseFlags_qmask (c : Cane) (w : Word) : (c.raiseFlags w).qmask = c.qmask := rfl
@[simp] theorem Cane.raiseFlags_lfsr (c : Cane) (w : Word) : (c.raiseFlags w).lfsr = c.lfsr := rfl
@[simp] theorem Cane.raiseFlags_epc (c : Cane) (w : Word) : (c.raiseFlags w).epc = c.epc := rfl
@[simp] theorem Cane.raiseFlags_estat (c : Cane) (w : Word) : (c.raiseFlags w).estat = c.estat := rfl
@[simp] theorem Cane.raiseFlags_emask (c : Cane) (w : Word) : (c.raiseFlags w).emask = c.emask := rfl
@[simp] theorem Cane.raiseFlags_earg (c : Cane) (w : Word) : (c.raiseFlags w).earg = c.earg := rfl
@[simp] theorem Cane.raiseFlags_tvec (c : Cane) (w : Word) : (c.raiseFlags w).tvec = c.tvec := rfl
@[simp] theorem Cane.raiseFlags_priv (c : Cane) (w : Word) : (c.raiseFlags w).priv = c.priv := rfl
@[simp] theorem Cane.raiseFlags_gfm (c : Cane) (w : Word) : (c.raiseFlags w).gfm = c.gfm := rfl
@[simp] theorem Cane.raiseFlags_watch (c : Cane) (w : Word) : (c.raiseFlags w).watch = c.watch := rfl
@[simp] theorem Cane.raiseFlags_arrivals (c : Cane) (w : Word) : (c.raiseFlags w).arrivals = c.arrivals := rfl
@[simp] theorem Cane.raiseFlags_sealCount (c : Cane) (w : Word) : (c.raiseFlags w).sealCount = c.sealCount := rfl
@[simp] theorem Cane.raiseFlags_openPending (c : Cane) (w : Word) : (c.raiseFlags w).openPending = c.openPending := rfl
@[simp] theorem Cane.raiseFlags_openUsed (c : Cane) (w : Word) : (c.raiseFlags w).openUsed = c.openUsed := rfl
@[simp] theorem Cane.raiseFlags_openErr (c : Cane) (w : Word) : (c.raiseFlags w).openErr = c.openErr := rfl
@[simp] theorem Cane.raiseFlags_batches (c : Cane) (w : Word) : (c.raiseFlags w).batches = c.batches := rfl
@[simp] theorem Cane.raiseFlags_waitSet (c : Cane) (w : Word) : (c.raiseFlags w).waitSet = c.waitSet := rfl
@[simp] theorem Cane.raiseFlags_waitErr (c : Cane) (w : Word) : (c.raiseFlags w).waitErr = c.waitErr := rfl
@[simp] theorem Cane.raiseFlags_unfenced (c : Cane) (w : Word) : (c.raiseFlags w).unfenced = c.unfenced := rfl
@[simp] theorem Cane.raiseFlags_seen (c : Cane) (w : Word) : (c.raiseFlags w).seen = c.seen := rfl
@[simp] theorem Cane.raiseFlags_fenceScope (c : Cane) (w : Word) : (c.raiseFlags w).fenceScope = c.fenceScope := rfl
@[simp] theorem Cane.raiseFlags_nreg (c : Cane) (w : Word) : (c.raiseFlags w).nreg = c.nreg := rfl
@[simp] theorem Cane.raiseFlags_stripe (c : Cane) (w : Word) : (c.raiseFlags w).stripe = c.stripe := rfl
@[simp] theorem Cane.raiseFlags_ext0 (c : Cane) (w : Word) : (c.raiseFlags w).ext0 = c.ext0 := rfl
@[simp] theorem Cane.raiseFlags_ext1 (c : Cane) (w : Word) : (c.raiseFlags w).ext1 = c.ext1 := rfl
@[simp] theorem Cane.raiseFlags_wcnt (c : Cane) (w : Word) : (c.raiseFlags w).wcnt = c.wcnt := rfl
@[simp] theorem Cane.raiseFlags_dcnt (c : Cane) (w : Word) : (c.raiseFlags w).dcnt = c.dcnt := rfl
@[simp] theorem Cane.raiseFlags_hcnt (c : Cane) (w : Word) : (c.raiseFlags w).hcnt = c.hcnt := rfl
@[simp] theorem Cane.raiseFlags_outstanding (c : Cane) (w : Word) : (c.raiseFlags w).outstanding = c.outstanding := rfl
@[simp] theorem Cane.raiseFlags_outPower (c : Cane) (w : Word) : (c.raiseFlags w).outPower = c.outPower := rfl
@[simp] theorem Cane.raiseFlags_sinceSwitch (c : Cane) (w : Word) : (c.raiseFlags w).sinceSwitch = c.sinceSwitch := rfl
@[simp] theorem Cane.raiseFlags_pipe (c : Cane) (w : Word) : (c.raiseFlags w).pipe = c.pipe := rfl
@[simp] theorem Cane.raiseFlags_readyAt (c : Cane) (w : Word) : (c.raiseFlags w).readyAt = c.readyAt := rfl
@[simp] theorem Cane.raiseFlags_parked (c : Cane) (w : Word) : (c.raiseFlags w).parked = c.parked := rfl
@[simp] theorem Cane.raiseFlags_aged (c : Cane) (w : Word) : (c.raiseFlags w).aged = c.aged := rfl
@[simp] theorem Cane.raiseFlags_wait (c : Cane) (w : Word) : (c.raiseFlags w).wait = c.wait := rfl
@[simp] theorem Cane.raiseFlags_need (c : Cane) (w : Word) : (c.raiseFlags w).need = c.need := rfl
@[simp] theorem Cane.raiseFlags_answer (c : Cane) (w : Word) : (c.raiseFlags w).answer = c.answer := rfl
@[simp] theorem Cane.raiseFlags_stage (c : Cane) (w : Word) : (c.raiseFlags w).stage = c.stage := rfl
@[simp] theorem Cane.raiseFlags_stageArg (c : Cane) (w : Word) : (c.raiseFlags w).stageArg = c.stageArg := rfl
@[simp] theorem Cane.raiseFlags_claim (c : Cane) (w : Word) : (c.raiseFlags w).claim = c.claim := rfl
@[simp] theorem Cane.raiseFlags_supArg (c : Cane) (w : Word) : (c.raiseFlags w).supArg = c.supArg := rfl
@[simp] theorem Cane.raiseFlags_parkLeaf (c : Cane) (w : Word) : (c.raiseFlags w).parkLeaf = c.parkLeaf := rfl
@[simp] theorem Cane.raiseFlags_saccSeen (c : Cane) (w : Word) : (c.raiseFlags w).saccSeen = c.saccSeen := rfl
@[simp] theorem Cane.raiseFlags_entered (c : Cane) (w : Word) : (c.raiseFlags w).entered = c.entered := rfl
@[simp] theorem Cane.raiseFlags_denied (c : Cane) (w : Word) : (c.raiseFlags w).denied = c.denied := rfl
@[simp] theorem Cane.raiseFlags_routine (c : Cane) (w : Word) : (c.raiseFlags w).routine = c.routine := rfl
@[simp] theorem Cane.raiseFlags_routineDone (c : Cane) (w : Word) : (c.raiseFlags w).routineDone = c.routineDone := rfl
@[simp] theorem Cane.raiseFlags_vectored (c : Cane) (w : Word) : (c.raiseFlags w).vectored = c.vectored := rfl
@[simp] theorem Cane.raiseFlags_vecPc (c : Cane) (w : Word) : (c.raiseFlags w).vecPc = c.vecPc := rfl
@[simp] theorem Cane.raiseFlags_vecRecon (c : Cane) (w : Word) : (c.raiseFlags w).vecRecon = c.vecRecon := rfl
@[simp] theorem Cane.raiseFlags_stepping (c : Cane) (w : Word) : (c.raiseFlags w).stepping = c.stepping := rfl
@[simp] theorem Cane.raiseFlags_passBreak (c : Cane) (w : Word) : (c.raiseFlags w).passBreak = c.passBreak := rfl
@[simp] theorem Cane.raiseFlags_passBkpt (c : Cane) (w : Word) : (c.raiseFlags w).passBkpt = c.passBkpt := rfl
@[simp] theorem Cane.raiseFlags_passWatch (c : Cane) (w : Word) : (c.raiseFlags w).passWatch = c.passWatch := rfl
@[simp] theorem Cane.raiseFlags_halting (c : Cane) (w : Word) : (c.raiseFlags w).halting = c.halting := rfl
@[simp] theorem Cane.raiseFlags_noted (c : Cane) (w : Word) : (c.raiseFlags w).noted = c.noted := rfl
@[simp] theorem Cane.raiseFlags_hash (c : Cane) (w : Word) : (c.raiseFlags w).hash = c.hash := rfl
@[simp] theorem Cane.raiseFlags_lastPc (c : Cane) (w : Word) : (c.raiseFlags w).lastPc = c.lastPc := rfl
@[simp] theorem Cane.raiseFlags_lastStop (c : Cane) (w : Word) : (c.raiseFlags w).lastStop = c.lastStop := rfl

/-! ## Cane.stepLfsr -/

@[simp] theorem Cane.stepLfsr_id (c : Cane) (u : Bool) (m : Mask) (n : Nat) : (c.stepLfsr u m n).id = c.id := rfl
@[simp] theorem Cane.stepLfsr_live (c : Cane) (u : Bool) (m : Mask) (n : Nat) : (c.stepLfsr u m n).live = c.live := rfl
@[simp] theorem Cane.stepLfsr_idx (c : Cane) (u : Bool) (m : Mask) (n : Nat) : (c.stepLfsr u m n).idx = c.idx := rfl
@[simp] theorem Cane.stepLfsr_wg (c : Cane) (u : Bool) (m : Mask) (n : Nat) : (c.stepLfsr u m n).wg = c.wg := rfl
@[simp] theorem Cane.stepLfsr_core (c : Cane) (u : Bool) (m : Mask) (n : Nat) : (c.stepLfsr u m n).core = c.core := rfl
@[simp] theorem Cane.stepLfsr_slot (c : Cane) (u : Bool) (m : Mask) (n : Nat) : (c.stepLfsr u m n).slot = c.slot := rfl
@[simp] theorem Cane.stepLfsr_v (c : Cane) (u : Bool) (m : Mask) (n : Nat) : (c.stepLfsr u m n).v = c.v := rfl
@[simp] theorem Cane.stepLfsr_rowPoison (c : Cane) (u : Bool) (m : Mask) (n : Nat) : (c.stepLfsr u m n).rowPoison = c.rowPoison := rfl
@[simp] theorem Cane.stepLfsr_a (c : Cane) (u : Bool) (m : Mask) (n : Nat) : (c.stepLfsr u m n).a = c.a := rfl
@[simp] theorem Cane.stepLfsr_p (c : Cane) (u : Bool) (m : Mask) (n : Nat) : (c.stepLfsr u m n).p = c.p := rfl
@[simp] theorem Cane.stepLfsr_mode (c : Cane) (u : Bool) (m : Mask) (n : Nat) : (c.stepLfsr u m n).mode = c.mode := rfl
@[simp] theorem Cane.stepLfsr_flags (c : Cane) (u : Bool) (m : Mask) (n : Nat) : (c.stepLfsr u m n).flags = c.flags := rfl
@[simp] theorem Cane.stepLfsr_link (c : Cane) (u : Bool) (m : Mask) (n : Nat) : (c.stepLfsr u m n).link = c.link := rfl
@[simp] theorem Cane.stepLfsr_pc (c : Cane) (u : Bool) (m : Mask) (n : Nat) : (c.stepLfsr u m n).pc = c.pc := rfl
@[simp] theorem Cane.stepLfsr_stack (c : Cane) (u : Bool) (m : Mask) (n : Nat) : (c.stepLfsr u m n).stack = c.stack := rfl
@[simp] theorem Cane.stepLfsr_recon (c : Cane) (u : Bool) (m : Mask) (n : Nat) : (c.stepLfsr u m n).recon = c.recon := rfl
@[simp] theorem Cane.stepLfsr_qmask (c : Cane) (u : Bool) (m : Mask) (n : Nat) : (c.stepLfsr u m n).qmask = c.qmask := rfl
@[simp] theorem Cane.stepLfsr_epc (c : Cane) (u : Bool) (m : Mask) (n : Nat) : (c.stepLfsr u m n).epc = c.epc := rfl
@[simp] theorem Cane.stepLfsr_estat (c : Cane) (u : Bool) (m : Mask) (n : Nat) : (c.stepLfsr u m n).estat = c.estat := rfl
@[simp] theorem Cane.stepLfsr_emask (c : Cane) (u : Bool) (m : Mask) (n : Nat) : (c.stepLfsr u m n).emask = c.emask := rfl
@[simp] theorem Cane.stepLfsr_earg (c : Cane) (u : Bool) (m : Mask) (n : Nat) : (c.stepLfsr u m n).earg = c.earg := rfl
@[simp] theorem Cane.stepLfsr_tvec (c : Cane) (u : Bool) (m : Mask) (n : Nat) : (c.stepLfsr u m n).tvec = c.tvec := rfl
@[simp] theorem Cane.stepLfsr_priv (c : Cane) (u : Bool) (m : Mask) (n : Nat) : (c.stepLfsr u m n).priv = c.priv := rfl
@[simp] theorem Cane.stepLfsr_gfm (c : Cane) (u : Bool) (m : Mask) (n : Nat) : (c.stepLfsr u m n).gfm = c.gfm := rfl
@[simp] theorem Cane.stepLfsr_watch (c : Cane) (u : Bool) (m : Mask) (n : Nat) : (c.stepLfsr u m n).watch = c.watch := rfl
@[simp] theorem Cane.stepLfsr_arrivals (c : Cane) (u : Bool) (m : Mask) (n : Nat) : (c.stepLfsr u m n).arrivals = c.arrivals := rfl
@[simp] theorem Cane.stepLfsr_sealCount (c : Cane) (u : Bool) (m : Mask) (n : Nat) : (c.stepLfsr u m n).sealCount = c.sealCount := rfl
@[simp] theorem Cane.stepLfsr_openPending (c : Cane) (u : Bool) (m : Mask) (n : Nat) : (c.stepLfsr u m n).openPending = c.openPending := rfl
@[simp] theorem Cane.stepLfsr_openUsed (c : Cane) (u : Bool) (m : Mask) (n : Nat) : (c.stepLfsr u m n).openUsed = c.openUsed := rfl
@[simp] theorem Cane.stepLfsr_openErr (c : Cane) (u : Bool) (m : Mask) (n : Nat) : (c.stepLfsr u m n).openErr = c.openErr := rfl
@[simp] theorem Cane.stepLfsr_batches (c : Cane) (u : Bool) (m : Mask) (n : Nat) : (c.stepLfsr u m n).batches = c.batches := rfl
@[simp] theorem Cane.stepLfsr_waitSet (c : Cane) (u : Bool) (m : Mask) (n : Nat) : (c.stepLfsr u m n).waitSet = c.waitSet := rfl
@[simp] theorem Cane.stepLfsr_waitErr (c : Cane) (u : Bool) (m : Mask) (n : Nat) : (c.stepLfsr u m n).waitErr = c.waitErr := rfl
@[simp] theorem Cane.stepLfsr_unfenced (c : Cane) (u : Bool) (m : Mask) (n : Nat) : (c.stepLfsr u m n).unfenced = c.unfenced := rfl
@[simp] theorem Cane.stepLfsr_seen (c : Cane) (u : Bool) (m : Mask) (n : Nat) : (c.stepLfsr u m n).seen = c.seen := rfl
@[simp] theorem Cane.stepLfsr_fenceScope (c : Cane) (u : Bool) (m : Mask) (n : Nat) : (c.stepLfsr u m n).fenceScope = c.fenceScope := rfl
@[simp] theorem Cane.stepLfsr_nreg (c : Cane) (u : Bool) (m : Mask) (n : Nat) : (c.stepLfsr u m n).nreg = c.nreg := rfl
@[simp] theorem Cane.stepLfsr_stripe (c : Cane) (u : Bool) (m : Mask) (n : Nat) : (c.stepLfsr u m n).stripe = c.stripe := rfl
@[simp] theorem Cane.stepLfsr_ext0 (c : Cane) (u : Bool) (m : Mask) (n : Nat) : (c.stepLfsr u m n).ext0 = c.ext0 := rfl
@[simp] theorem Cane.stepLfsr_ext1 (c : Cane) (u : Bool) (m : Mask) (n : Nat) : (c.stepLfsr u m n).ext1 = c.ext1 := rfl
@[simp] theorem Cane.stepLfsr_wcnt (c : Cane) (u : Bool) (m : Mask) (n : Nat) : (c.stepLfsr u m n).wcnt = c.wcnt := rfl
@[simp] theorem Cane.stepLfsr_dcnt (c : Cane) (u : Bool) (m : Mask) (n : Nat) : (c.stepLfsr u m n).dcnt = c.dcnt := rfl
@[simp] theorem Cane.stepLfsr_hcnt (c : Cane) (u : Bool) (m : Mask) (n : Nat) : (c.stepLfsr u m n).hcnt = c.hcnt := rfl
@[simp] theorem Cane.stepLfsr_outstanding (c : Cane) (u : Bool) (m : Mask) (n : Nat) : (c.stepLfsr u m n).outstanding = c.outstanding := rfl
@[simp] theorem Cane.stepLfsr_outPower (c : Cane) (u : Bool) (m : Mask) (n : Nat) : (c.stepLfsr u m n).outPower = c.outPower := rfl
@[simp] theorem Cane.stepLfsr_sinceSwitch (c : Cane) (u : Bool) (m : Mask) (n : Nat) : (c.stepLfsr u m n).sinceSwitch = c.sinceSwitch := rfl
@[simp] theorem Cane.stepLfsr_pipe (c : Cane) (u : Bool) (m : Mask) (n : Nat) : (c.stepLfsr u m n).pipe = c.pipe := rfl
@[simp] theorem Cane.stepLfsr_readyAt (c : Cane) (u : Bool) (m : Mask) (n : Nat) : (c.stepLfsr u m n).readyAt = c.readyAt := rfl
@[simp] theorem Cane.stepLfsr_parked (c : Cane) (u : Bool) (m : Mask) (n : Nat) : (c.stepLfsr u m n).parked = c.parked := rfl
@[simp] theorem Cane.stepLfsr_aged (c : Cane) (u : Bool) (m : Mask) (n : Nat) : (c.stepLfsr u m n).aged = c.aged := rfl
@[simp] theorem Cane.stepLfsr_wait (c : Cane) (u : Bool) (m : Mask) (n : Nat) : (c.stepLfsr u m n).wait = c.wait := rfl
@[simp] theorem Cane.stepLfsr_need (c : Cane) (u : Bool) (m : Mask) (n : Nat) : (c.stepLfsr u m n).need = c.need := rfl
@[simp] theorem Cane.stepLfsr_answer (c : Cane) (u : Bool) (m : Mask) (n : Nat) : (c.stepLfsr u m n).answer = c.answer := rfl
@[simp] theorem Cane.stepLfsr_stage (c : Cane) (u : Bool) (m : Mask) (n : Nat) : (c.stepLfsr u m n).stage = c.stage := rfl
@[simp] theorem Cane.stepLfsr_stageArg (c : Cane) (u : Bool) (m : Mask) (n : Nat) : (c.stepLfsr u m n).stageArg = c.stageArg := rfl
@[simp] theorem Cane.stepLfsr_claim (c : Cane) (u : Bool) (m : Mask) (n : Nat) : (c.stepLfsr u m n).claim = c.claim := rfl
@[simp] theorem Cane.stepLfsr_supArg (c : Cane) (u : Bool) (m : Mask) (n : Nat) : (c.stepLfsr u m n).supArg = c.supArg := rfl
@[simp] theorem Cane.stepLfsr_parkLeaf (c : Cane) (u : Bool) (m : Mask) (n : Nat) : (c.stepLfsr u m n).parkLeaf = c.parkLeaf := rfl
@[simp] theorem Cane.stepLfsr_saccSeen (c : Cane) (u : Bool) (m : Mask) (n : Nat) : (c.stepLfsr u m n).saccSeen = c.saccSeen := rfl
@[simp] theorem Cane.stepLfsr_entered (c : Cane) (u : Bool) (m : Mask) (n : Nat) : (c.stepLfsr u m n).entered = c.entered := rfl
@[simp] theorem Cane.stepLfsr_denied (c : Cane) (u : Bool) (m : Mask) (n : Nat) : (c.stepLfsr u m n).denied = c.denied := rfl
@[simp] theorem Cane.stepLfsr_routine (c : Cane) (u : Bool) (m : Mask) (n : Nat) : (c.stepLfsr u m n).routine = c.routine := rfl
@[simp] theorem Cane.stepLfsr_routineDone (c : Cane) (u : Bool) (m : Mask) (n : Nat) : (c.stepLfsr u m n).routineDone = c.routineDone := rfl
@[simp] theorem Cane.stepLfsr_vectored (c : Cane) (u : Bool) (m : Mask) (n : Nat) : (c.stepLfsr u m n).vectored = c.vectored := rfl
@[simp] theorem Cane.stepLfsr_vecPc (c : Cane) (u : Bool) (m : Mask) (n : Nat) : (c.stepLfsr u m n).vecPc = c.vecPc := rfl
@[simp] theorem Cane.stepLfsr_vecRecon (c : Cane) (u : Bool) (m : Mask) (n : Nat) : (c.stepLfsr u m n).vecRecon = c.vecRecon := rfl
@[simp] theorem Cane.stepLfsr_stepping (c : Cane) (u : Bool) (m : Mask) (n : Nat) : (c.stepLfsr u m n).stepping = c.stepping := rfl
@[simp] theorem Cane.stepLfsr_passBreak (c : Cane) (u : Bool) (m : Mask) (n : Nat) : (c.stepLfsr u m n).passBreak = c.passBreak := rfl
@[simp] theorem Cane.stepLfsr_passBkpt (c : Cane) (u : Bool) (m : Mask) (n : Nat) : (c.stepLfsr u m n).passBkpt = c.passBkpt := rfl
@[simp] theorem Cane.stepLfsr_passWatch (c : Cane) (u : Bool) (m : Mask) (n : Nat) : (c.stepLfsr u m n).passWatch = c.passWatch := rfl
@[simp] theorem Cane.stepLfsr_halting (c : Cane) (u : Bool) (m : Mask) (n : Nat) : (c.stepLfsr u m n).halting = c.halting := rfl
@[simp] theorem Cane.stepLfsr_noted (c : Cane) (u : Bool) (m : Mask) (n : Nat) : (c.stepLfsr u m n).noted = c.noted := rfl
@[simp] theorem Cane.stepLfsr_hash (c : Cane) (u : Bool) (m : Mask) (n : Nat) : (c.stepLfsr u m n).hash = c.hash := rfl
@[simp] theorem Cane.stepLfsr_lastPc (c : Cane) (u : Bool) (m : Mask) (n : Nat) : (c.stepLfsr u m n).lastPc = c.lastPc := rfl
@[simp] theorem Cane.stepLfsr_lastStop (c : Cane) (u : Bool) (m : Mask) (n : Nat) : (c.stepLfsr u m n).lastStop = c.lastStop := rfl

/-! ## Cane.retireLanes -/

@[simp] theorem Cane.retireLanes_id (c : Cane) : (c.retireLanes).id = c.id := rfl
@[simp] theorem Cane.retireLanes_live (c : Cane) : (c.retireLanes).live = c.live := rfl
@[simp] theorem Cane.retireLanes_idx (c : Cane) : (c.retireLanes).idx = c.idx := rfl
@[simp] theorem Cane.retireLanes_wg (c : Cane) : (c.retireLanes).wg = c.wg := rfl
@[simp] theorem Cane.retireLanes_core (c : Cane) : (c.retireLanes).core = c.core := rfl
@[simp] theorem Cane.retireLanes_slot (c : Cane) : (c.retireLanes).slot = c.slot := rfl
@[simp] theorem Cane.retireLanes_v (c : Cane) : (c.retireLanes).v = c.v := rfl
@[simp] theorem Cane.retireLanes_rowPoison (c : Cane) : (c.retireLanes).rowPoison = c.rowPoison := rfl
@[simp] theorem Cane.retireLanes_a (c : Cane) : (c.retireLanes).a = c.a := rfl
@[simp] theorem Cane.retireLanes_p (c : Cane) : (c.retireLanes).p = c.p := rfl
@[simp] theorem Cane.retireLanes_mode (c : Cane) : (c.retireLanes).mode = c.mode := rfl
@[simp] theorem Cane.retireLanes_flags (c : Cane) : (c.retireLanes).flags = c.flags := rfl
@[simp] theorem Cane.retireLanes_link (c : Cane) : (c.retireLanes).link = c.link := rfl
@[simp] theorem Cane.retireLanes_pc (c : Cane) : (c.retireLanes).pc = c.pc := rfl
@[simp] theorem Cane.retireLanes_recon (c : Cane) : (c.retireLanes).recon = c.recon := rfl
@[simp] theorem Cane.retireLanes_qmask (c : Cane) : (c.retireLanes).qmask = c.qmask := rfl
@[simp] theorem Cane.retireLanes_lfsr (c : Cane) : (c.retireLanes).lfsr = c.lfsr := rfl
@[simp] theorem Cane.retireLanes_epc (c : Cane) : (c.retireLanes).epc = c.epc := rfl
@[simp] theorem Cane.retireLanes_estat (c : Cane) : (c.retireLanes).estat = c.estat := rfl
@[simp] theorem Cane.retireLanes_emask (c : Cane) : (c.retireLanes).emask = c.emask := rfl
@[simp] theorem Cane.retireLanes_earg (c : Cane) : (c.retireLanes).earg = c.earg := rfl
@[simp] theorem Cane.retireLanes_tvec (c : Cane) : (c.retireLanes).tvec = c.tvec := rfl
@[simp] theorem Cane.retireLanes_priv (c : Cane) : (c.retireLanes).priv = c.priv := rfl
@[simp] theorem Cane.retireLanes_gfm (c : Cane) : (c.retireLanes).gfm = c.gfm := rfl
@[simp] theorem Cane.retireLanes_watch (c : Cane) : (c.retireLanes).watch = c.watch := rfl
@[simp] theorem Cane.retireLanes_arrivals (c : Cane) : (c.retireLanes).arrivals = c.arrivals := rfl
@[simp] theorem Cane.retireLanes_sealCount (c : Cane) : (c.retireLanes).sealCount = c.sealCount := rfl
@[simp] theorem Cane.retireLanes_openPending (c : Cane) : (c.retireLanes).openPending = c.openPending := rfl
@[simp] theorem Cane.retireLanes_openUsed (c : Cane) : (c.retireLanes).openUsed = c.openUsed := rfl
@[simp] theorem Cane.retireLanes_openErr (c : Cane) : (c.retireLanes).openErr = c.openErr := rfl
@[simp] theorem Cane.retireLanes_batches (c : Cane) : (c.retireLanes).batches = c.batches := rfl
@[simp] theorem Cane.retireLanes_waitSet (c : Cane) : (c.retireLanes).waitSet = c.waitSet := rfl
@[simp] theorem Cane.retireLanes_waitErr (c : Cane) : (c.retireLanes).waitErr = c.waitErr := rfl
@[simp] theorem Cane.retireLanes_unfenced (c : Cane) : (c.retireLanes).unfenced = c.unfenced := rfl
@[simp] theorem Cane.retireLanes_seen (c : Cane) : (c.retireLanes).seen = c.seen := rfl
@[simp] theorem Cane.retireLanes_fenceScope (c : Cane) : (c.retireLanes).fenceScope = c.fenceScope := rfl
@[simp] theorem Cane.retireLanes_nreg (c : Cane) : (c.retireLanes).nreg = c.nreg := rfl
@[simp] theorem Cane.retireLanes_stripe (c : Cane) : (c.retireLanes).stripe = c.stripe := rfl
@[simp] theorem Cane.retireLanes_ext0 (c : Cane) : (c.retireLanes).ext0 = c.ext0 := rfl
@[simp] theorem Cane.retireLanes_ext1 (c : Cane) : (c.retireLanes).ext1 = c.ext1 := rfl
@[simp] theorem Cane.retireLanes_wcnt (c : Cane) : (c.retireLanes).wcnt = c.wcnt := rfl
@[simp] theorem Cane.retireLanes_dcnt (c : Cane) : (c.retireLanes).dcnt = c.dcnt := rfl
@[simp] theorem Cane.retireLanes_hcnt (c : Cane) : (c.retireLanes).hcnt = c.hcnt := rfl
@[simp] theorem Cane.retireLanes_outstanding (c : Cane) : (c.retireLanes).outstanding = c.outstanding := rfl
@[simp] theorem Cane.retireLanes_outPower (c : Cane) : (c.retireLanes).outPower = c.outPower := rfl
@[simp] theorem Cane.retireLanes_sinceSwitch (c : Cane) : (c.retireLanes).sinceSwitch = c.sinceSwitch := rfl
@[simp] theorem Cane.retireLanes_pipe (c : Cane) : (c.retireLanes).pipe = c.pipe := rfl
@[simp] theorem Cane.retireLanes_readyAt (c : Cane) : (c.retireLanes).readyAt = c.readyAt := rfl
@[simp] theorem Cane.retireLanes_parked (c : Cane) : (c.retireLanes).parked = c.parked := rfl
@[simp] theorem Cane.retireLanes_aged (c : Cane) : (c.retireLanes).aged = c.aged := rfl
@[simp] theorem Cane.retireLanes_wait (c : Cane) : (c.retireLanes).wait = c.wait := rfl
@[simp] theorem Cane.retireLanes_need (c : Cane) : (c.retireLanes).need = c.need := rfl
@[simp] theorem Cane.retireLanes_answer (c : Cane) : (c.retireLanes).answer = c.answer := rfl
@[simp] theorem Cane.retireLanes_stage (c : Cane) : (c.retireLanes).stage = c.stage := rfl
@[simp] theorem Cane.retireLanes_stageArg (c : Cane) : (c.retireLanes).stageArg = c.stageArg := rfl
@[simp] theorem Cane.retireLanes_claim (c : Cane) : (c.retireLanes).claim = c.claim := rfl
@[simp] theorem Cane.retireLanes_supArg (c : Cane) : (c.retireLanes).supArg = c.supArg := rfl
@[simp] theorem Cane.retireLanes_parkLeaf (c : Cane) : (c.retireLanes).parkLeaf = c.parkLeaf := rfl
@[simp] theorem Cane.retireLanes_saccSeen (c : Cane) : (c.retireLanes).saccSeen = c.saccSeen := rfl
@[simp] theorem Cane.retireLanes_entered (c : Cane) : (c.retireLanes).entered = c.entered := rfl
@[simp] theorem Cane.retireLanes_denied (c : Cane) : (c.retireLanes).denied = c.denied := rfl
@[simp] theorem Cane.retireLanes_routine (c : Cane) : (c.retireLanes).routine = c.routine := rfl
@[simp] theorem Cane.retireLanes_routineDone (c : Cane) : (c.retireLanes).routineDone = c.routineDone := rfl
@[simp] theorem Cane.retireLanes_vectored (c : Cane) : (c.retireLanes).vectored = c.vectored := rfl
@[simp] theorem Cane.retireLanes_vecPc (c : Cane) : (c.retireLanes).vecPc = c.vecPc := rfl
@[simp] theorem Cane.retireLanes_vecRecon (c : Cane) : (c.retireLanes).vecRecon = c.vecRecon := rfl
@[simp] theorem Cane.retireLanes_stepping (c : Cane) : (c.retireLanes).stepping = c.stepping := rfl
@[simp] theorem Cane.retireLanes_passBreak (c : Cane) : (c.retireLanes).passBreak = c.passBreak := rfl
@[simp] theorem Cane.retireLanes_passBkpt (c : Cane) : (c.retireLanes).passBkpt = c.passBkpt := rfl
@[simp] theorem Cane.retireLanes_passWatch (c : Cane) : (c.retireLanes).passWatch = c.passWatch := rfl
@[simp] theorem Cane.retireLanes_halting (c : Cane) : (c.retireLanes).halting = c.halting := rfl
@[simp] theorem Cane.retireLanes_noted (c : Cane) : (c.retireLanes).noted = c.noted := rfl
@[simp] theorem Cane.retireLanes_hash (c : Cane) : (c.retireLanes).hash = c.hash := rfl
@[simp] theorem Cane.retireLanes_lastPc (c : Cane) : (c.retireLanes).lastPc = c.lastPc := rfl
@[simp] theorem Cane.retireLanes_lastStop (c : Cane) : (c.retireLanes).lastStop = c.lastStop := rfl

/-! ## Cane.eret -/

@[simp] theorem Cane.eret_id (c : Cane) : (c.eret).id = c.id := rfl
@[simp] theorem Cane.eret_live (c : Cane) : (c.eret).live = c.live := rfl
@[simp] theorem Cane.eret_idx (c : Cane) : (c.eret).idx = c.idx := rfl
@[simp] theorem Cane.eret_wg (c : Cane) : (c.eret).wg = c.wg := rfl
@[simp] theorem Cane.eret_core (c : Cane) : (c.eret).core = c.core := rfl
@[simp] theorem Cane.eret_slot (c : Cane) : (c.eret).slot = c.slot := rfl
@[simp] theorem Cane.eret_v (c : Cane) : (c.eret).v = c.v := rfl
@[simp] theorem Cane.eret_rowPoison (c : Cane) : (c.eret).rowPoison = c.rowPoison := rfl
@[simp] theorem Cane.eret_a (c : Cane) : (c.eret).a = c.a := rfl
@[simp] theorem Cane.eret_p (c : Cane) : (c.eret).p = c.p := rfl
@[simp] theorem Cane.eret_mode (c : Cane) : (c.eret).mode = c.mode := rfl
@[simp] theorem Cane.eret_flags (c : Cane) : (c.eret).flags = c.flags := rfl
@[simp] theorem Cane.eret_link (c : Cane) : (c.eret).link = c.link := rfl
@[simp] theorem Cane.eret_qmask (c : Cane) : (c.eret).qmask = c.qmask := rfl
@[simp] theorem Cane.eret_lfsr (c : Cane) : (c.eret).lfsr = c.lfsr := rfl
@[simp] theorem Cane.eret_epc (c : Cane) : (c.eret).epc = c.epc := rfl
@[simp] theorem Cane.eret_emask (c : Cane) : (c.eret).emask = c.emask := rfl
@[simp] theorem Cane.eret_earg (c : Cane) : (c.eret).earg = c.earg := rfl
@[simp] theorem Cane.eret_tvec (c : Cane) : (c.eret).tvec = c.tvec := rfl
@[simp] theorem Cane.eret_gfm (c : Cane) : (c.eret).gfm = c.gfm := rfl
@[simp] theorem Cane.eret_watch (c : Cane) : (c.eret).watch = c.watch := rfl
@[simp] theorem Cane.eret_arrivals (c : Cane) : (c.eret).arrivals = c.arrivals := rfl
@[simp] theorem Cane.eret_sealCount (c : Cane) : (c.eret).sealCount = c.sealCount := rfl
@[simp] theorem Cane.eret_openPending (c : Cane) : (c.eret).openPending = c.openPending := rfl
@[simp] theorem Cane.eret_openUsed (c : Cane) : (c.eret).openUsed = c.openUsed := rfl
@[simp] theorem Cane.eret_openErr (c : Cane) : (c.eret).openErr = c.openErr := rfl
@[simp] theorem Cane.eret_batches (c : Cane) : (c.eret).batches = c.batches := rfl
@[simp] theorem Cane.eret_waitSet (c : Cane) : (c.eret).waitSet = c.waitSet := rfl
@[simp] theorem Cane.eret_waitErr (c : Cane) : (c.eret).waitErr = c.waitErr := rfl
@[simp] theorem Cane.eret_unfenced (c : Cane) : (c.eret).unfenced = c.unfenced := rfl
@[simp] theorem Cane.eret_seen (c : Cane) : (c.eret).seen = c.seen := rfl
@[simp] theorem Cane.eret_fenceScope (c : Cane) : (c.eret).fenceScope = c.fenceScope := rfl
@[simp] theorem Cane.eret_nreg (c : Cane) : (c.eret).nreg = c.nreg := rfl
@[simp] theorem Cane.eret_stripe (c : Cane) : (c.eret).stripe = c.stripe := rfl
@[simp] theorem Cane.eret_ext0 (c : Cane) : (c.eret).ext0 = c.ext0 := rfl
@[simp] theorem Cane.eret_ext1 (c : Cane) : (c.eret).ext1 = c.ext1 := rfl
@[simp] theorem Cane.eret_wcnt (c : Cane) : (c.eret).wcnt = c.wcnt := rfl
@[simp] theorem Cane.eret_dcnt (c : Cane) : (c.eret).dcnt = c.dcnt := rfl
@[simp] theorem Cane.eret_hcnt (c : Cane) : (c.eret).hcnt = c.hcnt := rfl
@[simp] theorem Cane.eret_outstanding (c : Cane) : (c.eret).outstanding = c.outstanding := rfl
@[simp] theorem Cane.eret_outPower (c : Cane) : (c.eret).outPower = c.outPower := rfl
@[simp] theorem Cane.eret_sinceSwitch (c : Cane) : (c.eret).sinceSwitch = c.sinceSwitch := rfl
@[simp] theorem Cane.eret_pipe (c : Cane) : (c.eret).pipe = c.pipe := rfl
@[simp] theorem Cane.eret_readyAt (c : Cane) : (c.eret).readyAt = c.readyAt := rfl
@[simp] theorem Cane.eret_parked (c : Cane) : (c.eret).parked = c.parked := rfl
@[simp] theorem Cane.eret_aged (c : Cane) : (c.eret).aged = c.aged := rfl
@[simp] theorem Cane.eret_wait (c : Cane) : (c.eret).wait = c.wait := rfl
@[simp] theorem Cane.eret_need (c : Cane) : (c.eret).need = c.need := rfl
@[simp] theorem Cane.eret_answer (c : Cane) : (c.eret).answer = c.answer := rfl
@[simp] theorem Cane.eret_stage (c : Cane) : (c.eret).stage = c.stage := rfl
@[simp] theorem Cane.eret_stageArg (c : Cane) : (c.eret).stageArg = c.stageArg := rfl
@[simp] theorem Cane.eret_claim (c : Cane) : (c.eret).claim = c.claim := rfl
@[simp] theorem Cane.eret_supArg (c : Cane) : (c.eret).supArg = c.supArg := rfl
@[simp] theorem Cane.eret_parkLeaf (c : Cane) : (c.eret).parkLeaf = c.parkLeaf := rfl
@[simp] theorem Cane.eret_saccSeen (c : Cane) : (c.eret).saccSeen = c.saccSeen := rfl
@[simp] theorem Cane.eret_entered (c : Cane) : (c.eret).entered = c.entered := rfl
@[simp] theorem Cane.eret_denied (c : Cane) : (c.eret).denied = c.denied := rfl
@[simp] theorem Cane.eret_routine (c : Cane) : (c.eret).routine = c.routine := rfl
@[simp] theorem Cane.eret_routineDone (c : Cane) : (c.eret).routineDone = c.routineDone := rfl
@[simp] theorem Cane.eret_vectored (c : Cane) : (c.eret).vectored = c.vectored := rfl
@[simp] theorem Cane.eret_vecPc (c : Cane) : (c.eret).vecPc = c.vecPc := rfl
@[simp] theorem Cane.eret_vecRecon (c : Cane) : (c.eret).vecRecon = c.vecRecon := rfl
@[simp] theorem Cane.eret_stepping (c : Cane) : (c.eret).stepping = c.stepping := rfl
@[simp] theorem Cane.eret_passBreak (c : Cane) : (c.eret).passBreak = c.passBreak := rfl
@[simp] theorem Cane.eret_passBkpt (c : Cane) : (c.eret).passBkpt = c.passBkpt := rfl
@[simp] theorem Cane.eret_passWatch (c : Cane) : (c.eret).passWatch = c.passWatch := rfl
@[simp] theorem Cane.eret_halting (c : Cane) : (c.eret).halting = c.halting := rfl
@[simp] theorem Cane.eret_noted (c : Cane) : (c.eret).noted = c.noted := rfl
@[simp] theorem Cane.eret_hash (c : Cane) : (c.eret).hash = c.hash := rfl
@[simp] theorem Cane.eret_lastPc (c : Cane) : (c.eret).lastPc = c.lastPc := rfl
@[simp] theorem Cane.eret_lastStop (c : Cane) : (c.eret).lastStop = c.lastStop := rfl

@[simp] theorem Cane.advance_pc (c : Cane) (pc : Dword) (n : Nat) : (c.advance pc n).pc = pc := rfl

end Sys2Proof.Machine
end

