-- ==== Sys2Proof/Laws/Memory.lean ====
section
/-! SUPPORT. The memory's canonical form is kept by every memory operation, and a read after a write gives the byte
written there and the old byte elsewhere. -/

namespace Sys2Proof.Machine

/-! ## The canonical form -/

/-- A cell is above a bound. -/
def Memory.above (n : Option Nat) (a : Nat) : Prop := ∀ k, n = some k → k < a

theorem Memory.wfAbove_cons {n : Option Nat} {a : Nat} {v : Byte} {m : List Host.Cell} :
    Memory.wfAbove n ((a, v) :: m) = true ↔
      Memory.above n a ∧ v ≠ Memory.blank ∧ Memory.wfAbove (some a) m = true := by
  cases n <;> simp [Memory.wfAbove, Memory.above, and_assoc]

/-- A canonical memory stays canonical under a lower bound. -/
theorem Memory.wfAbove_mono {n : Option Nat} {a : Nat} {m : List Host.Cell} (h : Memory.wfAbove (some a) m = true)
    (ha : Memory.above n a) : Memory.wfAbove n m = true := by
  cases m with
  | nil => simp [Memory.wfAbove]
  | cons c m =>
    obtain ⟨b, v⟩ := c
    rw [Memory.wfAbove_cons] at h ⊢
    exact ⟨fun k hk => Nat.lt_trans (ha k hk) (h.1 a rfl), h.2⟩

theorem Memory.cons_wf {n : Option Nat} {a : Nat} {v : Byte} {m : List Host.Cell} (ha : Memory.above n a)
    (h : Memory.wfAbove (some a) m = true) : Memory.wfAbove n (Memory.cons a v m) = true := by
  unfold Memory.cons
  split
  · exact Memory.wfAbove_mono h ha
  · exact Memory.wfAbove_cons.2 ⟨ha, ‹_›, h⟩

theorem Memory.write_wfAbove {n : Option Nat} {a : Nat} {v : Byte} {m : List Host.Cell} (ha : Memory.above n a)
    (h : Memory.wfAbove n m = true) : Memory.wfAbove n (Memory.write m a v) = true := by
  induction m generalizing n with
  | nil => exact Memory.cons_wf ha (by simp [Memory.wfAbove])
  | cons c m ih =>
    obtain ⟨b, w⟩ := c
    rw [Memory.wfAbove_cons] at h
    unfold Memory.write
    split
    · exact Memory.cons_wf ha (Memory.wfAbove_cons.2 ⟨fun k hk => by cases hk; assumption, h.2⟩)
    · split
      · subst ‹a = b›; exact Memory.cons_wf ha h.2.2
      · refine Memory.wfAbove_cons.2 ⟨h.1, h.2.1, ih (fun k hk => ?_) h.2.2⟩
        cases hk; omega

/-- One byte written keeps the canonical form. -/
theorem Memory.write_wf {m : List Host.Cell} (a : Nat) (v : Byte) (h : Memory.wf m = true) :
    Memory.wf (Memory.write m a v) = true := Memory.write_wfAbove (fun _ hk => by cases hk) h

/-- Bytes written keep the canonical form. -/
theorem Memory.writeBytes_wf {m : List Host.Cell} (a : Nat) (bs : List Byte) (h : Memory.wf m = true) :
    Memory.wf (Memory.writeBytes m a bs) = true := by
  induction bs generalizing m a with
  | nil => exact h
  | cons b bs ih => exact ih (a + 1) (Memory.write_wf a b h)

theorem Memory.filter_wfAbove {n : Option Nat} {m : List Host.Cell} (p : Host.Cell → Bool)
    (h : Memory.wfAbove n m = true) : Memory.wfAbove n (m.filter p) = true := by
  induction m generalizing n with
  | nil => simp [Memory.wfAbove]
  | cons c m ih =>
    obtain ⟨b, w⟩ := c
    rw [Memory.wfAbove_cons] at h
    rw [List.filter_cons]
    split
    · exact Memory.wfAbove_cons.2 ⟨h.1, h.2.1, ih h.2.2⟩
    · exact Memory.wfAbove_mono (ih h.2.2) h.1

/-- A cleared range keeps the canonical form. -/
theorem Memory.clearRange_wf {m : List Host.Cell} (lo n : Nat) (h : Memory.wf m = true) :
    Memory.wf (Memory.clearRange m lo n) = true := Memory.filter_wfAbove _ h

/-! ## Reads after writes -/

/-- An address below every cell reads blank. -/
theorem Memory.read_below {n a : Nat} {m : List Host.Cell} (h : Memory.wfAbove (some n) m = true) (ha : a ≤ n) :
    Memory.read m a = Memory.blank := by
  cases m with
  | nil => rfl
  | cons c m =>
    obtain ⟨b, w⟩ := c
    have := (Memory.wfAbove_cons.1 h).1 n rfl
    unfold Memory.read
    rw [if_pos (by omega)]

theorem Memory.read_cons_same {a : Nat} {v : Byte} {m : List Host.Cell} (h : Memory.wfAbove (some a) m = true) :
    Memory.read (Memory.cons a v m) a = v := by
  unfold Memory.cons
  split
  · rw [Memory.read_below h (Nat.le_refl a)]; exact Eq.symm ‹_›
  · simp [Memory.read]

theorem Memory.read_cons_other {a b : Nat} {v : Byte} {m : List Host.Cell} (h : Memory.wfAbove (some a) m = true)
    (hb : b ≠ a) : Memory.read (Memory.cons a v m) b = Memory.read m b := by
  unfold Memory.cons
  split
  · rfl
  · rw [Memory.read]
    split
    · exact (Memory.read_below h (by omega)).symm
    · rfl

theorem Memory.read_write_above {n : Option Nat} {a : Nat} {v : Byte} {m : List Host.Cell}
    (h : Memory.wfAbove n m = true) (ha : Memory.above n a) (b : Nat) :
    Memory.read (Memory.write m a v) b = if b = a then v else Memory.read m b := by
  induction m generalizing n with
  | nil =>
    have e : Memory.wfAbove (some a) [] = true := by simp [Memory.wfAbove]
    unfold Memory.write
    split
    · subst ‹b = a›; exact Memory.read_cons_same e
    · exact Memory.read_cons_other e ‹_›
  | cons c m ih =>
    obtain ⟨k, w⟩ := c
    rw [Memory.wfAbove_cons] at h
    unfold Memory.write
    split
    · have e : Memory.wfAbove (some a) ((k, w) :: m) = true :=
        Memory.wfAbove_cons.2 ⟨fun _ hk => by cases hk; assumption, h.2⟩
      split
      · subst ‹b = a›; exact Memory.read_cons_same e
      · exact Memory.read_cons_other e ‹_›
    · split
      · subst ‹a = k›
        split
        · subst ‹b = a›; exact Memory.read_cons_same h.2.2
        · rw [Memory.read_cons_other h.2.2 ‹_›, Memory.read]
          split
          · exact Memory.read_below h.2.2 (by omega)
          · rfl
      · have := ih (n := some k) h.2.2 (fun _ hk => by cases hk; omega)
        simp only [Memory.read, this]
        by_cases hb : b = a
        · subst hb; simp [‹¬b < k›, ‹¬b = k›]
        · simp [hb]

/-- A byte read after a byte was written. -/
theorem Memory.read_write {m : List Host.Cell} (h : Memory.wf m = true) (a b : Nat) (v : Byte) :
    Memory.read (Memory.write m a v) b = if b = a then v else Memory.read m b :=
  Memory.read_write_above h (fun _ hk => by cases hk) b

/-- A byte read after bytes were written. -/
theorem Memory.read_writeBytes {m : List Host.Cell} (h : Memory.wf m = true) (a b : Nat) (bs : List Byte) :
    Memory.read (Memory.writeBytes m a bs) b =
      if a ≤ b then (bs[b - a]?).getD (Memory.read m b) else Memory.read m b := by
  induction bs generalizing m a with
  | nil => simp [Memory.writeBytes]
  | cons v bs ih =>
    rw [Memory.writeBytes, ih (Memory.write_wf a v h) (a + 1), Memory.read_write h]
    by_cases hab : a + 1 ≤ b
    · obtain ⟨k, rfl⟩ : ∃ k, b = a + 1 + k := ⟨b - (a + 1), by omega⟩
      have e : a + 1 + k - a = k + 1 := by omega
      simp [e, show a ≤ a + 1 + k by omega, show ¬ a + 1 + k = a by omega]
    · by_cases hb : b = a
      · subst hb; simp
      · simp [hab, hb, show ¬ a ≤ b by omega]

/-- Equal memories are equal lists: canonical memories that read alike are the same. -/
theorem Memory.ext_above {n : Option Nat} {m k : List Host.Cell} (hm : Memory.wfAbove n m = true)
    (hk : Memory.wfAbove n k = true) (h : ∀ a, Memory.read m a = Memory.read k a) : m = k := by
  induction m generalizing n k with
  | nil =>
    cases k with
    | nil => rfl
    | cons c k =>
      obtain ⟨b, w⟩ := c
      have := h b
      simp [Memory.read] at this
      exact absurd this.symm (Memory.wfAbove_cons.1 hk).2.1
  | cons c m ih =>
    obtain ⟨a, v⟩ := c
    rw [Memory.wfAbove_cons] at hm
    cases k with
    | nil =>
      have := h a
      simp [Memory.read] at this
      exact absurd this hm.2.1
    | cons d k =>
      obtain ⟨b, w⟩ := d
      rw [Memory.wfAbove_cons] at hk
      have hab : a = b := by
        rcases Nat.lt_trichotomy a b with l | e | l
        · have := h a
          simp [Memory.read, l] at this
          exact absurd this hm.2.1
        · exact e
        · have := h b
          simp [Memory.read, l] at this
          exact absurd this.symm hk.2.1
      subst hab
      have hv : v = w := by simpa [Memory.read] using h a
      subst hv
      have : m = k := ih hm.2.2 hk.2.2 fun x => by
        rcases Nat.lt_trichotomy x a with l | e | l
        · rw [Memory.read_below hm.2.2 (by omega), Memory.read_below hk.2.2 (by omega)]
        · rw [Memory.read_below hm.2.2 (by omega), Memory.read_below hk.2.2 (by omega)]
        · have := h x
          simpa [Memory.read, show ¬ x < a by omega, show ¬ x = a by omega] using this
      rw [this]

/-- Canonical memories that read alike are equal. -/
theorem Memory.ext {m k : List Host.Cell} (hm : Memory.wf m = true) (hk : Memory.wf k = true)
    (h : ∀ a, Memory.read m a = Memory.read k a) : m = k := Memory.ext_above hm hk h

/-! ## The home memory -/

theorem State.plainMem_wf (s : State) (a : Nat) (h : Memory.wf s.mem = true) : Memory.wf (s.plainMem a) = true := by
  unfold State.plainMem
  split
  · exact Memory.writeBytes_wf _ _ h
  · exact h

/-- The home's canonical form is kept by writes to the home. -/
theorem State.writeHomeBytes_wf (s : State) (a : Nat) (bs : List Byte) (h : Memory.wf s.mem = true) :
    Memory.wf (s.writeHomeBytes a bs).mem = true := by
  induction bs generalizing s a with
  | nil => exact h
  | cons b bs ih => exact ih (s.writeHome a b) (a + 1) (Memory.write_wf a b (s.plainMem_wf a h))

/-- The package's memory at reset is canonical. -/
theorem State.reset_mem_wf : Memory.wf State.reset.mem = true := by decide

/-! ## Tables -/

@[simp] theorem getI_setI_same {α : Type} (d : α) (xs : List α) (i : Nat) (v : α) : getI d (setI d xs i v) i = v := by
  induction xs generalizing i with
  | nil => induction i with
    | zero => rfl
    | succ i ih => simpa [setI, getI] using ih
  | cons x xs ih => cases i with
    | zero => rfl
    | succ i => simpa [setI, getI] using ih i

theorem getI_setI_other {α : Type} (d : α) (xs : List α) (i j : Nat) (v : α) (h : j ≠ i) :
    getI d (setI d xs i v) j = getI d xs j := by
  induction xs generalizing i j with
  | nil =>
    induction i generalizing j with
    | zero => cases j with
      | zero => exact absurd rfl h
      | succ j => simp [setI, getI]
    | succ i ih => cases j with
      | zero => simp [setI, getI]
      | succ j => simpa [setI, getI] using ih j (by omega)
  | cons x xs ih => cases i with
    | zero => cases j with
      | zero => exact absurd rfl h
      | succ j => simp [setI, getI]
    | succ i => cases j with
      | zero => simp [setI, getI]
      | succ j => simpa [setI, getI] using ih i j (by omega)

/-- What a table holds after one entry was replaced. -/
theorem getI_setI {α : Type} (d : α) (xs : List α) (i j : Nat) (v : α) :
    getI d (setI d xs i v) j = if j = i then v else getI d xs j := by
  split
  · subst ‹j = i›; exact getI_setI_same d xs j v
  · exact getI_setI_other d xs i j v ‹_›

@[simp] theorem State.core_setCore (s : State) (i j : Nat) (c : Core) :
    (s.setCore i c).core j = if j = i then c else s.core j := getI_setI Core.zero s.cores i j c
@[simp] theorem State.cluster_setCluster (s : State) (i j : Nat) (k : Cluster) :
    (s.setCluster i k).cluster j = if j = i then k else s.cluster j := getI_setI Cluster.zero s.clusters i j k
@[simp] theorem State.die_setDie (s : State) (i j : Nat) (d : Die) :
    (s.setDie i d).die j = if j = i then d else s.die j := getI_setI Die.zero s.dies i j d
@[simp] theorem State.terrace_setTerrace (s : State) (i j : Nat) (t : Terrace) :
    (s.setTerrace i t).terrace j = if j = i then t else s.terrace j := getI_setI Terrace.zero s.terraces i j t

end Sys2Proof.Machine
end

