-- ==== Sys2Proof/Laws/Registers.lean ====
section
/-! SUPPORT. Reads of registers after writes of registers: one lemma for each write, with the blocks of MODE.BR and
MODE.BC. -/

namespace Sys2Proof.Machine

/-! ## Rows and lanes -/

theorem getI_map_range {α : Type} (d : α) (n : Nat) (f : Nat → α) (l : Nat) :
    getI d ((List.range n).map f) l = if l < n then f l else d := by
  have key : ∀ (k b : Nat), getI d ((List.range' b k).map f) l = if l < k then f (b + l) else d := by
    intro k
    induction k generalizing l with
    | zero => intro b; simp [getI]
    | succ k ih =>
      intro b
      rw [List.range'_succ, List.map_cons]
      cases l with
      | zero => simp [getI]
      | succ l => simp only [getI, ih, Nat.succ_lt_succ_iff]; rw [show b + 1 + l = b + (l + 1) by omega]
  have := key n 0
  rwa [← List.range_eq_range', Nat.zero_add] at this

/-- A lane of a merged row. -/
theorem getI_mergeRow (m : Mask) (old : List Word) (f : Nat → Word) (l : Nat) (h : l < 32) :
    getI 0 (mergeRow m old f) l = if m.getLsbD l then f l else getI 0 old l := by
  simp [mergeRow, lanes, getI_map_range, h]

/-- R7: a lane read after a register was written in some lanes. -/
theorem Cane.V_setV (c : Cane) (m : Mask) (i : Nat) (f : Nat → Word) (j l : Nat) (h : l < 32) :
    (c.setV m i f).V j l = if j = i ∧ m.getLsbD l = true then f l else c.V j l := by
  unfold Cane.V Cane.row Cane.setV
  rw [getI_setI]
  by_cases hj : j = i
  · simp only [hj, if_pos, true_and]
    rw [getI_mergeRow _ _ _ _ h]
    rfl
  · simp [hj]

/-- A pair of words put together again. -/
theorem Word.append_halves (x : Dword) : (x.extractLsb' 32 32 ++ x.extractLsb' 0 32 : Dword) = x := by
  ext i hi
  simp only [BitVec.getElem_append, BitVec.getElem_extractLsb']
  split
  · simp [BitVec.getLsbD_eq_getElem hi]
  · rename_i h
    rw [show 32 + (i - 32) = i by omega]
    exact BitVec.getLsbD_eq_getElem hi

/-- A lane read after a pair was written. -/
theorem Cane.V_setV64 (c : Cane) (m : Mask) (i : Nat) (f : Nat → Dword) (j l : Nat) (h : l < 32) :
    (c.setV64 m i f).V j l =
      if j = i + 1 ∧ m.getLsbD l = true then (f l).extractLsb' 32 32
      else if j = i ∧ m.getLsbD l = true then (f l).extractLsb' 0 32 else c.V j l := by
  rw [Cane.setV64, Cane.V_setV _ _ _ _ _ _ h, Cane.V_setV _ _ _ _ _ _ h]

/-- R36: a pair read in a lane in which it was written. -/
theorem Cane.V64_setV64 (c : Cane) (m : Mask) (i : Nat) (f : Nat → Dword) (l : Nat) (h : l < 32)
    (hm : m.getLsbD l = true) : (c.setV64 m i f).V64 i l = f l := by
  rw [Cane.V64, Cane.V_setV64 _ _ _ _ _ _ h, Cane.V_setV64 _ _ _ _ _ _ h]
  simp [hm, Word.append_halves]

/-- R8: an affine register read after one was written. -/
theorem Cane.aff_setA (c : Cane) (i : Nat) (x : Affine) (j : Nat) :
    (c.setA i x).aff j = if j = i then x else c.aff j := getI_setI _ _ _ _ _

/-- R9: a predicate read after one was written; a write of p0 is discarded. -/
theorem Cane.pred_setP (c : Cane) (m : Mask) (i : Nat) (x : Mask) (j : Nat) :
    (c.setP m i x).pred j = if j = i ∧ i ≠ 0 then (x &&& m) ||| (c.pred i &&& ~~~m) else c.pred j := by
  unfold Cane.setP
  by_cases hi : i = 0
  · simp [hi]
  · simp only [hi, if_false, Cane.pred, getI_setI]
    by_cases hj : j = i
    · subst hj; simp [hi]
    · simp [hj]

/-! ## Values and blocks (R54, R136, R146) -/

/-- The registers that hold the value at register i. -/
def valRegs (is64 : Bool) (i : Nat) : List Nat := if is64 then [i, i + 1] else [i]

theorem Cane.V_setVal_other (c : Cane) (is64 : Bool) (m : Mask) (i : Nat) (f : Nat → Nat) (j l : Nat) (h : l < 32)
    (ho : j ∉ valRegs is64 i ∨ m.getLsbD l = false) : (c.setVal is64 m i f).V j l = c.V j l := by
  unfold Cane.setVal
  cases is64
  · simp only [Bool.false_eq_true, if_false]
    rw [Cane.V_setV _ _ _ _ _ _ h, if_neg]
    rintro ⟨rfl, hm⟩
    simp [valRegs, hm] at ho
  · simp only [if_true]
    rw [Cane.V_setV64 _ _ _ _ _ _ h, if_neg, if_neg]
    · rintro ⟨rfl, hm⟩
      simp [valRegs, hm] at ho
    · rintro ⟨rfl, hm⟩
      simp [valRegs, hm] at ho

theorem Cane.val_setVal_same (c : Cane) (is64 : Bool) (m : Mask) (i : Nat) (f : Nat → Nat) (l : Nat) (h : l < 32)
    (hm : m.getLsbD l = true) :
    (c.setVal is64 m i f).val is64 i l = f l % (if is64 then 2 ^ 64 else 2 ^ 32) := by
  unfold Cane.setVal Cane.val
  cases is64
  · simp [Cane.V_setV _ _ _ _ _ _ h, hm]
  · simp [Cane.V64_setV64 _ _ _ _ _ h hm]

/-- A value is what its registers hold. -/
theorem Cane.val_congr {c k : Cane} {is64 : Bool} {i l : Nat} (h : ∀ j ∈ valRegs is64 i, c.V j l = k.V j l) :
    c.val is64 i l = k.val is64 i l := by
  cases is64
  · simp [Cane.val, h i (by simp [valRegs])]
  · simp [Cane.val, Cane.V64, h i (by simp [valRegs]), h (i + 1) (by simp [valRegs])]

/-- A register outside a block, or a lane outside the mask, keeps its value when the block is written. -/
theorem Cane.V_setBlock_other (offs : List Nat) (c : Cane) (is64 : Bool) (m : Mask) (d : Nat) (f : Nat → Nat → Nat)
    (j l : Nat) (h : l < 32) (ho : (∀ o ∈ offs, j ∉ valRegs is64 (d + o)) ∨ m.getLsbD l = false) :
    (c.setBlock is64 m d offs f).V j l = c.V j l := by
  induction offs generalizing c with
  | nil => rfl
  | cons o offs ih =>
    unfold Cane.setBlock
    rw [List.foldl_cons]
    have := ih (c.setVal is64 m (d + o) (f o)) (ho.imp (fun h' x hx => h' x (List.mem_cons_of_mem _ hx)) fun x => x)
    unfold Cane.setBlock at this
    rw [this]
    exact Cane.V_setVal_other _ _ _ _ _ _ _ h (ho.imp (fun h' => h' o List.mem_cons_self) fun x => x)

/-- Two elements of a block share no register. -/
def apart (is64 : Bool) (a b : Nat) : Prop := if is64 then a + 2 ≤ b ∨ b + 2 ≤ a else a ≠ b

/-- An element of a block in an active lane takes the value written for it. -/
theorem Cane.val_setBlock (offs : List Nat) (c : Cane) (is64 : Bool) (m : Mask) (d : Nat) (f : Nat → Nat → Nat)
    (o l : Nat) (h : l < 32) (hm : m.getLsbD l = true) (ho : o ∈ offs) (hp : offs.Pairwise (apart is64)) :
    (c.setBlock is64 m d offs f).val is64 (d + o) l = f o l % (if is64 then 2 ^ 64 else 2 ^ 32) := by
  induction offs generalizing c with
  | nil => cases ho
  | cons x offs ih =>
    unfold Cane.setBlock
    rw [List.foldl_cons]
    rw [List.pairwise_cons] at hp
    by_cases hx : o ∈ offs
    · exact ih (c.setVal is64 m (d + x) (f x)) hx hp.2
    · have e : o = x := by simpa [hx] using ho
      subst e
      rw [← Cane.val_setVal_same c is64 m (d + o) (f o) l h hm]
      apply Cane.val_congr
      intro j hj
      refine Cane.V_setBlock_other offs (c.setVal is64 m (d + o) (f o)) is64 m d f j l h (Or.inl fun y hy hj' => ?_)
      have := hp.1 y hy
      cases is64 <;> simp [valRegs, apart] at hj hj' this <;> omega

/-- The block's offsets share no register, when the block fits in its row of eight. -/
theorem Cane.blockOffsets_apart (c : Cane) (is64 : Bool) (h : (if is64 then 2 else 1) * (c.bc + 1) ≤ 8) :
    (c.blockOffsets is64).Pairwise (apart is64) := by
  unfold Cane.blockOffsets
  rw [List.pairwise_flatMap]
  constructor
  · intro i _
    rw [List.pairwise_map]
    refine List.Pairwise.imp ?_ List.pairwise_lt_range
    intro a b hab
    cases is64 <;> simp [apart] <;> omega
  · refine List.Pairwise.imp ?_ List.pairwise_lt_range
    intro i k hik x hx y hy
    simp only [List.mem_map, List.mem_range] at hx hy
    obtain ⟨a, ha, rfl⟩ := hx
    obtain ⟨b, hb, rfl⟩ := hy
    cases is64 <;> simp [apart] at h ⊢ <;> omega

/-- Only V rows and their poison change when a block is written. -/
theorem Cane.setBlock_eq (offs : List Nat) (c : Cane) (is64 : Bool) (m : Mask) (d : Nat) (f : Nat → Nat → Nat) :
    c.setBlock is64 m d offs f = { c with v := (c.setBlock is64 m d offs f).v,
                                          rowPoison := (c.setBlock is64 m d offs f).rowPoison } := by
  have one : ∀ (k : Cane) i (g : Nat → Nat), k.setVal is64 m i g =
      { k with v := (k.setVal is64 m i g).v, rowPoison := (k.setVal is64 m i g).rowPoison } := by
    intro k i g; unfold Cane.setVal; split <;> rfl
  induction offs generalizing c with
  | nil => rfl
  | cons o offs ih =>
    have e : c.setBlock is64 m d (o :: offs) f = (c.setVal is64 m (d + o) (f o)).setBlock is64 m d offs f := rfl
    rw [e]
    have h1 := ih (c.setVal is64 m (d + o) (f o))
    have h2 := one c (d + o) (f o)
    generalize (c.setVal is64 m (d + o) (f o)).setBlock is64 m d offs f = y at h1 ⊢
    generalize c.setVal is64 m (d + o) (f o) = x at h1 h2
    rw [h1, h2]

/-! ## Poisoned rows (R207) -/

/-- A row of a written register stays poisoned unless all its eight lanes were written. -/
theorem Cane.mem_rowPoison_setV (c : Cane) (m : Mask) (i : Nat) (f : Nat → Word) (r : Nat) :
    r ∈ (c.setV m i f).rowPoison ↔ r ∈ c.rowPoison ∧ ¬ (r / 4 = i ∧ m.extractLsb' (8 * (r % 4)) 8 = 0xFF#8) := by
  simp only [Cane.setV, keepPoison, List.mem_filter]
  by_cases h1 : r / 4 = i <;> by_cases h2 : m.extractLsb' (8 * (r % 4)) 8 = 0xFF#8 <;> simp [h1, h2]

theorem Cane.mem_rowPoison_setVal (c : Cane) (is64 : Bool) (m : Mask) (i : Nat) (f : Nat → Nat) (r : Nat) :
    r ∈ (c.setVal is64 m i f).rowPoison ↔
      r ∈ c.rowPoison ∧ ¬ (r / 4 ∈ valRegs is64 i ∧ m.extractLsb' (8 * (r % 4)) 8 = 0xFF#8) := by
  unfold Cane.setVal
  cases is64
  · simp [Cane.mem_rowPoison_setV, valRegs]
  · simp only [if_true, Cane.setV64, Cane.mem_rowPoison_setV, valRegs, List.mem_cons, List.not_mem_nil, or_false]
    tauto

/-- A block written takes its poison from the rows that it fills whole. -/
theorem Cane.mem_rowPoison_setBlock (offs : List Nat) (c : Cane) (is64 : Bool) (m : Mask) (d : Nat)
    (f : Nat → Nat → Nat) (r : Nat) :
    r ∈ (c.setBlock is64 m d offs f).rowPoison ↔ r ∈ c.rowPoison ∧
      ¬ ((∃ o ∈ offs, r / 4 ∈ valRegs is64 (d + o)) ∧ m.extractLsb' (8 * (r % 4)) 8 = 0xFF#8) := by
  induction offs generalizing c with
  | nil => simp [Cane.setBlock]
  | cons o offs ih =>
    have e : c.setBlock is64 m d (o :: offs) f = (c.setVal is64 m (d + o) (f o)).setBlock is64 m d offs f := rfl
    rw [e, ih, Cane.mem_rowPoison_setVal]
    by_cases h1 : m.extractLsb' (8 * (r % 4)) 8 = 0xFF#8 <;>
      by_cases h2 : r / 4 ∈ valRegs is64 (d + o) <;> simp [h1, h2]

/-! ## Masks (R31, R141) -/

/-- The predicate of a lane function. -/
theorem getLsbD_maskOf (f : Nat → Bool) (l : Nat) (h : l < 32) : (maskOf f).getLsbD l = f l := by
  have key : ∀ (ls : List Nat) (w : Mask), (∀ x ∈ ls, x < 32) → (ls.foldl (fun w l => if f l then w ||| (1#32 <<< l) else w) w).getLsbD l
      = (w.getLsbD l || (ls.contains l && f l)) := by
    intro ls
    induction ls with
    | nil => simp
    | cons x ls ih =>
      intro w hx
      rw [List.foldl_cons, ih _ fun y hy => hx y (List.mem_cons_of_mem _ hy)]
      have x32 := hx x List.mem_cons_self
      by_cases hl : l = x
      · subst hl
        by_cases hf : f l <;> simp [hf, h]
      · have : (1#32 <<< x).getLsbD l = false := by
          simp only [BitVec.getLsbD_shiftLeft, BitVec.getLsbD_one]
          simp; omega
        by_cases hf : f x
        · simp [hf, this, hl]
        · simp [hf, hl]
  rw [maskOf, key _ _ (by simp [lanes])]
  simp [lanes, h]

end Sys2Proof.Machine
end

