-- ==== Sys2Proof/Laws/Ops.lean ====
section
/-! SUPPORT. What each operation that the meanings share can do, said once: issue slots, completion, the decode
checks, the element-wise effect, trap entry and the return from it. -/

namespace Sys2Proof.Machine

/-! ## Checks (R53) -/

theorem firstFail_eq_none {checks : List (Bool × Cause)} :
    firstFail checks = none ↔ ∀ x ∈ checks, x.1 = false := by
  induction checks with
  | nil => simp [firstFail]
  | cons x rest ih =>
    obtain ⟨b, c⟩ := x
    cases b <;> simp [firstFail, ih]

/-- A failing check is one of the list, and none before it fails. -/
theorem firstFail_eq_some {checks : List (Bool × Cause)} {c : Cause} (h : firstFail checks = some c) :
    ∃ pre post, checks = pre ++ (true, c) :: post ∧ ∀ x ∈ pre, x.1 = false := by
  induction checks with
  | nil => simp [firstFail] at h
  | cons x rest ih =>
    obtain ⟨b, k⟩ := x
    cases b
    · obtain ⟨pre, post, e, hp⟩ := ih (by simpa [firstFail] using h)
      exact ⟨(false, k) :: pre, post, by rw [e]; rfl, by simpa using hp⟩
    · have : k = c := by simpa [firstFail] using h
      exact ⟨[], rest, by rw [this]; rfl, by simp⟩

/-- With no failing check an instruction has its effect. -/
theorem State.attempt_ok {s : State} {checks : List (Bool × Cause)} (h : ∀ x ∈ checks, x.1 = false) (e : State) :
    s.attempt checks e = .next e := by rw [State.attempt, firstFail_eq_none.2 h]

/-- The first failing check traps. -/
theorem State.attempt_fail {s : State} {checks : List (Bool × Cause)} {c : Cause} (h : firstFail checks = some c)
    (e : State) : s.attempt checks e = .next (s.raise c) := by rw [State.attempt, h]

/-- An attempt always answers a next state. -/
theorem State.attempt_next (s : State) (checks : List (Bool × Cause)) (e : State) :
    ∃ t, s.attempt checks e = .next t := by unfold State.attempt; split <;> exact ⟨_, rfl⟩

/-- A read in no lane meets no poison. -/
@[simp] theorem Cane.poisonedRow_zero (c : Cane) (regs : List Nat) : c.poisonedRow 0#32 regs = none := by
  simp [Cane.poisonedRow]

/-- A ready instruction has its effect. -/
theorem State.attemptReading_ok {s : State} {mk : Mask} {regs : List Nat} {checks : List (Bool × Cause)}
    (h : Ready s mk regs checks) (e : State) : s.attemptReading mk regs checks e = .next e := by
  rw [State.attemptReading, State.attempt_ok h.checks, h.clean]
  simp

theorem State.attemptReading_fail {s : State} {mk : Mask} {regs : List Nat} {checks : List (Bool × Cause)} {c : Cause}
    (h : firstFail checks = some c) (e : State) (other : Mask × List Nat) :
    s.attemptReading mk regs checks e other = .next (s.raise c) :=
  State.attempt_fail h _

theorem State.attemptReading_next (s : State) (mk : Mask) (regs : List Nat) (checks : List (Bool × Cause))
    (e : State) (other : Mask × List Nat) : ∃ t, s.attemptReading mk regs checks e other = .next t :=
  State.attempt_next _ _ _

/-! ## Issue slots (R145, R354) -/

/-- Cores that differ in their counters only. -/
def Core.SameBut (c d : Core) : Prop := ∃ p, d = { c with perf := p }

theorem Core.SameBut.refl (c : Core) : c.SameBut c := ⟨c.perf, rfl⟩
theorem Core.SameBut.trans {a b c : Core} (h : a.SameBut b) (k : b.SameBut c) : a.SameBut c := by
  obtain ⟨p, rfl⟩ := h
  obtain ⟨q, rfl⟩ := k
  exact ⟨q, rfl⟩
theorem Core.count_sameBut (c : Core) (i n : Nat) : c.SameBut (c.count i n) := ⟨_, rfl⟩

theorem State.coreCycles_sameBut (s : State) (i n : Nat) (p : Option Nat) :
    (s.core i).SameBut (s.coreCycles i n p) := by
  unfold State.coreCycles
  generalize ([0, 1, 2, 3].filter fun q => p != some q) = ps
  have : ∀ (ps : List Nat) (c : Core), (s.core i).SameBut c →
      (s.core i).SameBut (ps.foldl (fun c q => c.count (0x010 + s.idleLeaf i q) n) c) := by
    intro ps
    induction ps with
    | nil => intro c h; exact h
    | cons q ps ih => intro c h; exact ih _ (h.trans (Core.count_sameBut _ _ _))
  exact this ps _ (Core.count_sameBut _ _ _)

theorem foldl_setI_sameBut (s : State) (g : Nat → Core) (hg : ∀ i, (s.core i).SameBut (g i)) (is : List Nat)
    (cs : List Core) (h : ∀ i, (s.core i).SameBut (getI Core.zero cs i)) (i : Nat) :
    (s.core i).SameBut (getI Core.zero (is.foldl (fun cs i => setI Core.zero cs i (g i)) cs) i) := by
  induction is generalizing cs with
  | nil => exact h i
  | cons j is ih =>
    refine ih (setI Core.zero cs j (g j)) fun k => ?_
    rw [getI_setI]
    split
    · subst ‹k = j›; exact hg k
    · exact h k

/-- What the slots of an instruction change: the counters of the cores of its cluster and the cluster's clock. -/
theorem State.charge_core (s : State) (v u b i : Nat) : (s.core i).SameBut ((s.charge v u b).core i) := by
  unfold State.charge State.core
  simp only
  rw [getI_setI]
  have key := fun j => foldl_setI_sameBut s
    (fun i => s.coreCycles i (v + u + b) (if i = s.cur.core then some (s.cur.pipe.getD 0) else none))
    (fun i => State.coreCycles_sameBut s i _ _) (coresOf (clusterOfCore s.cur.core)) s.cores
    (fun i => Core.SameBut.refl _) j
  split
  · subst ‹i = s.cur.core›
    exact ((key _).trans (Core.count_sameBut _ _ _)).trans
      ((Core.count_sameBut _ _ _).trans (Core.count_sameBut _ _ _))
  · exact key i

theorem State.charge_cluster (s : State) (v u b k : Nat) :
    (s.charge v u b).cluster k =
      if k = clusterOfCore s.cur.core then { s.cluster k with cycle := (s.cluster k).cycle + (v + u + b) }
      else s.cluster k := by
  unfold State.charge State.cluster
  simp only
  rw [getI_setI]
  split
  · subst ‹k = _›; rfl
  · rfl

/-- The slots of an instruction, with any change of the issuing cane, leave everything else. -/
theorem OnlyCane.charge (s : State) (v u b : Nat) (f : Cane → Cane) : OnlyCane s ((s.charge v u b).updCur f) where
  rest := rfl
  cores := fun i => State.charge_core s v u b i
  clusters := fun k => by
    have := State.charge_cluster s v u b k
    split at this
    · exact ⟨_, this⟩
    · exact ⟨_, this⟩
  bytes := {
    home := fun _ => rfl
    copies := fun _ _ => rfl
    poison := rfl
    scratch := rfl
    fifo := fun i => by
      obtain ⟨p, hp⟩ := State.charge_core s v u b i
      exact (congrArg Core.fifo hp : ((s.charge v u b).core i).fifo = _)
    flights := rfl }

theorem OnlyCane.updCur (s : State) (f : Cane → Cane) : OnlyCane s (s.updCur f) where
  rest := rfl
  cores := fun _ => ⟨_, rfl⟩
  clusters := fun _ => ⟨_, rfl⟩
  bytes := ⟨fun _ => rfl, fun _ _ => rfl, rfl, rfl, fun _ => rfl, rfl⟩

theorem OnlyCane.goTo (s : State) (m : Marks) (pc : Dword) : OnlyCane s (s.goTo m pc) := by
  unfold State.goTo; exact OnlyCane.updCur s _

theorem OnlyCane.trans {s t u : State} (h : OnlyCane s t) (k : OnlyCane t u) : OnlyCane s u where
  rest := by rw [k.rest, h.rest]
  cores := fun i => by
    obtain ⟨p, hp⟩ := h.cores i
    obtain ⟨q, hq⟩ := k.cores i
    exact ⟨q, by rw [hq, hp]⟩
  clusters := fun i => by
    obtain ⟨p, hp⟩ := h.clusters i
    obtain ⟨q, hq⟩ := k.clusters i
    exact ⟨q, by rw [hq, hp]⟩
  bytes := {
    home := fun a => (k.bytes.home a).trans (h.bytes.home a)
    copies := fun d a => (k.bytes.copies d a).trans (h.bytes.copies d a)
    poison := k.bytes.poison.trans h.bytes.poison
    scratch := k.bytes.scratch.trans h.bytes.scratch
    fifo := fun i => (k.bytes.fifo i).trans (h.bytes.fifo i)
    flights := k.bytes.flights.trans h.bytes.flights }

theorem TookCycles.charge (s : State) (v u b : Nat) (f : Cane → Cane) :
    TookCycles (v + u + b) s ((s.charge v u b).updCur f) := by
  intro k
  have : (((s.charge v u b).updCur f).cluster k) = (s.charge v u b).cluster k := rfl
  rw [this, State.charge_cluster]
  split <;> rfl

/-! ## Completion (R28, R151) -/

/-- The cane after it has completed the issuing instruction. -/
theorem State.goTo_cur (s : State) (m : Marks) (pc : Dword) :
    (s.goTo m pc).cur =
      let c := { s.cur.advance pc (s.cluster (clusterOfCore s.cur.core)).cycle with
        lastPc := s.iss.addr, lastStop := s.iss.stop }
      if m.s then c.switch else c := rfl

/-- Completion leaves the registers of the cane. -/
theorem State.goTo_atRest (s : State) (m : Marks) (pc : Dword) : (s.goTo m pc).cur.atRest = s.cur.atRest := by
  rw [State.goTo_cur]; dsimp only; split <;> rfl

theorem GoneTo.goTo (s : State) (m : Marks) (pc : Dword) : GoneTo m pc s (s.goTo m pc) where
  pc := by rw [State.goTo_cur]; dsimp only; split <;> rfl
  pipe := by rw [State.goTo_cur]; dsimp only; split <;> rfl
  wait := by
    rw [State.goTo_cur]
    by_cases h : m.s <;> by_cases k : s.cur.outstanding = 0 <;>
      simp [h, k, Cane.switch, Cane.advance]

theorem GoneTo.of {m : Marks} {pc : Dword} {s t u : State} (h : GoneTo m pc t u) (hp : t.cur.pipe = s.cur.pipe) :
    GoneTo m pc s u := ⟨h.pc, by rw [h.pipe, hp], h.wait⟩

/-- An instruction that changes the issuing cane by f and completes. -/
theorem State.complete (s : State) (m : Marks) (pc : Dword) (v u b : Nat) (f : Cane → Cane)
    (hp : (f s.cur).pipe = s.cur.pipe) :
    OnlyCane s (((s.charge v u b).updCur f).goTo m pc) ∧ GoneTo m pc s (((s.charge v u b).updCur f).goTo m pc)
      ∧ TookCycles (v + u + b) s (((s.charge v u b).updCur f).goTo m pc)
      ∧ (((s.charge v u b).updCur f).goTo m pc).cur.atRest = (f s.cur).atRest :=
  ⟨(OnlyCane.charge s v u b f).trans (OnlyCane.goTo _ m pc), (GoneTo.goTo _ m pc).of hp,
    fun k => TookCycles.charge s v u b f k, State.goTo_atRest _ m pc⟩

/-- The vector passes of an element-wise instruction and its bank cycles. -/
theorem State.chargeVec_eq (s : State) (u : Bool) (mk : Mask) (elems : List (List Nat)) :
    ∃ v n b, s.chargeVec u mk elems = s.charge v n b ∧
      v + n + b = (if u then 1 else passCount mk) * elems.length
        + (elems.map fun regs => (if u then 1 else passCount mk) * bankExtra regs).sum := by
  unfold State.chargeVec
  cases u
  · exact ⟨_, _, _, rfl, by simp⟩
  · exact ⟨_, _, _, rfl, by simp⟩

@[simp] theorem State.chargeVec_cur (s : State) (u : Bool) (mk : Mask) (elems : List (List Nat)) :
    (s.chargeVec u mk elems).cur = s.cur := by unfold State.chargeVec; split <;> rfl
@[simp] theorem State.fall_chargeVec (s : State) (u : Bool) (mk : Mask) (elems : List (List Nat)) :
    (s.chargeVec u mk elems).fall = s.fall := by unfold State.chargeVec; split <;> rfl

/-- An instruction on lanes that changes the issuing cane by f and completes. -/
theorem State.completeVec (s : State) (m : Marks) (mk : Mask) (elems : List (List Nat)) (f : Cane → Cane)
    (hp : (f s.cur).pipe = s.cur.pipe) :
    OnlyCane s (((s.chargeVec m.u mk elems).updCur f).finish m)
      ∧ GoneTo m s.fall s (((s.chargeVec m.u mk elems).updCur f).finish m)
      ∧ TookCycles (vecCycles m.u mk elems) s (((s.chargeVec m.u mk elems).updCur f).finish m)
      ∧ (((s.chargeVec m.u mk elems).updCur f).finish m).cur.atRest = (f s.cur).atRest := by
  obtain ⟨v, n, b, e, h⟩ := State.chargeVec_eq s m.u mk elems
  unfold vecCycles
  rw [e, ← h]
  exact State.complete s m s.fall v n b f hp

/-! ## Element-wise instructions (R136, R146, R175) -/

/-- What an element-wise instruction writes in lane l of the element at offset o. -/
def State.elemRes (s : State) (m : Marks) (sr : Bool) (srcs : List (BitVec 7)) (f : Word → List Nat → LaneRes)
    (o l : Nat) : LaneRes :=
  f (if sr then s.cur.srAt m.u s.cur.active ((s.cur.blockOffsets s.cur.is64).idxOf o) l else 0)
    (srcs.map fun r => s.cur.val s.cur.is64 (r.toNat + o) (srcLane m.u s.cur.active l))

/-- The cane after an element-wise instruction, before it completes. -/
def State.elemCane (s : State) (m : Marks) (sr : Bool) (d : BitVec 7) (srcs : List (BitVec 7))
    (f : Word → List Nat → LaneRes) : Cane :=
  let offs := s.cur.blockOffsets s.cur.is64
  let k := (s.cur.setBlock s.cur.is64 s.cur.active d.toNat offs fun o l => (s.elemRes m sr srcs f o l).value).raiseFlags
    (blockFlags s.cur.active offs fun o l => (s.elemRes m sr srcs f o l).flags)
  if sr then k.stepLfsr m.u s.cur.active offs.length else k

theorem State.elemCane_eq (s : State) (m : Marks) (sr : Bool) (d : BitVec 7) (srcs : List (BitVec 7))
    (f : Word → List Nat → LaneRes) :
    s.elemCane m sr d srcs f =
      { s.cur with
        v := (s.elemCane m sr d srcs f).v
        rowPoison := (s.elemCane m sr d srcs f).rowPoison
        flags := s.cur.flags ||| blockFlags s.cur.active (s.cur.blockOffsets s.cur.is64)
          fun o l => (s.elemRes m sr srcs f o l).flags
        lfsr := if sr then lfsrIter ((s.cur.blockOffsets s.cur.is64).length * srLanes m.u s.cur.active) s.cur.lfsr
          else s.cur.lfsr } := by
  unfold State.elemCane
  simp only
  rw [Cane.setBlock_eq]
  cases sr <;> rfl

theorem State.elemCane_v (s : State) (m : Marks) (sr : Bool) (d : BitVec 7) (srcs : List (BitVec 7))
    (f : Word → List Nat → LaneRes) :
    (s.elemCane m sr d srcs f).v = (s.cur.setBlock s.cur.is64 s.cur.active d.toNat (s.cur.blockOffsets s.cur.is64)
      fun o l => (s.elemRes m sr srcs f o l).value).v
    ∧ (s.elemCane m sr d srcs f).rowPoison = (s.cur.setBlock s.cur.is64 s.cur.active d.toNat
      (s.cur.blockOffsets s.cur.is64) fun o l => (s.elemRes m sr srcs f o l).value).rowPoison := by
  unfold State.elemCane
  cases sr <;> exact ⟨rfl, rfl⟩

/-- The element-wise effect: the issuing cane becomes `elemCane` and completes in its cycles; nothing else changes. -/
theorem State.vectorOp_next (s : State) (m : Marks) (sr : Bool) (d : BitVec 7) (srcs : List (BitVec 7))
    (f : Word → List Nat → LaneRes) :
    let t := s.vectorOp m sr d srcs f
    OnlyCane s t ∧ GoneTo m s.fall s t
      ∧ TookCycles (vecCycles m.u s.cur.active ((s.cur.blockOffsets s.cur.is64).map (readsOf s.cur.is64 srcs))) s t
      ∧ t.cur.atRest = (s.elemCane m sr d srcs f).atRest := by
  have e : s.vectorOp m sr d srcs f =
      ((s.chargeVec m.u s.cur.active ((s.cur.blockOffsets s.cur.is64).map (readsOf s.cur.is64 srcs))).updCur
        fun _ => s.elemCane m sr d srcs f).finish m := by
    unfold State.vectorOp State.elemCane State.elemRes State.updCur
    simp only [State.chargeVec_cur]
  rw [e]
  refine State.completeVec s m s.cur.active _ _ ?_
  have := s.elemCane_eq m sr d srcs f
  exact (congrArg Cane.pipe this : (s.elemCane m sr d srcs f).pipe = _)

/-- A register keeps its value under an element-wise instruction outside the written block and the active lanes. -/
theorem State.elemCane_V_other (s : State) (m : Marks) (sr : Bool) (d : BitVec 7) (srcs : List (BitVec 7))
    (f : Word → List Nat → LaneRes) (j l : Nat) (h : l < 32)
    (ho : (∀ o ∈ s.cur.blockOffsets s.cur.is64, j ∉ valRegs s.cur.is64 (d.toNat + o)) ∨ s.cur.active.getLsbD l = false) :
    (s.elemCane m sr d srcs f).V j l = s.cur.V j l := by
  rw [← Cane.V_setBlock_other _ s.cur s.cur.is64 s.cur.active d.toNat
    (fun o l => (s.elemRes m sr srcs f o l).value) j l h ho]
  unfold Cane.V Cane.row
  rw [(s.elemCane_v m sr d srcs f).1]

/-- An element of the written block takes its result in each active lane. -/
theorem State.elemCane_val (s : State) (m : Marks) (sr : Bool) (d : BitVec 7) (srcs : List (BitVec 7))
    (f : Word → List Nat → LaneRes) (o l : Nat) (h : l < 32) (hm : s.cur.active.getLsbD l = true)
    (ho : o ∈ s.cur.blockOffsets s.cur.is64) (hb : (if s.cur.is64 then 2 else 1) * (s.cur.bc + 1) ≤ 8) :
    (s.elemCane m sr d srcs f).val s.cur.is64 (d.toNat + o) l =
      (s.elemRes m sr srcs f o l).value % (if s.cur.is64 then 2 ^ 64 else 2 ^ 32) := by
  rw [← Cane.val_setBlock _ s.cur s.cur.is64 s.cur.active d.toNat
    (fun o l => (s.elemRes m sr srcs f o l).value) o l h hm ho (Cane.blockOffsets_apart _ _ hb)]
  apply Cane.val_congr
  intro j _
  unfold Cane.V Cane.row
  rw [(s.elemCane_v m sr d srcs f).1]

/-- The block check leaves at most eight columns. -/
theorem Cane.columns_of_badBlock {c : Cane} {is64 : Bool} {d : BitVec 7} {srcs : List (BitVec 7)}
    (h : (c.badBlock is64 (d :: srcs)).1 = false) : (if is64 then 2 else 1) * (c.bc + 1) ≤ 8 := by
  simp only [Cane.badBlock, List.any_cons, Bool.or_eq_false_iff, leavesBlock, decide_eq_false_iff_not] at h
  omega

/-! ## Traps (R124, R126) -/

/-- R124: what trap entry writes, and that it writes nothing else of the package. -/
theorem State.enterHandler_spec (s : State) (cause : Cause) (arg : Word) :
    let t := s.enterHandler cause arg
    t.cur.epc = s.iss.addr ∧ t.cur.estat = estatAtTrap s.cur.estat cause s.cur.priv s.iss.parcels s.cur.stack.length
      ∧ t.cur.earg = arg ∧ t.cur.emask = s.cur.recon ∧ t.cur.priv = bitsAt s.cur.estat 10 2 ∧ t.cur.pc = s.cur.tvec
      ∧ OnlyCane s t :=
  ⟨rfl, rfl, rfl, rfl, rfl, rfl, OnlyCane.updCur _ _⟩

/-- R124: a trap of a cane that holds a handler enters it. -/
theorem State.trapWith_vectors {s : State} (h : s.cur.vectors = true) (cause : Cause) (arg : Word) (mask : Mask)
    (faults : List LaneFault) : s.trapWith cause arg mask faults = s.enterHandler cause arg := by
  have hr : s.cur.routine ≠ .exit := by
    intro e; simp [Cane.vectors, e] at h
  rw [State.trapWith, if_neg hr, if_pos h]

/-- A failing check traps in one pass, into the handler of a cane that holds one. -/
theorem State.raise_vectors {s : State} (h : s.cur.vectors = true) (c : Cause) :
    s.raise c = (s.charge 0 1 0).enterHandler c 0 :=
  State.trapWith_vectors (s := s.charge 0 1 0) h c 0 _ []

/-! ## The home's memory -/

theorem State.updCane_mem (s : State) (id : Nat) (f : Cane → Cane) : (s.updCane id f).mem = s.mem := rfl
@[simp] theorem State.request_mem (s : State) (t a n : Nat) : (s.request t a n).mem = s.mem := by
  unfold State.request State.countBytes
  simp only
  split <;> rfl

@[simp] theorem State.cellarTouch_mem (s : State) (line t : Nat) (w : Bool) : (s.cellarTouch line t w).mem = s.mem := by
  unfold State.cellarTouch
  simp only
  split
  · rfl
  · split
    · split <;> rfl
    · exact State.request_mem _ _ _ _

@[simp] theorem State.noteFill_mem (s : State) (d line : Nat) : (s.noteFill d line).mem = s.mem := by
  unfold State.noteFill
  split <;> rfl

@[simp] theorem State.allocL2_mem (s : State) (d line t : Nat) : (s.allocL2 d line t).mem = s.mem := by
  unfold State.allocL2
  split
  · exact State.noteFill_mem _ _ _
  · split
    · rw [State.request_mem, State.noteFill_mem]
    · split
      · rfl
      · simp only [State.cellarTouch_mem, State.setDie_mem, State.noteFill_mem]

theorem State.storeDie_mem (s : State) (d a t : Nat) (bytes : List Byte) : (s.storeDie d a t bytes).mem = s.mem := by
  have : ∀ (ls : List Nat) (s : State), (ls.foldl (fun s line => s.allocL2 d line t) s).mem = s.mem := by
    intro ls
    induction ls with
    | nil => intro s; rfl
    | cons x ls ih => intro s; rw [List.foldl_cons, ih, State.allocL2_mem]
  exact this _ s

@[simp] theorem State.countWrite_mem (s : State) (c : Option Nat) (w : Bool) : (s.countWrite c w).mem = s.mem := by
  unfold State.countWrite
  split <;> rfl

theorem State.recordWake_mem (d : Nat) (p : Place) (n : Nat) (s : State) (c : Cane) :
    (s.recordWake d p n c).mem = s.mem := by
  unfold State.recordWake
  simp only
  split
  · split <;> rfl
  · rfl

@[simp] theorem State.monitorWake_mem (s : State) (d : Nat) (p : Place) (n : Nat) : (s.monitorWake d p n).mem = s.mem := by
  have : ∀ (cs : List Cane) (s : State), (cs.foldl (State.recordWake d p n) s).mem = s.mem := by
    intro cs
    induction cs with
    | nil => intro s; rfl
    | cons x cs ih => intro s; rw [List.foldl_cons, ih, State.recordWake_mem]
  exact this _ s

/-- R205: a write on its way to the home does not change what the home holds. -/
theorem State.launchWrite_mem (s : State) (d t : Nat) (cane parcel : Option Nat) (sg w : Bool) (a : Nat)
    (bytes : List Byte) : (s.launchWrite d t cane parcel sg w a bytes).mem = s.mem := by
  unfold State.launchWrite
  simp only
  split <;> simp [State.storeDie_mem]

theorem State.issueWrite_mem (s : State) (d t : Nat) (cane parcel : Option Nat) (sg w : Bool) (a : Nat)
    (bytes : List Byte) : (s.issueWrite d t cane parcel sg w a bytes).mem = s.mem := by
  have : ∀ (ls : List (Nat × List Byte)) (s : State),
      (ls.foldl (fun s x => s.launchWrite d t cane parcel sg w x.1 x.2) s).mem = s.mem := by
    intro ls
    induction ls with
    | nil => intro s; rfl
    | cons x ls ih => intro s; rw [List.foldl_cons, ih, State.launchWrite_mem]
  exact this _ s

theorem State.ctxWrite_mem (s : State) (x : Ctx) (va : Nat) (bytes : List Byte) (sg : Bool) :
    (s.ctxWrite x va bytes sg).mem = s.mem := by
  unfold State.ctxWrite
  generalize splitLines va bytes = ls
  induction ls generalizing s with
  | nil => rfl
  | cons c ls ih =>
    rw [List.foldl_cons, ih]
    split
    · exact State.issueWrite_mem _ _ _ _ _ _ _ _ _
    · rfl

/-! ## Writes in flight (R402) -/

/-- The writes that stood before a store keep what they say, and those that it has made bear its record. -/
theorem State.noteOrigin_append (s : State) (l fs : List Flight) (o : StoreOrigin) :
    ({ s with flights := l ++ fs } : State).noteOrigin l.length o
      = { s with flights := l ++ fs.map fun x => { x with origin := some o } } := by
  simp [State.noteOrigin]

/-- Marking a store's writes changes nothing but the flights. -/
theorem State.noteOrigin_eq (s : State) (n : Nat) (o : StoreOrigin) :
    s.noteOrigin n o = { s with flights := (s.noteOrigin n o).flights } := rfl

/-- A write of whose ways no link is cut loses nothing. -/
theorem State.loses_of_uncut {s down : State} {f : Flight}
    (h : ∀ a b, s.reaches f.terrace a b = true → down.reaches f.terrace a b = true) : s.loses down f = none := by
  have e : ∀ a b, (s.reaches f.terrace a b && !down.reaches f.terrace a b) = false := by
    intro a b
    cases k : s.reaches f.terrace a b
    · rfl
    · simp [h a b k]
  simp [State.loses, e]

end Sys2Proof.Machine
end

