-- ==== Sys2Proof/Laws/PerInstr.lean ====
section
/-! SUPPORT. For each instruction: the decoder's field extraction gives back the instruction that the encoder wrote, with
every operand at every value. -/

namespace Sys2Proof.Laws.Decoding

/-- An encoded instruction's word, before the operand limits, decodes to that instruction. -/
def Statement (i : Instr) : Prop := ∀ w, encodeWord i = some w → decodeFields w = .ok i

theorem nop (m : Marks) : Statement (.nop m) := by
  intro w h
  cases h
  delta decodeFields decodeControl
  simp [pick_cons, and_eq_iff]

theorem mode (m : Marks) (i : BitVec 14) : Statement (.mode m i) := by
  intro w h
  cases h
  delta decodeFields decodeControl
  simp [pick_cons, and_eq_iff]

theorem moder (m : Marks) (a : BitVec 7) : Statement (.moder m a) := by
  intro w h
  cases h
  delta decodeFields decodeControl
  simp [pick_cons, and_eq_iff]

theorem immx (x : BitVec 24) (w : Word) : Statement (.immx x w) := by
  intro w h
  cases h

theorem dict (s : Bool) (t : Bool) (i : BitVec 10) : Statement (.dict s t i) := by
  intro w h
  cases h

theorem bra (m : Marks) (j : BitVec 21) : Statement (.bra m j) := by
  intro w h
  cases h
  delta decodeFields decodeControl
  simp [pick_cons]

theorem brau (m : Marks) (j : BitVec 21) : Statement (.brau m j) := by
  intro w h
  cases h
  delta decodeFields decodeControl
  simp [pick_cons]

theorem join (m : Marks) (j : BitVec 21) : Statement (.join m j) := by
  intro w h
  cases h
  delta decodeFields decodeControl
  simp [pick_cons]

theorem call (m : Marks) (j : BitVec 21) : Statement (.call m j) := by
  intro w h
  cases h
  delta decodeFields decodeControl
  simp [pick_cons]

theorem ret (m : Marks) : Statement (.ret m) := by
  intro w h
  cases h
  delta decodeFields decodeControl
  simp [pick_cons, and_eq_iff]

theorem jmpr (m : Marks) (a : BitVec 6) : Statement (.jmpr m a) := by
  intro w h
  cases h
  delta decodeFields decodeControl
  simp [pick_cons, and_eq_iff]

theorem trap (m : Marks) (i : BitVec 14) : Statement (.trap m i) := by
  intro w h
  cases h
  delta decodeFields decodeControl
  simp [pick_cons, and_eq_iff]

theorem eret (m : Marks) : Statement (.eret m) := by
  intro w h
  cases h
  delta decodeFields decodeControl
  simp [pick_cons, and_eq_iff]

theorem exit0 (m : Marks) : Statement (.exit0 m) := by
  intro w h
  cases h
  delta decodeFields decodeControl
  simp [pick_cons, and_eq_iff]

theorem exit1 (m : Marks) : Statement (.exit1 m) := by
  intro w h
  cases h
  delta decodeFields decodeControl
  simp [pick_cons, and_eq_iff]

theorem exit2 (m : Marks) : Statement (.exit2 m) := by
  intro w h
  cases h
  delta decodeFields decodeControl
  simp [pick_cons, and_eq_iff]

theorem bkpt (m : Marks) (i : BitVec 14) : Statement (.bkpt m i) := by
  intro w h
  cases h
  delta decodeFields decodeControl
  simp [pick_cons, and_eq_iff]

theorem mark (m : Marks) (i : BitVec 14) : Statement (.mark m i) := by
  intro w h
  cases h
  delta decodeFields decodeControl
  simp [pick_cons, and_eq_iff]

theorem sysRd (m : Marks) (d : BitVec 7) (i : BitVec 12) : Statement (.sysRd m d i) := by
  intro w h
  cases h
  delta decodeFields decodeControl
  simp [pick_cons, and_eq_iff]

theorem sysWr (m : Marks) (d : BitVec 7) (i : BitVec 12) : Statement (.sysWr m d i) := by
  intro w h
  cases h
  delta decodeFields decodeControl
  simp [pick_cons, and_eq_iff]

theorem perfRd (m : Marks) (d : BitVec 6) (i : BitVec 12) : Statement (.perfRd m d i) := by
  intro w h
  cases h
  delta decodeFields decodeControl
  simp [pick_cons, and_eq_iff]

theorem trig (m : Marks) (e : BitVec 4) : Statement (.trig m e) := by
  intro w h
  cases h
  delta decodeFields decodeControl
  simp [pick_cons, and_eq_iff]

theorem pwrReq (m : Marks) (d : BitVec 7) (p : BitVec 3) : Statement (.pwrReq m d p) := by
  intro w h
  cases h
  delta decodeFields decodeControl
  simp [pick_cons, and_eq_iff]

theorem faultResume (m : Marks) (d : BitVec 7) : Statement (.faultResume m d) := by
  intro w h
  cases h
  delta decodeFields decodeControl
  simp [pick_cons, and_eq_iff]

theorem faultRetire (m : Marks) (d : BitVec 7) : Statement (.faultRetire m d) := by
  intro w h
  cases h
  delta decodeFields decodeControl
  simp [pick_cons, and_eq_iff]

theorem fqSet (m : Marks) (d : BitVec 7) : Statement (.fqSet m d) := by
  intro w h
  cases h
  delta decodeFields decodeControl
  simp [pick_cons, and_eq_iff]

theorem s1Root (m : Marks) (d : BitVec 7) : Statement (.s1Root m d) := by
  intro w h
  cases h
  delta decodeFields decodeControl
  simp [pick_cons, and_eq_iff]

theorem vdSelect (m : Marks) (d : BitVec 7) : Statement (.vdSelect m d) := by
  intro w h
  cases h
  delta decodeFields decodeControl
  simp [pick_cons, and_eq_iff]

theorem s1Page (m : Marks) (d : BitVec 7) : Statement (.s1Page m d) := by
  intro w h
  cases h
  delta decodeFields decodeControl
  simp [pick_cons, and_eq_iff]

theorem decantSet (m : Marks) (d : BitVec 7) : Statement (.decantSet m d) := by
  intro w h
  cases h
  delta decodeFields decodeControl
  simp [pick_cons, and_eq_iff]

theorem decantClr (m : Marks) (d : BitVec 7) : Statement (.decantClr m d) := by
  intro w h
  cases h
  delta decodeFields decodeControl
  simp [pick_cons, and_eq_iff]

theorem urgent (m : Marks) (d : BitVec 7) : Statement (.urgent m d) := by
  intro w h
  cases h
  delta decodeFields decodeControl
  simp [pick_cons, and_eq_iff]

theorem supDrain (m : Marks) (d : BitVec 7) : Statement (.supDrain m d) := by
  intro w h
  cases h
  delta decodeFields decodeControl
  simp [pick_cons, and_eq_iff]

theorem terraceGet (m : Marks) (d : BitVec 7) : Statement (.terraceGet m d) := by
  intro w h
  cases h
  delta decodeFields decodeControl
  simp [pick_cons, and_eq_iff]

theorem terraceSet (m : Marks) (d : BitVec 7) : Statement (.terraceSet m d) := by
  intro w h
  cases h
  delta decodeFields decodeControl
  simp [pick_cons, and_eq_iff]

theorem terraceCommit (m : Marks) (d : BitVec 7) : Statement (.terraceCommit m d) := by
  intro w h
  cases h
  delta decodeFields decodeControl
  simp [pick_cons, and_eq_iff]

theorem terraceQuiesce (m : Marks) (d : BitVec 7) : Statement (.terraceQuiesce m d) := by
  intro w h
  cases h
  delta decodeFields decodeControl
  simp [pick_cons, and_eq_iff]

theorem terraceOff (m : Marks) (d : BitVec 7) : Statement (.terraceOff m d) := by
  intro w h
  cases h
  delta decodeFields decodeControl
  simp [pick_cons, and_eq_iff]

theorem keyLoad (m : Marks) (d : BitVec 7) : Statement (.keyLoad m d) := by
  intro w h
  cases h
  delta decodeFields decodeControl
  simp [pick_cons, and_eq_iff]

theorem terraceScrub (m : Marks) (d : BitVec 7) : Statement (.terraceScrub m d) := by
  intro w h
  cases h
  delta decodeFields decodeControl
  simp [pick_cons, and_eq_iff]

theorem s2Inv (m : Marks) (d : BitVec 7) : Statement (.s2Inv m d) := by
  intro w h
  cases h
  delta decodeFields decodeControl
  simp [pick_cons, and_eq_iff]

theorem s2Page (m : Marks) (d : BitVec 7) : Statement (.s2Page m d) := by
  intro w h
  cases h
  delta decodeFields decodeControl
  simp [pick_cons, and_eq_iff]

theorem headlandRevoke (m : Marks) (d : BitVec 7) : Statement (.headlandRevoke m d) := by
  intro w h
  cases h
  delta decodeFields decodeControl
  simp [pick_cons, and_eq_iff]

theorem terraceSave (m : Marks) (d : BitVec 7) : Statement (.terraceSave m d) := by
  intro w h
  cases h
  delta decodeFields decodeControl
  simp [pick_cons, and_eq_iff]

theorem terraceRestore (m : Marks) (d : BitVec 7) : Statement (.terraceRestore m d) := by
  intro w h
  cases h
  delta decodeFields decodeControl
  simp [pick_cons, and_eq_iff]

theorem stewardSet (m : Marks) (d : BitVec 7) : Statement (.stewardSet m d) := by
  intro w h
  cases h
  delta decodeFields decodeControl
  simp [pick_cons, and_eq_iff]

theorem mfqSet (m : Marks) (d : BitVec 7) : Statement (.mfqSet m d) := by
  intro w h
  cases h
  delta decodeFields decodeControl
  simp [pick_cons, and_eq_iff]

theorem tlbInvTerrace (m : Marks) : Statement (.tlbInvTerrace m) := by
  intro w h
  cases h
  delta decodeFields decodeControl
  simp [pick_cons, and_eq_iff]

theorem tlbInvVdev (m : Marks) : Statement (.tlbInvVdev m) := by
  intro w h
  cases h
  delta decodeFields decodeControl
  simp [pick_cons, and_eq_iff]

theorem iadd (m : Marks) (d : BitVec 7) (a : BitVec 7) (b : BitVec 7) : Statement (.iadd m d a b) := by
  intro w h
  cases h
  delta decodeFields decodeInteger
  simp [pick_cons]

theorem isub (m : Marks) (d : BitVec 7) (a : BitVec 7) (b : BitVec 7) : Statement (.isub m d a b) := by
  intro w h
  cases h
  delta decodeFields decodeInteger
  simp [pick_cons]

theorem imul (m : Marks) (d : BitVec 7) (a : BitVec 7) (b : BitVec 7) : Statement (.imul m d a b) := by
  intro w h
  cases h
  delta decodeFields decodeInteger
  simp [pick_cons]

theorem imulh (m : Marks) (d : BitVec 7) (a : BitVec 7) (b : BitVec 7) : Statement (.imulh m d a b) := by
  intro w h
  cases h
  delta decodeFields decodeInteger
  simp [pick_cons]

theorem imad (m : Marks) (d : BitVec 7) (a : BitVec 7) (b : BitVec 7) : Statement (.imad m d a b) := by
  intro w h
  cases h
  delta decodeFields decodeInteger
  simp [pick_cons]

theorem idiv (m : Marks) (d : BitVec 7) (a : BitVec 7) (b : BitVec 7) : Statement (.idiv m d a b) := by
  intro w h
  cases h
  delta decodeFields decodeInteger
  simp [pick_cons]

theorem irem (m : Marks) (d : BitVec 7) (a : BitVec 7) (b : BitVec 7) : Statement (.irem m d a b) := by
  intro w h
  cases h
  delta decodeFields decodeInteger
  simp [pick_cons]

theorem imin (m : Marks) (d : BitVec 7) (a : BitVec 7) (b : BitVec 7) : Statement (.imin m d a b) := by
  intro w h
  cases h
  delta decodeFields decodeInteger
  simp [pick_cons]

theorem imax (m : Marks) (d : BitVec 7) (a : BitVec 7) (b : BitVec 7) : Statement (.imax m d a b) := by
  intro w h
  cases h
  delta decodeFields decodeInteger
  simp [pick_cons]

theorem iabs (m : Marks) (d : BitVec 7) (a : BitVec 7) : Statement (.iabs m d a) := by
  intro w h
  cases h
  delta decodeFields decodeInteger
  simp [pick_cons, and_eq_iff]

theorem ineg (m : Marks) (d : BitVec 7) (a : BitVec 7) : Statement (.ineg m d a) := by
  intro w h
  cases h
  delta decodeFields decodeInteger
  simp [pick_cons, and_eq_iff]

theorem and (m : Marks) (d : BitVec 7) (a : BitVec 7) (b : BitVec 7) : Statement (.and m d a b) := by
  intro w h
  cases h
  delta decodeFields decodeInteger
  simp [pick_cons]

theorem or (m : Marks) (d : BitVec 7) (a : BitVec 7) (b : BitVec 7) : Statement (.or m d a b) := by
  intro w h
  cases h
  delta decodeFields decodeInteger
  simp [pick_cons]

theorem xor (m : Marks) (d : BitVec 7) (a : BitVec 7) (b : BitVec 7) : Statement (.xor m d a b) := by
  intro w h
  cases h
  delta decodeFields decodeInteger
  simp [pick_cons]

theorem not (m : Marks) (d : BitVec 7) (a : BitVec 7) : Statement (.not m d a) := by
  intro w h
  cases h
  delta decodeFields decodeInteger
  simp [pick_cons, and_eq_iff]

theorem shl (m : Marks) (d : BitVec 7) (a : BitVec 7) (b : BitVec 7) : Statement (.shl m d a b) := by
  intro w h
  cases h
  delta decodeFields decodeInteger
  simp [pick_cons]

theorem shr (m : Marks) (d : BitVec 7) (a : BitVec 7) (b : BitVec 7) : Statement (.shr m d a b) := by
  intro w h
  cases h
  delta decodeFields decodeInteger
  simp [pick_cons]

theorem sar (m : Marks) (d : BitVec 7) (a : BitVec 7) (b : BitVec 7) : Statement (.sar m d a b) := by
  intro w h
  cases h
  delta decodeFields decodeInteger
  simp [pick_cons]

theorem rot (m : Marks) (d : BitVec 7) (a : BitVec 7) (b : BitVec 7) : Statement (.rot m d a b) := by
  intro w h
  cases h
  delta decodeFields decodeInteger
  simp [pick_cons]

theorem popc (m : Marks) (d : BitVec 7) (a : BitVec 7) : Statement (.popc m d a) := by
  intro w h
  cases h
  delta decodeFields decodeInteger
  simp [pick_cons, and_eq_iff]

theorem clz (m : Marks) (d : BitVec 7) (a : BitVec 7) : Statement (.clz m d a) := by
  intro w h
  cases h
  delta decodeFields decodeInteger
  simp [pick_cons, and_eq_iff]

theorem brev (m : Marks) (d : BitVec 7) (a : BitVec 7) : Statement (.brev m d a) := by
  intro w h
  cases h
  delta decodeFields decodeInteger
  simp [pick_cons, and_eq_iff]

theorem bfx (m : Marks) (d : BitVec 7) (a : BitVec 7) (b : BitVec 7) : Statement (.bfx m d a b) := by
  intro w h
  cases h
  delta decodeFields decodeInteger
  simp [pick_cons]

theorem bfi (m : Marks) (d : BitVec 7) (a : BitVec 7) (b : BitVec 7) : Statement (.bfi m d a b) := by
  intro w h
  cases h
  delta decodeFields decodeInteger
  simp [pick_cons]

theorem sel (m : Marks) (d : BitVec 7) (a : BitVec 7) (b : BitVec 7) : Statement (.sel m d a b) := by
  intro w h
  cases h
  delta decodeFields decodeInteger
  simp [pick_cons]

theorem isetp (m : Marks) (c : BitVec 4) (p : BitVec 3) (a : BitVec 7) (b : BitVec 7) : Statement (.isetp m c p a b) := by
  intro w h
  cases h
  delta decodeFields decodeInteger
  simp [pick_cons]

theorem iaddi (m : Marks) (d : BitVec 7) (i : BitVec 14) : Statement (.iaddi m d i) := by
  intro w h
  cases h
  delta decodeFields decodeInteger
  simp [pick_cons]

theorem andi (m : Marks) (d : BitVec 7) (i : BitVec 14) : Statement (.andi m d i) := by
  intro w h
  cases h
  delta decodeFields decodeInteger
  simp [pick_cons]

theorem movi (m : Marks) (d : BitVec 7) (i : BitVec 14) : Statement (.movi m d i) := by
  intro w h
  cases h
  delta decodeFields decodeInteger
  simp [pick_cons]

theorem mov (m : Marks) (d : BitVec 7) (a : BitVec 7) : Statement (.mov m d a) := by
  intro w h
  cases h
  delta decodeFields decodeInteger
  simp [pick_cons, and_eq_iff]

theorem cvt (m : Marks) (d : BitVec 7) (a : BitVec 7) : Statement (.cvt m d a) := by
  intro w h
  cases h
  delta decodeFields decodeInteger
  simp [pick_cons, and_eq_iff]

theorem pand (m : Marks) (d : BitVec 3) (a : BitVec 3) (b : BitVec 3) : Statement (.pand m d a b) := by
  intro w h
  cases h
  delta decodeFields decodeInteger
  simp [pick_cons, and_eq_iff]

theorem por (m : Marks) (d : BitVec 3) (a : BitVec 3) (b : BitVec 3) : Statement (.por m d a b) := by
  intro w h
  cases h
  delta decodeFields decodeInteger
  simp [pick_cons, and_eq_iff]

theorem pnot (m : Marks) (d : BitVec 3) (a : BitVec 3) : Statement (.pnot m d a) := by
  intro w h
  cases h
  delta decodeFields decodeInteger
  simp [pick_cons, and_eq_iff]

theorem fadd (m : Marks) (d : BitVec 7) (a : BitVec 7) (b : BitVec 7) : Statement (.fadd m d a b) := by
  intro w h
  cases h
  delta decodeFields decodeFloat
  simp [pick_cons]

theorem fsub (m : Marks) (d : BitVec 7) (a : BitVec 7) (b : BitVec 7) : Statement (.fsub m d a b) := by
  intro w h
  cases h
  delta decodeFields decodeFloat
  simp [pick_cons]

theorem fmul (m : Marks) (d : BitVec 7) (a : BitVec 7) (b : BitVec 7) : Statement (.fmul m d a b) := by
  intro w h
  cases h
  delta decodeFields decodeFloat
  simp [pick_cons]

theorem ffma (m : Marks) (d : BitVec 7) (a : BitVec 7) (b : BitVec 7) : Statement (.ffma m d a b) := by
  intro w h
  cases h
  delta decodeFields decodeFloat
  simp [pick_cons]

theorem ffms (m : Marks) (d : BitVec 7) (a : BitVec 7) (b : BitVec 7) : Statement (.ffms m d a b) := by
  intro w h
  cases h
  delta decodeFields decodeFloat
  simp [pick_cons]

theorem fnma (m : Marks) (d : BitVec 7) (a : BitVec 7) (b : BitVec 7) : Statement (.fnma m d a b) := by
  intro w h
  cases h
  delta decodeFields decodeFloat
  simp [pick_cons]

theorem fmin (m : Marks) (d : BitVec 7) (a : BitVec 7) (b : BitVec 7) : Statement (.fmin m d a b) := by
  intro w h
  cases h
  delta decodeFields decodeFloat
  simp [pick_cons]

theorem fmax (m : Marks) (d : BitVec 7) (a : BitVec 7) (b : BitVec 7) : Statement (.fmax m d a b) := by
  intro w h
  cases h
  delta decodeFields decodeFloat
  simp [pick_cons]

theorem fabs (m : Marks) (d : BitVec 7) (a : BitVec 7) : Statement (.fabs m d a) := by
  intro w h
  cases h
  delta decodeFields decodeFloat
  simp [pick_cons, and_eq_iff]

theorem fneg (m : Marks) (d : BitVec 7) (a : BitVec 7) : Statement (.fneg m d a) := by
  intro w h
  cases h
  delta decodeFields decodeFloat
  simp [pick_cons, and_eq_iff]

theorem fsetp (m : Marks) (c : BitVec 4) (p : BitVec 3) (a : BitVec 7) (b : BitVec 7) : Statement (.fsetp m c p a b) := by
  intro w h
  cases h
  delta decodeFields decodeFloat
  simp [pick_cons]

theorem frcp (m : Marks) (d : BitVec 7) (a : BitVec 7) : Statement (.frcp m d a) := by
  intro w h
  cases h
  delta decodeFields decodeFloat
  simp [pick_cons, and_eq_iff]

theorem frsq (m : Marks) (d : BitVec 7) (a : BitVec 7) : Statement (.frsq m d a) := by
  intro w h
  cases h
  delta decodeFields decodeFloat
  simp [pick_cons, and_eq_iff]

theorem fsqrt (m : Marks) (d : BitVec 7) (a : BitVec 7) : Statement (.fsqrt m d a) := by
  intro w h
  cases h
  delta decodeFields decodeFloat
  simp [pick_cons, and_eq_iff]

theorem fexp2 (m : Marks) (d : BitVec 7) (a : BitVec 7) : Statement (.fexp2 m d a) := by
  intro w h
  cases h
  delta decodeFields decodeFloat
  simp [pick_cons, and_eq_iff]

theorem flog2 (m : Marks) (d : BitVec 7) (a : BitVec 7) : Statement (.flog2 m d a) := by
  intro w h
  cases h
  delta decodeFields decodeFloat
  simp [pick_cons, and_eq_iff]

theorem fdot2 (m : Marks) (d : BitVec 7) (a : BitVec 7) (b : BitVec 7) : Statement (.fdot2 m d a b) := by
  intro w h
  cases h
  delta decodeFields decodeFloat
  simp [pick_cons]

theorem fscale (m : Marks) (d : BitVec 7) (a : BitVec 7) (b : BitVec 7) : Statement (.fscale m d a b) := by
  intro w h
  cases h
  delta decodeFields decodeFloat
  simp [pick_cons]

theorem fclass (m : Marks) (d : BitVec 7) (a : BitVec 7) : Statement (.fclass m d a) := by
  intro w h
  cases h
  delta decodeFields decodeFloat
  simp [pick_cons, and_eq_iff]

theorem frnd (m : Marks) (d : BitVec 7) (a : BitVec 7) : Statement (.frnd m d a) := by
  intro w h
  cases h
  delta decodeFields decodeFloat
  simp [pick_cons, and_eq_iff]

theorem aset (m : Marks) (d : BitVec 4) (a : BitVec 6) (b : BitVec 7) : Statement (.aset m d a b) := by
  intro w h
  cases h
  delta decodeFields decodeAffine
  simp [pick_cons, and_eq_iff]

theorem aadd (m : Marks) (d : BitVec 4) (a : BitVec 4) (b : BitVec 7) : Statement (.aadd m d a b) := by
  intro w h
  cases h
  delta decodeFields decodeAffine
  simp [pick_cons, and_eq_iff]

theorem astr (m : Marks) (d : BitVec 4) (a : BitVec 4) (b : BitVec 7) : Statement (.astr m d a b) := by
  intro w h
  cases h
  delta decodeFields decodeAffine
  simp [pick_cons, and_eq_iff]

theorem amul (m : Marks) (d : BitVec 4) (a : BitVec 4) (b : BitVec 7) : Statement (.amul m d a b) := by
  intro w h
  cases h
  delta decodeFields decodeAffine
  simp [pick_cons, and_eq_iff]

theorem aexp (m : Marks) (d : BitVec 4) (a : BitVec 4) (b : BitVec 7) : Statement (.aexp m d a b) := by
  intro w h
  cases h
  delta decodeFields decodeAffine
  simp [pick_cons, and_eq_iff]

theorem aget (m : Marks) (d : BitVec 6) (a : BitVec 4) : Statement (.aget m d a) := by
  intro w h
  cases h
  delta decodeFields decodeAffine
  simp [pick_cons, and_eq_iff]

theorem addr (m : Marks) (d : BitVec 6) (a : BitVec 7) (b : BitVec 7) : Statement (.addr m d a b) := by
  intro w h
  cases h
  delta decodeFields decodeAffine
  simp [pick_cons, and_eq_iff]

theorem shfl (m : Marks) (d : BitVec 7) (a : BitVec 7) (b : BitVec 7) : Statement (.shfl m d a b) := by
  intro w h
  cases h
  delta decodeFields decodeCrossLane
  simp [pick_cons]

theorem shflx (m : Marks) (d : BitVec 7) (a : BitVec 7) (b : BitVec 7) : Statement (.shflx m d a b) := by
  intro w h
  cases h
  delta decodeFields decodeCrossLane
  simp [pick_cons]

theorem bcast (m : Marks) (d : BitVec 7) (a : BitVec 7) (b : BitVec 7) : Statement (.bcast m d a b) := by
  intro w h
  cases h
  delta decodeFields decodeCrossLane
  simp [pick_cons]

theorem voteAny (m : Marks) (d : BitVec 3) (a : BitVec 3) : Statement (.voteAny m d a) := by
  intro w h
  cases h
  delta decodeFields decodeCrossLane
  simp [pick_cons, and_eq_iff]

theorem voteAll (m : Marks) (d : BitVec 3) (a : BitVec 3) : Statement (.voteAll m d a) := by
  intro w h
  cases h
  delta decodeFields decodeCrossLane
  simp [pick_cons, and_eq_iff]

theorem voteBal (m : Marks) (d : BitVec 7) (a : BitVec 3) : Statement (.voteBal m d a) := by
  intro w h
  cases h
  delta decodeFields decodeCrossLane
  simp [pick_cons, and_eq_iff]

theorem redc (m : Marks) (d : BitVec 7) (a : BitVec 7) : Statement (.redc m d a) := by
  intro w h
  cases h
  delta decodeFields decodeCrossLane
  simp [pick_cons, and_eq_iff]

theorem scan (m : Marks) (d : BitVec 7) (a : BitVec 7) : Statement (.scan m d a) := by
  intro w h
  cases h
  delta decodeFields decodeCrossLane
  simp [pick_cons, and_eq_iff]

theorem barArr (m : Marks) (c : BitVec 3) (n : BitVec 4) : Statement (.barArr m c n) := by
  intro w h
  cases h
  delta decodeFields decodeWorkgroup
  simp [pick_cons, and_eq_iff]

theorem barWait (m : Marks) (c : BitVec 3) (n : BitVec 4) : Statement (.barWait m c n) := by
  intro w h
  cases h
  delta decodeFields decodeWorkgroup
  simp [pick_cons, and_eq_iff]

theorem barrierArrival (n : Nat) : Statement (.barrierArrival n) := by
  intro w h
  cases h

theorem barPhase (m : Marks) : Statement (.barPhase m) := by
  intro w h
  cases h
  delta decodeFields decodeWorkgroup
  simp [pick_cons, and_eq_iff]

theorem phaseEnd (wg : Nat) : Statement (.phaseEnd wg) := by
  intro w h
  cases h

theorem grow (m : Marks) (k : BitVec 4) : Statement (.grow m k) := by
  intro w h
  cases h
  delta decodeFields decodeWorkgroup
  simp [pick_cons, and_eq_iff]

theorem growTry (m : Marks) (d : BitVec 3) (k : BitVec 4) : Statement (.growTry m d k) := by
  intro w h
  cases h
  delta decodeFields decodeWorkgroup
  simp [pick_cons, and_eq_iff]

theorem shrink (m : Marks) (k : BitVec 4) : Statement (.shrink m k) := by
  intro w h
  cases h
  delta decodeFields decodeWorkgroup
  simp [pick_cons, and_eq_iff]

theorem growGrant (cane : Nat) : Statement (.growGrant cane) := by
  intro w h
  cases h

theorem growVictimSelect (core : Nat) : Statement (.growVictimSelect core) := by
  intro w h
  cases h

theorem graft (m : Marks) (g : BitVec 13) : Statement (.graft m g) := by
  intro w h
  cases h
  delta decodeFields decodeWorkgroup
  simp [pick_cons, and_eq_iff]

theorem graftExecute (wg : Nat) : Statement (.graftExecute wg) := by
  intro w h
  cases h

theorem spawn (m : Marks) (a : BitVec 6) : Statement (.spawn m a) := by
  intro w h
  cases h
  delta decodeFields decodeWorkgroup
  simp [pick_cons, and_eq_iff]

theorem routeCheck (parcel : Nat) : Statement (.routeCheck parcel) := by
  intro w h
  cases h

theorem parcelWait (m : Marks) (a : BitVec 6) : Statement (.parcelWait m a) := by
  intro w h
  cases h
  delta decodeFields decodeWorkgroup
  simp [pick_cons, and_eq_iff]

theorem parcelComplete (parcel : Nat) : Statement (.parcelComplete parcel) := by
  intro w h
  cases h

theorem ld (m : Marks) (d : BitVec 7) (a : BitVec 7) (b : BitVec 7) : Statement (.ld m d a b) := by
  intro w h
  cases h
  delta decodeFields decodeMemory
  simp [pick_cons]

theorem st (m : Marks) (d : BitVec 7) (a : BitVec 7) (b : BitVec 7) : Statement (.st m d a b) := by
  intro w h
  cases h
  delta decodeFields decodeMemory
  simp [pick_cons]

theorem ldBlk (m : Marks) (d : BitVec 7) (a : BitVec 7) (b : BitVec 7) : Statement (.ldBlk m d a b) := by
  intro w h
  cases h
  delta decodeFields decodeMemory
  simp [pick_cons]

theorem stBlk (m : Marks) (d : BitVec 7) (a : BitVec 7) (b : BitVec 7) : Statement (.stBlk m d a b) := by
  intro w h
  cases h
  delta decodeFields decodeMemory
  simp [pick_cons]

theorem ldAcq (m : Marks) (d : BitVec 7) (a : BitVec 7) (b : BitVec 7) : Statement (.ldAcq m d a b) := by
  intro w h
  cases h
  delta decodeFields decodeMemory
  simp [pick_cons]

theorem stRel (m : Marks) (d : BitVec 7) (a : BitVec 7) (b : BitVec 7) : Statement (.stRel m d a b) := by
  intro w h
  cases h
  delta decodeFields decodeMemory
  simp [pick_cons]

theorem stSig (m : Marks) (d : BitVec 7) (a : BitVec 7) (b : BitVec 7) : Statement (.stSig m d a b) := by
  intro w h
  cases h
  delta decodeFields decodeMemory
  simp [pick_cons]

theorem fenceAcquire (m : Marks) (y : BitVec 1) (c : BitVec 3) : Statement (.fenceAcquire m y c) := by
  intro w h
  cases h
  delta decodeFields decodeMemory
  simp [pick_cons, and_eq_iff]

theorem fenceRelease (m : Marks) (y : BitVec 1) (c : BitVec 3) : Statement (.fenceRelease m y c) := by
  intro w h
  cases h
  delta decodeFields decodeMemory
  simp [pick_cons, and_eq_iff]

theorem fenceFull (m : Marks) (y : BitVec 1) (c : BitVec 3) : Statement (.fenceFull m y c) := by
  intro w h
  cases h
  delta decodeFields decodeMemory
  simp [pick_cons, and_eq_iff]

theorem atomAdd (m : Marks) (d : BitVec 7) (a : BitVec 7) (b : BitVec 7) : Statement (.atomAdd m d a b) := by
  intro w h
  cases h
  delta decodeFields decodeMemory
  simp [pick_cons]

theorem atomMin (m : Marks) (d : BitVec 7) (a : BitVec 7) (b : BitVec 7) : Statement (.atomMin m d a b) := by
  intro w h
  cases h
  delta decodeFields decodeMemory
  simp [pick_cons]

theorem atomMax (m : Marks) (d : BitVec 7) (a : BitVec 7) (b : BitVec 7) : Statement (.atomMax m d a b) := by
  intro w h
  cases h
  delta decodeFields decodeMemory
  simp [pick_cons]

theorem atomAnd (m : Marks) (d : BitVec 7) (a : BitVec 7) (b : BitVec 7) : Statement (.atomAnd m d a b) := by
  intro w h
  cases h
  delta decodeFields decodeMemory
  simp [pick_cons]

theorem atomOr (m : Marks) (d : BitVec 7) (a : BitVec 7) (b : BitVec 7) : Statement (.atomOr m d a b) := by
  intro w h
  cases h
  delta decodeFields decodeMemory
  simp [pick_cons]

theorem atomXor (m : Marks) (d : BitVec 7) (a : BitVec 7) (b : BitVec 7) : Statement (.atomXor m d a b) := by
  intro w h
  cases h
  delta decodeFields decodeMemory
  simp [pick_cons]

theorem atomXchg (m : Marks) (d : BitVec 7) (a : BitVec 7) (b : BitVec 7) : Statement (.atomXchg m d a b) := by
  intro w h
  cases h
  delta decodeFields decodeMemory
  simp [pick_cons]

theorem atomCas (m : Marks) (d : BitVec 7) (a : BitVec 7) (b : BitVec 6) : Statement (.atomCas m d a b) := by
  intro w h
  cases h
  delta decodeFields decodeMemory
  simp [pick_cons, and_eq_iff]

theorem red (m : Marks) (d : BitVec 7) (a : BitVec 7) (b : BitVec 7) : Statement (.red m d a b) := by
  intro w h
  cases h
  delta decodeFields decodeMemory
  simp [pick_cons]

theorem waitAddr (m : Marks) (d : BitVec 3) (a : BitVec 7) (b : BitVec 7) : Statement (.waitAddr m d a b) := by
  intro w h
  cases h
  delta decodeFields decodeMemory
  simp [pick_cons, and_eq_iff]

theorem waitAddrTimeout (cane : Nat) : Statement (.waitAddrTimeout cane) := by
  intro w h
  cases h

theorem ringPut (m : Marks) (d : BitVec 7) (a : BitVec 7) : Statement (.ringPut m d a) := by
  intro w h
  cases h
  delta decodeFields decodeMemory
  simp [pick_cons, and_eq_iff]

theorem ringAcq (m : Marks) (d : BitVec 7) (a : BitVec 7) (b : BitVec 3) : Statement (.ringAcq m d a b) := by
  intro w h
  cases h
  delta decodeFields decodeMemory
  simp [pick_cons, and_eq_iff]

theorem ringRel (m : Marks) (d : BitVec 7) (a : BitVec 7) : Statement (.ringRel m d a) := by
  intro w h
  cases h
  delta decodeFields decodeMemory
  simp [pick_cons, and_eq_iff]

theorem bankRole (m : Marks) (d : BitVec 3) (a : BitVec 7) (b : BitVec 7) : Statement (.bankRole m d a b) := by
  intro w h
  cases h
  delta decodeFields decodeMemory
  simp [pick_cons, and_eq_iff]

theorem ldNc (m : Marks) (d : BitVec 7) (a : BitVec 7) (b : BitVec 7) : Statement (.ldNc m d a b) := by
  intro w h
  cases h
  delta decodeFields decodeMemory
  simp [pick_cons]

theorem inval (m : Marks) (a : BitVec 7) (b : BitVec 7) : Statement (.inval m a b) := by
  intro w h
  cases h
  delta decodeFields decodeMemory
  simp [pick_cons, and_eq_iff]

theorem cp4 (m : Marks) (d : BitVec 7) (a : BitVec 7) (b : BitVec 6) : Statement (.cp4 m d a b) := by
  intro w h
  cases h
  delta decodeFields decodeAsync
  simp [pick_cons, and_eq_iff]

theorem cp8 (m : Marks) (d : BitVec 7) (a : BitVec 7) (b : BitVec 6) : Statement (.cp8 m d a b) := by
  intro w h
  cases h
  delta decodeFields decodeAsync
  simp [pick_cons, and_eq_iff]

theorem cp16 (m : Marks) (d : BitVec 7) (a : BitVec 7) (b : BitVec 6) : Statement (.cp16 m d a b) := by
  intro w h
  cases h
  delta decodeFields decodeAsync
  simp [pick_cons, and_eq_iff]

theorem cpSeal (m : Marks) : Statement (.cpSeal m) := by
  intro w h
  cases h
  delta decodeFields decodeAsync
  simp [pick_cons, and_eq_iff]

theorem cpWaitb (m : Marks) (n : BitVec 4) : Statement (.cpWaitb m n) := by
  intro w h
  cases h
  delta decodeFields decodeAsync
  simp [pick_cons, and_eq_iff]

theorem tagWanyImm (m : Marks) (i : BitVec 14) : Statement (.tagWanyImm m i) := by
  intro w h
  cases h
  delta decodeFields decodeAsync
  simp [pick_cons, and_eq_iff]

theorem tagWanyReg (m : Marks) (d : BitVec 6) : Statement (.tagWanyReg m d) := by
  intro w h
  cases h
  delta decodeFields decodeAsync
  simp [pick_cons, and_eq_iff]

theorem tagWallImm (m : Marks) (i : BitVec 14) : Statement (.tagWallImm m i) := by
  intro w h
  cases h
  delta decodeFields decodeAsync
  simp [pick_cons, and_eq_iff]

theorem tagWallReg (m : Marks) (d : BitVec 6) : Statement (.tagWallReg m d) := by
  intro w h
  cases h
  delta decodeFields decodeAsync
  simp [pick_cons, and_eq_iff]

theorem tagFfr (m : Marks) (d : BitVec 7) (a : BitVec 6) : Statement (.tagFfr m d a) := by
  intro w h
  cases h
  delta decodeFields decodeAsync
  simp [pick_cons, and_eq_iff]

theorem tagClrImm (m : Marks) (i : BitVec 14) : Statement (.tagClrImm m i) := by
  intro w h
  cases h
  delta decodeFields decodeAsync
  simp [pick_cons, and_eq_iff]

theorem tagClrReg (m : Marks) (d : BitVec 6) : Statement (.tagClrReg m d) := by
  intro w h
  cases h
  delta decodeFields decodeAsync
  simp [pick_cons, and_eq_iff]

theorem mcast (m : Marks) (d : BitVec 7) (a : BitVec 7) (b : BitVec 7) : Statement (.mcast m d a b) := by
  intro w h
  cases h
  delta decodeFields decodeAsync
  simp [pick_cons]

theorem pull (m : Marks) (d : BitVec 7) (a : BitVec 7) (b : BitVec 6) : Statement (.pull m d a b) := by
  intro w h
  cases h
  delta decodeFields decodeAsync
  simp [pick_cons, and_eq_iff]

theorem gather (m : Marks) (d : BitVec 7) (a : BitVec 7) (b : BitVec 7) : Statement (.gather m d a b) := by
  intro w h
  cases h
  delta decodeFields decodeAsync
  simp [pick_cons]

theorem decant (m : Marks) (d : BitVec 3) (a : BitVec 7) : Statement (.decant m d a) := by
  intro w h
  cases h
  delta decodeFields decodeAsync
  simp [pick_cons, and_eq_iff]

theorem decantFlip (op : Nat) : Statement (.decantFlip op) := by
  intro w h
  cases h

theorem decantFlipApply (op : Nat) (die : Nat) : Statement (.decantFlipApply op die) := by
  intro w h
  cases h

theorem asyncOperationPerform (op : Nat) : Statement (.asyncOperationPerform op) := by
  intro w h
  cases h

theorem gatherPerform (op : Nat) (lane : Nat) : Statement (.gatherPerform op lane) := by
  intro w h
  cases h

theorem mcastDelivery (op : Nat) (member : Nat) : Statement (.mcastDelivery op member) := by
  intro w h
  cases h

theorem asyncOperationComplete (op : Nat) : Statement (.asyncOperationComplete op) := by
  intro w h
  cases h

theorem ttEnq (m : Marks) (d : BitVec 7) (a : BitVec 7) (b : BitVec 7) : Statement (.ttEnq m d a b) := by
  intro w h
  cases h
  delta decodeFields decodeTile
  simp [pick_cons]

theorem ttWait (m : Marks) (d : BitVec 3) (a : BitVec 7) (b : BitVec 7) : Statement (.ttWait m d a b) := by
  intro w h
  cases h
  delta decodeFields decodeTile
  simp [pick_cons, and_eq_iff]

theorem tidSet (m : Marks) (a : BitVec 7) (b : BitVec 7) : Statement (.tidSet m a b) := by
  intro w h
  cases h
  delta decodeFields decodeTile
  simp [pick_cons, and_eq_iff]

theorem tidClr (m : Marks) (b : BitVec 7) : Statement (.tidClr m b) := by
  intro w h
  cases h
  delta decodeFields decodeTile
  simp [pick_cons, and_eq_iff]

theorem saccCfg (m : Marks) (a : BitVec 7) : Statement (.saccCfg m a) := by
  intro w h
  cases h
  delta decodeFields decodeTile
  simp [pick_cons, and_eq_iff]

theorem saccRd (m : Marks) (d : BitVec 7) (a : BitVec 7) : Statement (.saccRd m d a) := by
  intro w h
  cases h
  delta decodeFields decodeTile
  simp [pick_cons, and_eq_iff]

theorem ttCancel (m : Marks) (d : BitVec 3) (a : BitVec 7) (b : BitVec 7) : Statement (.ttCancel m d a b) := by
  intro w h
  cases h
  delta decodeFields decodeTile
  simp [pick_cons, and_eq_iff]

theorem taskIssue (task : Nat) : Statement (.taskIssue task) := by
  intro w h
  cases h

theorem loadB (task : Nat) : Statement (.loadB task) := by
  intro w h
  cases h

theorem fetchA (task : Nat) : Statement (.fetchA task) := by
  intro w h
  cases h

theorem align (task : Nat) : Statement (.align task) := by
  intro w h
  cases h

theorem serial (task : Nat) : Statement (.serial task) := by
  intro w h
  cases h

theorem reduce (task : Nat) : Statement (.reduce task) := by
  intro w h
  cases h

theorem scale (task : Nat) : Statement (.scale task) := by
  intro w h
  cases h

theorem drain (task : Nat) : Statement (.drain task) := by
  intro w h
  cases h

theorem pressApplyPartial (n : Nat) : Statement (.pressApplyPartial n) := by
  intro w h
  cases h

theorem collectiveStart (task : Nat) : Statement (.collectiveStart task) := by
  intro w h
  cases h

theorem taskRetire (task : Nat) : Statement (.taskRetire task) := by
  intro w h
  cases h

theorem resultReturn (cane : Nat) : Statement (.resultReturn cane) := by
  intro w h
  cases h

theorem homeWriteApply (n : Nat) : Statement (.homeWriteApply n) := by
  intro w h
  cases h

theorem remoteWriteApply (n : Nat) (die : Nat) : Statement (.remoteWriteApply n die) := by
  intro w h
  cases h

theorem ownWriteAck (n : Nat) : Statement (.ownWriteAck n) := by
  intro w h
  cases h

theorem hostWriteAck (vf : Nat) : Statement (.hostWriteAck vf) := by
  intro w h
  cases h

theorem pageWalkComplete (walk : Nat) : Statement (.pageWalkComplete walk) := by
  intro w h
  cases h

theorem translationResponse (terrace : Nat) (entry : Nat) : Statement (.translationResponse terrace entry) := by
  intro w h
  cases h

theorem pipeSelect (cane : Nat) : Statement (.pipeSelect cane) := by
  intro w h
  cases h

theorem forcedSwitch (cane : Nat) : Statement (.forcedSwitch cane) := by
  intro w h
  cases h

theorem agePriority (cane : Nat) : Statement (.agePriority cane) := by
  intro w h
  cases h

theorem reconverge (cane : Nat) : Statement (.reconverge cane) := by
  intro w h
  cases h

theorem distributorOffer (die : Nat) : Statement (.distributorOffer die) := by
  intro w h
  cases h

theorem exitVector (cane : Nat) : Statement (.exitVector cane) := by
  intro w h
  cases h

theorem exitDecision (wg : Nat) : Statement (.exitDecision wg) := by
  intro w h
  cases h

theorem exitBoundExpiry (wg : Nat) : Statement (.exitBoundExpiry wg) := by
  intro w h
  cases h

theorem drainEscalation (wg : Nat) : Statement (.drainEscalation wg) := by
  intro w h
  cases h

theorem breakpointHit (cane : Nat) : Statement (.breakpointHit cane) := by
  intro w h
  cases h

theorem dbgCtlWrite (terrace : Nat) (value : BitVec 32) : Statement (.dbgCtlWrite terrace value) := by
  intro w h
  cases h

theorem dbgEvpop (terrace : Nat) (value : BitVec 32) : Statement (.dbgEvpop terrace value) := by
  intro w h
  cases h

theorem dbgResume (terrace : Nat) (value : BitVec 32) : Statement (.dbgResume terrace value) := by
  intro w h
  cases h

theorem dbgStep (terrace : Nat) (value : BitVec 32) : Statement (.dbgStep terrace value) := by
  intro w h
  cases h

theorem trcCtlWrite (terrace : Nat) (value : BitVec 32) : Statement (.trcCtlWrite terrace value) := by
  intro w h
  cases h

theorem replayCtlWrite (terrace : Nat) (value : BitVec 32) : Statement (.replayCtlWrite terrace value) := by
  intro w h
  cases h

theorem replayHalt (terrace : Nat) : Statement (.replayHalt terrace) := by
  intro w h
  cases h

theorem replayFree (terrace : Nat) : Statement (.replayFree terrace) := by
  intro w h
  cases h

theorem replayGateGrant (terrace : Nat) (gate : Nat) : Statement (.replayGateGrant terrace gate) := by
  intro w h
  cases h

theorem registerWrite (addr : BitVec 64) (value : BitVec 64) : Statement (.registerWrite addr value) := by
  intro w h
  cases h

theorem signalWindowWrite (vf : Nat) (offset : BitVec 64) (data : List Byte) : Statement (.signalWindowWrite vf offset data) := by
  intro w h
  cases h

theorem signalWindowRead (vf : Nat) (offset : BitVec 64) : Statement (.signalWindowRead vf offset) := by
  intro w h
  cases h

theorem memoryWindowWrite (vf : Nat) (offset : BitVec 64) (data : List Byte) : Statement (.memoryWindowWrite vf offset data) := by
  intro w h
  cases h

theorem memoryWindowRead (vf : Nat) (offset : BitVec 64) (len : Nat) : Statement (.memoryWindowRead vf offset len) := by
  intro w h
  cases h

theorem vfAttest (vf : Nat) (value : BitVec 32) : Statement (.vfAttest vf value) := by
  intro w h
  cases h

theorem attestReportDone (vf : Nat) : Statement (.attestReportDone vf) := by
  intro w h
  cases h

theorem vfFlr (vf : Nat) : Statement (.vfFlr vf) := by
  intro w h
  cases h

theorem coldReset : Statement .coldReset := by
  intro w h
  cases h

theorem warmReset : Statement .warmReset := by
  intro w h
  cases h

theorem firmwareImageLoad (image : Image) : Statement (.firmwareImageLoad image) := by
  intro w h
  cases h

theorem linkFlitReplay (link : Nat) : Statement (.linkFlitReplay link) := by
  intro w h
  cases h

theorem linkDown (link : Nat) : Statement (.linkDown link) := by
  intro w h
  cases h

theorem linkRetrain (link : Nat) : Statement (.linkRetrain link) := by
  intro w h
  cases h

theorem terraceQuiesced (terrace : Nat) : Statement (.terraceQuiesced terrace) := by
  intro w h
  cases h

theorem stewardReplace (terrace : Nat) : Statement (.stewardReplace terrace) := by
  intro w h
  cases h

theorem headlandLend (cluster : Nat) : Statement (.headlandLend cluster) := by
  intro w h
  cases h

theorem headlandRevokeStart (cluster : Nat) : Statement (.headlandRevokeStart cluster) := by
  intro w h
  cases h

theorem headlandReturn (cluster : Nat) : Statement (.headlandReturn cluster) := by
  intro w h
  cases h

theorem usagePeriodEnd (terrace : Nat) : Statement (.usagePeriodEnd terrace) := by
  intro w h
  cases h

theorem quotaReached (terrace : Nat) : Statement (.quotaReached terrace) := by
  intro w h
  cases h

theorem vdevQuantumEnd (terrace : Nat) : Statement (.vdevQuantumEnd terrace) := by
  intro w h
  cases h

theorem vdevTurnStart (terrace : Nat) : Statement (.vdevTurnStart terrace) := by
  intro w h
  cases h

theorem energyUpdate (cluster : Nat) (energy : BitVec 32) : Statement (.energyUpdate cluster energy) := by
  intro w h
  cases h

theorem stallRatioSample (cluster : Nat) (ratio : BitVec 32) : Statement (.stallRatioSample cluster ratio) := by
  intro w h
  cases h

theorem voltageSettled (cluster : Nat) : Statement (.voltageSettled cluster) := by
  intro w h
  cases h

theorem frequencySwitchEnd (cluster : Nat) : Statement (.frequencySwitchEnd cluster) := by
  intro w h
  cases h

theorem hotspotOverLimit (cluster : Nat) (hot : BitVec 32) : Statement (.hotspotOverLimit cluster hot) := by
  intro w h
  cases h

theorem hotspotClear (cluster : Nat) (hot : BitVec 32) : Statement (.hotspotClear cluster hot) := by
  intro w h
  cases h

theorem hotspotCritical (cluster : Nat) (hot : BitVec 32) : Statement (.hotspotCritical cluster hot) := by
  intro w h
  cases h

theorem supFunctionComplete (cane : Nat) : Statement (.supFunctionComplete cane) := by
  intro w h
  cases h

theorem tlbInvRetire (cane : Nat) : Statement (.tlbInvRetire cane) := by
  intro w h
  cases h

theorem codeFetchReturn (cane : Nat) : Statement (.codeFetchReturn cane) := by
  intro w h
  cases h

theorem memorySoftError (kind : Nat) (n : Nat) : Statement (.memorySoftError kind n) := by
  intro w h
  cases h

theorem traceCycleReached (die : Nat) : Statement (.traceCycleReached die) := by
  intro w h
  cases h

theorem traceTimeRecord (die : Nat) : Statement (.traceTimeRecord die) := by
  intro w h
  cases h

theorem firmwareFetchFailure : Statement .firmwareFetchFailure := by
  intro w h
  cases h

end Sys2Proof.Laws.Decoding
end

