-- ==== Sys2Proof/Tests/Slice0.lean ====
section
/-! SUPPORT. Tests: words that the spec's encodings give, ill-formed terms that WellFormed refuses, results that the
spec's worked examples or a calculation by hand from its rules give, and for every statement a state and operands that
meet its hypotheses together. -/

namespace Sys2Proof.Tests

open Sys2Proof Sys2Proof.Machine Sys2Proof.Claims

set_option Elab.async false

/-! ## Helpers -/

/-- No mark is set. -/
abbrev o : Marks := ⟨false, false, false⟩
/-- S = 1. -/
abbrev mS : Marks := ⟨true, false, false⟩
/-- T = 1. -/
abbrev mT : Marks := ⟨false, true, false⟩
/-- U = 1. -/
abbrev mU : Marks := ⟨false, false, true⟩

/-- Every word decodes to the instruction beside it. -/
def DecodesAll (xs : List (Nat × Instr)) : Bool := xs.all fun x => decodeTableWord 32 x.1 == some x.2

/-- The next state of an outcome, the reset state where there is none. -/
def out : Out → State
  | .next t => t
  | _ => State.reset

/-- Lanes that all hold a word. -/
abbrev row (w : Word) : List Word := List.replicate 32 w

/-- A cane on core 0 of a workgroup of the management complex, at level M, which owns a pipe. -/
def cane : Cane :=
  { Cane.zero with id := 10, live := true, wg := 1, core := 0, pipe := some 0, priv := 2, nreg := 128, ext0 := (0, 16),
                   pc := 256 }
/-- Its workgroup, with 4 KiB of scratch. -/
def group : Workgroup := { Workgroup.zero with id := 1, core := 0, scrSize := 4096 }
/-- That cane stands at a word at 256. -/
def base : State :=
  { State.reset with cur := cane, workgroups := [group], iss := ⟨256, 2, none, false⟩, nextId := 100 }
/-- Its registers v0 upward, and MODE. -/
def withV (mode : Word) (v : List (List Word)) : State := { base with cur := { cane with v := v, mode := mode } }
/-- MODE.ET of a type code, with everything else 0. -/
abbrev et (n : Nat) : Word := BitVec.ofNat 32 (16 * n)

/-- A leaf parcel of terrace t with one workgroup, its records of 1024 bytes from 0x40000. -/
def leaf (t : Nat) : Machine.Parcel :=
  { id := 1, addr := 0x20000, pa := 0x20000, terrace := t, vdev := 0, die := 0, root := 0x20000, parent := none, kind := 1,
    priority := 4, propagate := false, restartable := false, setLog := 0, taskType := 0, entry := 256, counter := 0,
    area := 0, areaSize := 0, maxCores := 8, maxBanks := 48, maxScratch := 4096, energy := 0, count := 1, nextWg := 1,
    phaseArea := 0x40000, stride := 1024, status := 2, queue := 0, spawned := false, faulted := false, stamp := [],
    drained := false, launch := 0, retagged := false }
/-- A page-table entry that maps the first GiB onto itself, for every access (R323), stands at 0x100000. -/
def oneMap : List Host.Cell := [(0x100000, 0x1D#8)]
/-- A running terrace of the first GiB of memory whose two stages use that table. -/
def land : Terrace :=
  { Terrace.zero with
    part := { PartEntry.zero with state := .running, vdevs := 1, s2root := 0x100000, weight := 1, regions := [⟨0, 2 ^ 30, 0⟩] }
    roots := [some ⟨0x100000, 1⟩] }
/-- The translation of that GiB for terrace 0. -/
def entry0 : TlbEntry := ⟨0, 0, 0, 2 ^ 30, 0, true, true, true⟩
/-- The cane of `base` runs for a leaf of terrace 0, with its translation cached. -/
def tenant : State :=
  { base with workgroups := [{ group with terrace := 0, parcel := some 1 }], parcels := [leaf 0], terraces := [land],
              mem := oneMap, cores := [{ Core.zero with utlb := [entry0] }] }

/-! ## Decoding (R37, R50, R51): each word is written out from the format of its row -/

theorem test_decode_control : DecodesAll
    [(0x00000000, .nop o),
     (0x00800000, .nop mS),
     (0x00400000, .nop mT),
     (0x01000123, .mode o 0x123),
     (0x02000180, .moder o 3),
     (0x04000005, .bra o 5),
     (0x051FFFFE, .brau o 0x1FFFFE),
     (0x06000009, .join o 9),
     (0x07800040, .call mS 64),
     (0x08000000, .ret o),
     (0x09000200, .jmpr o 2),
     (0x0A000007, .trap o 7),
     (0x0B000000, .eret o),
     (0x0C000000, .exit0 o),
     (0x0C000001, .exit1 o),
     (0x0C000002, .exit2 o),
     (0x0D000003, .bkpt o 3)] = true := by
  decide +kernel

theorem test_decode_system : DecodesAll
    [(0x0E000055, .mark o 0x55),
     (0x0F018006, .sysRd o 6 6),
     (0x10018008, .sysWr o 6 8),
     (0x11010010, .perfRd o 2 0x10),
     (0x12000002, .trig o 2),
     (0x13008007, .pwrReq o 2 7),
     (0x14008001, .faultResume o 2),
     (0x14008002, .faultRetire o 2),
     (0x14008010, .fqSet o 2),
     (0x14008011, .s1Root o 2),
     (0x14008012, .vdSelect o 2),
     (0x14008013, .s1Page o 2),
     (0x14008020, .decantSet o 2),
     (0x14008021, .decantClr o 2),
     (0x14008022, .urgent o 2),
     (0x14008023, .supDrain o 2),
     (0x14008080, .terraceGet o 2),
     (0x14008081, .terraceSet o 2),
     (0x14008082, .terraceCommit o 2),
     (0x14008083, .terraceQuiesce o 2),
     (0x14008084, .terraceOff o 2),
     (0x14008085, .keyLoad o 2),
     (0x14008086, .terraceScrub o 2),
     (0x14008087, .s2Inv o 2),
     (0x14008088, .s2Page o 2),
     (0x14008089, .headlandRevoke o 2),
     (0x1400808A, .terraceSave o 2),
     (0x1400808B, .terraceRestore o 2),
     (0x1400808C, .stewardSet o 2),
     (0x1400808D, .mfqSet o 2),
     (0x15000000, .tlbInvTerrace o),
     (0x15000001, .tlbInvVdev o)] = true := by
  decide +kernel

theorem test_decode_integer : DecodesAll
    [(0x20004103, .iadd o 1 2 3),
     (0x21004103, .isub o 1 2 3),
     (0x22004103, .imul o 1 2 3),
     (0x23004103, .imulh o 1 2 3),
     (0x24004103, .imad o 1 2 3),
     (0x25004103, .idiv o 1 2 3),
     (0x26004103, .irem o 1 2 3),
     (0x27004103, .imin o 1 2 3),
     (0x28004103, .imax o 1 2 3),
     (0x2B004103, .and o 1 2 3),
     (0x2C004103, .or o 1 2 3),
     (0x2D004103, .xor o 1 2 3),
     (0x2F004103, .shl o 1 2 3),
     (0x30004103, .shr o 1 2 3),
     (0x31004103, .sar o 1 2 3),
     (0x32004103, .rot o 1 2 3),
     (0x36004103, .bfx o 1 2 3),
     (0x37004103, .bfi o 1 2 3),
     (0x38004103, .sel o 1 2 3),
     (0x29004100, .iabs o 1 2),
     (0x2A004100, .ineg o 1 2),
     (0x2E004100, .not o 1 2),
     (0x33004100, .popc o 1 2),
     (0x34004100, .clz o 1 2),
     (0x35004100, .brev o 1 2),
     (0x3D004100, .mov o 1 2),
     (0x3E004100, .cvt o 1 2),
     (0x20204082, .iadd mU 1 1 2),
     (0x39048205, .isetp o 2 2 4 5),
     (0x3A017FFD, .iaddi o 5 0x3FFD),
     (0x3B0140FF, .andi o 5 0xFF),
     (0x3C014064, .movi o 5 100),
     (0x3F004103, .pand o 1 2 3),
     (0x40004103, .por o 1 2 3),
     (0x41004100, .pnot o 1 2)] = true := by
  decide +kernel

theorem test_decode_float : DecodesAll
    [(0x50004103, .fadd o 1 2 3),
     (0x51004103, .fsub o 1 2 3),
     (0x52004103, .fmul o 1 2 3),
     (0x53004103, .ffma o 1 2 3),
     (0x54004103, .ffms o 1 2 3),
     (0x55004103, .fnma o 1 2 3),
     (0x56004103, .fmin o 1 2 3),
     (0x57004103, .fmax o 1 2 3),
     (0x60004103, .fdot2 o 1 2 3),
     (0x61004103, .fscale o 1 2 3),
     (0x58004100, .fabs o 1 2),
     (0x59004100, .fneg o 1 2),
     (0x5B004100, .frcp o 1 2),
     (0x5C004100, .frsq o 1 2),
     (0x5D004100, .fsqrt o 1 2),
     (0x5E004100, .fexp2 o 1 2),
     (0x5F004100, .flog2 o 1 2),
     (0x62004100, .fclass o 1 2),
     (0x63004100, .frnd o 1 2),
     (0x5A048205, .fsetp o 2 2 4 5)] = true := by
  decide +kernel

theorem test_decode_affine_cross : DecodesAll
    [(0x7000CA16, .aset o 3 10 22),
     (0x7100C189, .aadd o 3 3 9),
     (0x7200C189, .astr o 3 3 9),
     (0x7300C189, .amul o 3 3 9),
     (0x7400C189, .aexp o 3 3 9),
     (0x75050180, .aget o 10 3),
     (0x76052189, .addr o 10 67 9),
     (0x8020C2FF, .shfl mU 3 5 127),
     (0x81004103, .shflx o 1 2 3),
     (0x82004103, .bcast o 1 2 3),
     (0x80004103, .shfl o 1 2 3),
     (0x83004100, .voteAny o 1 2),
     (0x84004100, .voteAll o 1 2),
     (0x8501C100, .voteBal o 7 2),
     (0x86004100, .redc o 1 2),
     (0x87004100, .scan o 1 2)] = true := by
  decide +kernel

theorem test_decode_workgroup : DecodesAll
    [(0x90000012, .barArr o 1 2),
     (0x91000012, .barWait o 1 2),
     (0x92000000, .barPhase o),
     (0x93000002, .grow o 2),
     (0x9400C002, .growTry o 3 2),
     (0x95000002, .shrink o 2),
     (0x96000005, .graft o 5),
     (0x97000A00, .spawn o 10),
     (0x98000A00, .parcelWait o 10)] = true := by
  decide +kernel

theorem test_decode_memory : DecodesAll
    [(0xA002A189, .ld o 10 67 9),
     (0xA1010609, .st o 4 12 9),
     (0xA20421FF, .ldBlk o 16 67 127),
     (0xA310C87F, .stBlk o 67 16 127),
     (0xA402827F, .ldAcq o 10 4 127),
     (0xA501017F, .stRel o 4 2 127),
     (0xA601017F, .stSig o 4 2 127),
     (0xA7000033, .fenceFull o 1 3),
     (0xA7000005, .fenceAcquire o 0 5),
     (0xA700002B, .fenceRelease o 1 3),
     (0xA8008203, .atomAdd o 2 4 3),
     (0xA9008203, .atomMin o 2 4 3),
     (0xAA008203, .atomMax o 2 4 3),
     (0xAB008203, .atomAnd o 2 4 3),
     (0xAC008203, .atomOr o 2 4 3),
     (0xAD008203, .atomXor o 2 4 3),
     (0xAE008203, .atomXchg o 2 4 3),
     (0xAF008206, .atomCas o 2 4 3),
     (0xB001017F, .red o 4 2 127),
     (0xB1006109, .waitAddr o 1 66 9),
     (0xB211087F, .ringPut o 68 16),
     (0xB3042202, .ringAcq o 16 68 2),
     (0xB4042200, .ringRel o 16 68),
     (0xB5004103, .bankRole o 1 2 3),
     (0xB600827F, .ldNc o 2 4 127),
     (0xB700027F, .inval o 4 127)] = true := by
  decide +kernel

theorem test_decode_engine : DecodesAll
    [(0xC00F0F01, .cp4 o 60 30 1),
     (0xC00A0F01, .cp4 o 40 30 1),
     (0xC1116302, .cp8 o 69 70 2),
     (0xC2114F04, .cp16 o 69 30 4),
     (0xC3000000, .cpSeal o),
     (0xC4000002, .cpWaitb o 2),
     (0xC51FC003, .tagWanyImm o 3),
     (0xC5028000, .tagWanyReg o 5),
     (0xC61FC003, .tagWallImm o 3),
     (0xC6028000, .tagWallReg o 5),
     (0xC701C500, .tagFfr o 7 5),
     (0xC81FC003, .tagClrImm o 3),
     (0xC8028000, .tagClrReg o 5),
     (0xC90A230B, .mcast o 40 70 11),
     (0xCA0A1505, .pull o 40 42 5),
     (0xCB114F0B, .gather o 69 30 11),
     (0xCC00C600, .decant o 3 12)] = true := by
  decide +kernel

theorem test_decode_tile : DecodesAll
    [(0xD00A187F, .ttEnq o 40 48 127),
     (0xD1005409, .ttWait o 1 40 9),
     (0xD2001809, .tidSet o 48 9),
     (0xD3000009, .tidClr o 9),
     (0xD4000180, .saccCfg o 3),
     (0xD501C480, .saccRd o 7 9),
     (0xD6005409, .ttCancel o 1 40 9)] = true := by
  decide +kernel
/-! ## Element-wise instructions -/

/-- v1 = 7, v2 = −3, v3 = 4, and FP32 or packed values where a test gives its MODE. -/
def ints : State := withV (et 0) [row 0#32, row 7#32, row 0xFFFFFFFD#32, row 4#32]
theorem test_arithmetic_can_run : (∃ x, exactOf (.imad o 3#7 1#7 2#7) = some (o, 3#7, [3#7, 1#7, 2#7], x))
    ∧ ints.cur.etype = some .i32 ∧ CanRun o ints ElemType.isInt false 3#7 [3#7, 1#7, 2#7] :=
  ⟨⟨_, rfl⟩, by decide, by decide, by decide⟩
theorem test_division_can_run : (∃ g, elementOf (.idiv o 3#7 1#7 2#7) = some (o, 3#7, [1#7, 2#7], g))
    ∧ ints.cur.etype = some .i32 ∧ CanRun o ints ElemType.isInt false 3#7 [1#7, 2#7] :=
  ⟨⟨_, rfl⟩, by decide, by decide, by decide⟩
theorem test_shift_can_run : (∃ p, shiftOf (.sar o 3#7 2#7 1#7) = some (o, 3#7, [2#7, 1#7], p))
    ∧ CanRun o ints ElemType.isInt false 3#7 [2#7, 1#7] ∧ CanRun o ints wideInt false 3#7 [1#7, 2#7]
    ∧ CanRun o ints wideInt false 3#7 [3#7, 1#7, 2#7] :=
  ⟨⟨_, rfl⟩, ⟨by decide, by decide⟩, ⟨by decide, by decide⟩, by decide, by decide⟩
theorem test_bitwise_can_run : (∃ f, bitOf (.sel o 3#7 1#7 2#7) = some (o, 3#7, [3#7, 1#7, 2#7], f))
    ∧ CanRun o ints anyType false 3#7 [3#7, 1#7, 2#7] := ⟨⟨_, rfl⟩, by decide, by decide⟩
theorem test_integer_types : ElemType.i8.isInt = true ∧ ElemType.i32.isInt = true ∧ ElemType.i8 ≠ .i32
    ∧ (255 : Nat) < 2 ^ ElemType.n8.width ∧ ElemType.i16.signed = true ∧ intOf .i16 0x8000 = ElemType.i16.minInt
    ∧ intOf .i16 0xFFFF = -1 := by decide
theorem test_element_form : (∃ f, elementForm (.bfi o 3#7 1#7 2#7) = some (3#7, [3#7, 1#7, 2#7], f))
    ∧ (∃ f, elementForm (.irem o 3#7 1#7 2#7) = some (3#7, [1#7, 2#7], f)) := ⟨⟨_, rfl⟩, _, rfl⟩
/-- R13, R46, R146: each check in turn. -/
theorem test_element_checks :
    (∀ r ∈ [3#7, 1#7, 2#7], r.toNat < ints.cur.nreg)
    ∧ out (exec (.iadd o 3#7 1#7 2#7) (withV (et 8) [])) = ((withV (et 8) []).raise .illegalMode)
    ∧ out (exec (.iadd o 3#7 2#7 4#7) (withV (et 6) [])) = ((withV (et 6) []).raise .illegalEncoding)
    ∧ out (exec (.iadd o 7#7 2#7 4#7) (withV 0x10000#32 [])) = ((withV 0x10000#32 []).raise .blockRange) := by
  decide +kernel
/-- Lane 5 of a register after an instruction. -/
def lane5 (i : Instr) (s : State) (r : Nat) : Word := (out (exec i s)).cur.V r 5
/-- R137: 7 + −3, 7 − −3, 7 · −3, 4 + 7 · −3, −7. -/
theorem test_arithmetic_values : lane5 (.iadd o 5#7 1#7 2#7) ints 5 = 4#32 ∧ lane5 (.isub o 5#7 1#7 2#7) ints 5 = 10#32
    ∧ lane5 (.imul o 5#7 1#7 2#7) ints 5 = 0xFFFFFFEB#32 ∧ lane5 (.imad o 3#7 1#7 2#7) ints 3 = 0xFFFFFFEF#32
    ∧ lane5 (.ineg o 5#7 1#7) ints 5 = 0xFFFFFFF9#32 ∧ lane5 (.iabs o 5#7 2#7) ints 5 = 3#32
    ∧ lane5 (.iaddi o 1#7 0x3FFD#14) ints 1 = 4#32 := by decide +kernel
/-- R55: 127 + 127 in I8 is 254, which is −2 modulo 2^8, and 127 with IS under SAT. -/
theorem test_saturation : lane5 (.iadd o 2#7 1#7 1#7) (withV (et 4) [[], row 0x7F#32]) 2 = 0xFE#32
    ∧ lane5 (.iadd o 2#7 1#7 1#7) (withV 0x840#32 [[], row 0x7F#32]) 2 = 0x7F#32
    ∧ (out (exec (.iadd o 2#7 1#7 1#7) (withV 0x840#32 [[], row 0x7F#32]))).cur.flags = 0x20#32 := by decide +kernel
/-- R137, R56: the high half of 7 · −3 is −1; 7 / −3 is −2 and leaves 1. -/
theorem test_division_values : lane5 (.imulh o 5#7 1#7 2#7) ints 5 = 0xFFFFFFFF#32
    ∧ lane5 (.idiv o 5#7 1#7 2#7) ints 5 = 0xFFFFFFFE#32 ∧ lane5 (.irem o 5#7 1#7 2#7) ints 5 = 1#32
    ∧ lane5 (.imin o 5#7 1#7 2#7) ints 5 = 0xFFFFFFFD#32 ∧ lane5 (.imax o 5#7 1#7 2#7) ints 5 = 7#32 := by decide +kernel
/-- R56: a divisor 0 gives 0 and the dividend with DZ; the minimum over −1 gives the minimum and 0, and under
SAT the maximum and 0, both with IS. -/
theorem test_division_edges : divElem false .i32 7 0 = ⟨0, flagDZ⟩ ∧ remElem true .i32 7 0 = ⟨7, flagDZ⟩
    ∧ divElem false .i8 0x80 0xFF = ⟨0x80, 0⟩ ∧ divElem true .i8 0x80 0xFF = ⟨0x7F, flagIS⟩
    ∧ remElem false .i8 0x80 0xFF = ⟨0, 0⟩ ∧ remElem true .i8 0x80 0xFF = ⟨0, flagIS⟩ := by decide +kernel
/-- R138: −3 shifted by 4 and 7; a rotation; counts of 7. -/
theorem test_shift_values : lane5 (.shl o 5#7 2#7 3#7) ints 5 = 0xFFFFFFD0#32 ∧ lane5 (.shr o 5#7 2#7 3#7) ints 5 = 0x0FFFFFFF#32
    ∧ lane5 (.sar o 5#7 2#7 1#7) ints 5 = 0xFFFFFFFF#32 ∧ lane5 (.rot o 5#7 1#7 3#7) ints 5 = 0x70#32
    ∧ lane5 (.popc o 5#7 1#7) ints 5 = 3#32 ∧ lane5 (.clz o 5#7 1#7) ints 5 = 29#32
    ∧ lane5 (.brev o 5#7 1#7) ints 5 = 0xE0000000#32 := by decide +kernel
/-- R139: the field of 4 bits from bit 8 of 0xABCD is 0xB, −5 as a signed field; 7 goes into that field. -/
theorem test_field_values :
    let s := withV (et 0) [row 0#32, row 0xABCD#32, row 0x408#32, row 7#32]
    lane5 (.bfx o 5#7 1#7 2#7) s 5 = 0xFFFFFFFB#32 ∧ lane5 (.bfi o 1#7 3#7 2#7) s 1 = 0xA7CD#32
      ∧ lane5 (.bfx o 5#7 1#7 2#7) { s with cur := { s.cur with mode := et 1 } } 5 = 0xB#32 := by decide +kernel
/-- R140: bits of 7, −3 and 4, and an immediate extended by its sign. -/
theorem test_bitwise_values : lane5 (.and o 5#7 1#7 2#7) ints 5 = 5#32 ∧ lane5 (.or o 5#7 1#7 2#7) ints 5 = 0xFFFFFFFF#32
    ∧ lane5 (.xor o 5#7 1#7 2#7) ints 5 = 0xFFFFFFFA#32 ∧ lane5 (.not o 5#7 1#7) ints 5 = 0xFFFFFFF8#32
    ∧ lane5 (.sel o 3#7 1#7 2#7) ints 3 = 0xFFFFFFFD#32 ∧ lane5 (.mov o 5#7 2#7) ints 5 = 0xFFFFFFFD#32
    ∧ lane5 (.movi o 5#7 0x3FFD#14) ints 5 = 0xFFFFFFFD#32 ∧ lane5 (.andi o 2#7 0xFF#14) ints 2 = 0xFD#32 := by decide +kernel
theorem test_isetp_can_run : (2#4).toNat ≤ 9 ∧ ints.cur.etype = some .i32
    ∧ Ready ints (operandLanes o.u ints.cur.active) (readsOf ints.cur.is64 [1#7, 2#7] 0) [ints.cur.beyond [1, 2], ints.cur.badType wideInt,
      oddField ints.cur.is64 [1#7, 2#7], ints.cur.beyond (readsOf ints.cur.is64 [1#7, 2#7] 0)] :=
  ⟨by decide, by decide, by decide, by decide⟩
/-- R47, R141: −3 < 7 as signed values (2), and not as unsigned ones (6). -/
theorem test_isetp_conditions : (out (exec (.isetp o 2#4 2#3 2#7 1#7) ints)).cur.pred 2 = 0xFFFFFFFF#32
    ∧ (out (exec (.isetp o 6#4 2#3 2#7 1#7) ints)).cur.pred 2 = 0#32 := by decide +kernel
/-- p1 and p2. -/
def preds : State := { base with cur := { cane with p := [0#32, 0xFF00#32, 0xF0F0#32] } }
theorem test_predicate_values : (∃ f, predicateOf (.pand o 3#3 1#3 2#3) = some (o, 3#3, f)) ∧ (3#7).toNat < preds.cur.nreg
    ∧ (out (exec (.pand o 3#3 1#3 2#3) preds)).cur.pred 3 = 0xF000#32
    ∧ (out (exec (.por o 3#3 1#3 2#3) preds)).cur.pred 3 = 0xFFF0#32
    ∧ (out (exec (.pnot o 3#3 1#3) preds)).cur.pred 3 = 0xFFFF00FF#32 := ⟨⟨_, rfl⟩, by decide +kernel⟩
/-- R185: some lanes of p1 are 1 and not all; the ballot of p2. -/
theorem test_vote_values : (out (exec (.voteAny o 3#3 1#3) preds)).cur.pred 3 = 0xFFFFFFFF#32
    ∧ (out (exec (.voteAll o 3#3 1#3) preds)).cur.pred 3 = 0#32 ∧ lane5 (.voteBal o 7#7 2#3) preds 7 = 0xF0F0#32 := by
  decide +kernel
/-- R145, R148 (06): iadd v9, v1, v17 under the active mask 0x00FF00F0 takes 4 cycles, uniform 2, and 2 with v18. -/
theorem test_cycles :
    let s : State := { base with cur := { cane with mode := 1#32, p := [0#32, 0x00FF00F0#32] } }
    ((out (exec (.iadd o 9#7 1#7 17#7) s)).cluster 0).cycle = 4
      ∧ ((out (exec (.iadd mU 9#7 1#7 17#7) s)).cluster 0).cycle = 2
      ∧ ((out (exec (.iadd o 9#7 1#7 18#7) s)).cluster 0).cycle = 2 := by decide +kernel
/-- R143 (05): 1.0 and 65520.0 to FP16. -/
theorem test_cvt : let t := out (exec (.cvt o 1#7 2#7) (withV 0x09000080#32 [[], [], row 0x3F800000#32, row 0x477FF000#32]))
    t.cur.V 1 5 = 0x7C003C00#32 ∧ t.cur.flags = 0x14#32 := by decide +kernel
/-- FP32 to FP16: a group of two registers. -/
def wide : State := withV 0x09000080#32 [[], [], row 0x3F800000#32, row 0x477FF000#32]
theorem test_cvt_can_run : wide.cur.etype = some .fp32 ∧ wide.cur.ctype = some .fp16 ∧ groupSize .fp32 .fp16 = 2
    ∧ Ready wide (operandLanes o.u wide.cur.active) [2, 3] (cvtChecks wide .fp32 .fp16 1#7 2#7 [2, 3] [1]) :=
  ⟨by decide, by decide, by decide, by decide, by decide⟩

/-! ### Floating point -/

/-- FP32 1.0, 2.0, 3.0 and 0.25 in v1 to v4. -/
def reals32 : State := withV (et 8) [[], row 0x3F800000#32, row 0x40000000#32, row 0x40400000#32, row 0x3E800000#32]
theorem test_float_can_run : (∃ x, exactRealOf (.ffma o 3#7 1#7 2#7) = some (o, 3#7, [3#7, 1#7, 2#7], x))
    ∧ reals32.cur.etype = some .fp32 ∧ reals32.cur.rmode = some .rne
    ∧ CanRun o reals32 ElemType.isFloat true 3#7 [3#7, 1#7, 2#7] := ⟨⟨_, rfl⟩, by decide, by decide, by decide, by decide⟩
theorem test_other_float_can_run : (∃ g, floatOf (.frnd o 3#7 1#7) = some (o, 3#7, [1#7], true, g))
    ∧ CanRun o reals32 ElemType.isFloat true 3#7 [1#7] := ⟨⟨_, rfl⟩, by decide, by decide⟩
theorem test_approximation_can_run : (∃ h, approxOf (.flog2 o 3#7 1#7) = some (o, 3#7, 1#7, h))
    ∧ CanRun o reals32 wideFloat false 3#7 [1#7] := ⟨⟨_, rfl⟩, by decide, by decide⟩
theorem test_float_types : ElemType.fp16.isFloat = true ∧ (0 : Nat) < 2 ^ 24 ∧ (0x7C00 : Nat) < 2 ^ ElemType.fp16.width := by
  decide
/-- R66: the functions' domains, and FTZ's zero. -/
theorem test_approximation_domain : (∃ h, approxOf (.flog2 o 3#7 1#7) = some (o, 3#7, 1#7, h)) ∧ wideFloat .fp32 = true
    ∧ (0x40400000 : Nat) < 2 ^ ElemType.fp32.width ∧ decodeF ElemType.fp32.fmt 0x40400000 = .fin false 0xC00000 (-22)
    ∧ InDomain (.flog2 o 3#7 1#7) ((finValue false 0xC00000 (-22) : ℚ) : ℝ) := by
  refine ⟨⟨_, rfl⟩, rfl, by decide, by decide +kernel, ?_⟩
  norm_num [InDomain, finValue]
/-- R66: 1/3 in FP32 lies between 0x3EAAAAAA and 0x3EAAAAAB; 2^0.5 between 0x3FB504F3 and 0x3FB504F4. -/
theorem test_approximation_brackets : (rcpF fmt32 false false (.fin false 3 0)).bits = 0x3EAAAAAA
    ∧ (rcpF fmt32 false true (.fin false 3 0)).bits = 0x3EAAAAAB ∧ (exp2F fmt32 false false (.fin false 1 (-1))).bits = 0x3FB504F3
    ∧ (exp2F fmt32 false true (.fin false 1 (-1))).bits = 0x3FB504F4 := by decide +kernel
/-- R176: 1 + 2, 2 − 3, 2 · 3, 3 + 1 · 2, 1 · 2 − 3, 3 − 1 · 2, √0.25. -/
theorem test_float_values : lane5 (.fadd o 5#7 1#7 2#7) reals32 5 = 0x40400000#32
    ∧ lane5 (.fsub o 5#7 2#7 3#7) reals32 5 = 0xBF800000#32 ∧ lane5 (.fmul o 5#7 2#7 3#7) reals32 5 = 0x40C00000#32
    ∧ lane5 (.ffma o 3#7 1#7 2#7) reals32 3 = 0x40A00000#32 ∧ lane5 (.ffms o 3#7 1#7 2#7) reals32 3 = 0xBF800000#32
    ∧ lane5 (.fnma o 3#7 1#7 2#7) reals32 3 = 0x3F800000#32 ∧ lane5 (.fsqrt o 5#7 4#7) reals32 5 = 0x3F000000#32 := by
  decide +kernel
/-- R175 (07): fadd of FP16 pairs. -/
theorem test_fadd_half : let t := out (exec (.fadd o 1#7 2#7 3#7) (withV (et 9) [[], [], row 0x3C007BFF#32, row 0x3C003C00#32]))
    t.cur.V 1 5 = 0x40007BFF#32 ∧ t.cur.flags = 0x10#32 := by decide +kernel
/-- R63 (03): the generator's step from 1. -/
theorem test_generator : lfsrIter 1 1#32 = 0x80200003#32 ∧ srBits 0x80200003#32 0 = 0x200003 := by decide +kernel
/-- R63 (03): x = 1 + 7·2^−26 and 1 + 3·2^−25 under SR with that value. -/
theorem test_stochastic_rounding : deliverF fmt32 .sr false false 0x200003 (.real ⟨false, 2 ^ 26 + 7, -26, false⟩) = ⟨0x3F800001, flagNX⟩
    ∧ (deliverF fmt32 .sr false false 0x200003 (.real ⟨false, 2 ^ 25 + 3, -25, false⟩)).bits = 0x3F800000 := by decide +kernel
/-- R176, R180: the smaller and the larger of 1.0 and −2.0; sign operations. -/
theorem test_other_float_values :
    let s := withV (et 8) [[], row 0x3F800000#32, row 0xC0000000#32, row 0x40200000#32]
    lane5 (.fmin o 5#7 1#7 2#7) s 5 = 0xC0000000#32 ∧ lane5 (.fmax o 5#7 1#7 2#7) s 5 = 0x3F800000#32
      ∧ lane5 (.fabs o 5#7 2#7) s 5 = 0x40000000#32 ∧ lane5 (.fneg o 5#7 1#7) s 5 = 0xBF800000#32
      ∧ lane5 (.frnd o 5#7 3#7) s 5 = 0x40000000#32 := by decide +kernel
theorem test_dot_and_scale_can_run : CanRun o (withV (et 9) []) halfFloat true 3#7 [1#7, 2#7]
    ∧ CanRun o reals32 ElemType.isFloat true 3#7 [1#7, 2#7] := ⟨⟨by decide, by decide⟩, by decide, by decide⟩
/-- R178: 1.5 · 2 + 2 · 0.5 = 4 in FP32; 1.0 · 2^3. -/
theorem test_dot_and_scale_values :
    lane5 (.fdot2 o 5#7 1#7 2#7) (withV (et 9) [[], row 0x40003E00#32, row 0x38004000#32]) 5 = 0x40800000#32
      ∧ lane5 (.fscale o 5#7 1#7 2#7) (withV (et 8) [[], row 0x3F800000#32, row 3#32]) 5 = 0x41000000#32 := by decide +kernel
theorem test_fsetp_can_run : (2#4).toNat ≤ 5 ∨ 10 ≤ (2#4).toNat := by decide
theorem test_fsetp_ready : Ready reals32 (operandLanes o.u reals32.cur.active) [1, 2]
    [reals32.cur.beyond [1, 2], reals32.cur.badType ElemType.isFloat] := ⟨by decide, by decide⟩
theorem test_fsetp_values : (out (exec (.fsetp o 2#4 2#3 1#7 2#7) reals32)).cur.pred 2 = 0xFFFFFFFF#32
    ∧ (out (exec (.fsetp o 2#4 2#3 2#7 1#7) reals32)).cur.pred 2 = 0#32 := by decide +kernel

/-! ### Affine registers and lanes -/

/-- v12 = 0x00101060, v13 = 0, v14 = 4, v15 = 32. -/
def affines : State := withV (et 0) (List.replicate 12 [] ++ [row 0x00101060#32, row 0#32, row 4#32, row 32#32])
theorem test_affine_can_run : (∃ x, affineOf (.aset o 1#4 6#6 14#7) = some (o, 1#4, [12, 13, 14], x))
    ∧ Ready affines (operandLanes true affines.cur.active) [12, 13, 14] [affines.cur.beyond [12, 13, 14]] := ⟨⟨_, rfl⟩, by decide, by decide⟩
theorem test_addr_can_run : (∃ x, pairOf (.addr o 10#6 67#7 14#7) = some (o, 10#6, [14], x))
    ∧ Ready affines (operandLanes o.u affines.cur.active) [14] [affines.cur.beyond [20, 21, 14]] := ⟨⟨_, rfl⟩, by decide, by decide⟩
/-- R182 (07): ASET and then AEXP. -/
theorem test_affine_values : let t := out (exec (.aset o 1#4 6#6 14#7) affines)
    t.cur.aff 1 = ⟨0x00101060, 4⟩ ∧ (out (exec (.aexp o 1#4 1#4 15#7) t)).cur.aff 1 = ⟨0x001010E0, 4⟩
      ∧ (out (exec (.aget o 10#6 1#4) t)).cur.V64 20 5 = 0x00101074
      ∧ (out (exec (.addr o 10#6 65#7 15#7) t)).cur.V64 20 5 = 0x00101094 := by decide +kernel
theorem test_affine_steps : let t := out (exec (.aset o 1#4 6#6 14#7) affines)
    (out (exec (.aadd o 2#4 1#4 14#7) t)).cur.aff 2 = ⟨0x00101064, 4⟩ ∧ (out (exec (.astr o 2#4 1#4 15#7) t)).cur.aff 2 = ⟨0x00101060, 32⟩
      ∧ (out (exec (.amul o 2#4 1#4 15#7) t)).cur.aff 2 = ⟨0x00101060, 128⟩ := by decide +kernel
/-- Lane l of v1 holds l + 100, and v2 holds 3. -/
def lanesState : State := withV (et 0) [[], (List.range 32).map fun l => BitVec.ofNat 32 (l + 100), row 3#32]
theorem test_shuffle_can_run : (∃ f, shuffleOf (.shfl o 3#7 1#7 2#7) = some (o, 3#7, 1#7, 2#7, f))
    ∧ (∀ x ∈ lanesState.cur.vChecks (fun _ => true) false [3#7, 1#7, 2#7], x.1 = false)
    ∧ ∀ x ∈ lanesState.cur.rowPoison, x / 4 ∉ lanesState.cur.blockReads lanesState.cur.is64 [1#7, 2#7] :=
  ⟨⟨_, rfl⟩, by decide, by decide⟩
/-- R184: lane 5 reads lane 3, lane 5 xor 3, and lane 3. -/
theorem test_shuffle_values : lane5 (.shfl o 3#7 1#7 2#7) lanesState 3 = 103#32
    ∧ lane5 (.shflx o 3#7 1#7 2#7) lanesState 3 = 106#32 ∧ lane5 (.bcast o 3#7 1#7 2#7) lanesState 3 = 103#32 := by decide +kernel
/-- R186 (07): 2^24 in lane 0, 1.0 in lanes 2 and 3. -/
def sums : State := withV (et 8) [[], [], 0x4B800000#32 :: 0#32 :: 0x3F800000#32 :: 0x3F800000#32 :: List.replicate 28 0#32]
theorem test_sum_can_run : (∃ f g, sumOf (.redc o 5#7 2#7) = some (o, 5#7, 2#7, f, g)) ∧ sums.cur.etype = some .fp32
    ∧ Ready sums (operandLanes o.u sums.cur.active) (sums.cur.blockReads sums.cur.is64 [2#7]) (sums.cur.sumChecks 5#7 2#7) :=
  ⟨⟨_, _, rfl⟩, by decide, by decide, by decide⟩
theorem test_redc : lane5 (.redc o 5#7 2#7) sums 5 = 0x4B800001#32
    ∧ lane5 (.redc o 5#7 2#7) { sums with cur := { sums.cur with qmask := 4#32 } } 5 = 0x4B800000#32 := by decide +kernel
theorem test_scan : ((List.range 4).map fun l => (out (exec (.scan o 5#7 2#7) sums)).cur.V 5 l)
    = [0x4B800000#32, 0x4B800000#32, 0x4B800000#32, 0x4B800001#32] := by decide +kernel
theorem test_integer_sum : ElemType.i16.isInt = true ∧ (withV (et 2) []).cur.sat = false
    ∧ (withV (et 2) []).cur.etype = some .i16 ∧ (0xFF#32 : Mask).getLsbD 5 = true ∧ 1 < ElemType.i16.count := by decide

/-! ## Well-formed terms (R43, R45, R47, R51, R129, R354) -/

theorem test_wellFormed_refuses_odd_pair : (Instr.ld o 2#7 5#7 127#7).wellFormed = false := by decide
theorem test_wellFormed_refuses_affine_above_15 : (Instr.st o 80#7 2#7 127#7).wellFormed = false := by decide
theorem test_wellFormed_refuses_scope_6 : (Instr.fenceFull o 0#1 6#3).wellFormed = false := by decide
theorem test_wellFormed_refuses_decant_scope_7 : (Instr.decant o 7#3 1#7).wellFormed = false := by decide
theorem test_wellFormed_refuses_isetp_condition_10 : (Instr.isetp o 10#4 1#3 2#7 3#7).wellFormed = false := by decide
theorem test_wellFormed_refuses_fsetp_condition_6 : (Instr.fsetp o 6#4 1#3 2#7 3#7).wellFormed = false := by decide
theorem test_wellFormed_refuses_selector_0x00F : (Instr.sysRd o 2#7 0x00F#12).wellFormed = false := by decide
theorem test_wellFormed_refuses_odd_pair_of_selector : (Instr.sysWr o 3#7 0x009#12).wellFormed = false := by decide
theorem test_wellFormed_refuses_counter_0x001 : (Instr.perfRd o 1#6 0x001#12).wellFormed = false := by decide
theorem test_wellFormed_admits_their_neighbours :
    ([.ld o 2#7 4#7 127#7, .st o 79#7 2#7 127#7, .fenceFull o 0#1 5#3, .decant o 5#3 1#7, .isetp o 9#4 1#3 2#7 3#7,
      .fsetp o 10#4 1#3 2#7 3#7, .sysRd o 2#7 0x00E#12, .sysWr o 2#7 0x009#12, .perfRd o 1#6 0x01D#12] : List Instr).all
      Instr.wellFormed = true := by decide

/-- R52: an unassigned OP, an ill-formed field, a field marked 0 that is not, and an FI word with bits above its fields. -/
theorem test_decode_refuses :
    ([0x42000000, 0xA0008280 + 127, 0x08000001, 0x92000001, 0xA7000018, 0x14008030] : List Nat).all
      (fun w => (decodeTableWord 32 w).isNone) = true := by decide +kernel
/-- R24, R40: movi v6, #0x12345 with its prefix. -/
theorem test_decode_pair :
    decodeParcels [0x0300#16, 0x0004#16, 0x3C21#16, 0xA345#16] = .ok (.immx 4#24 0x3C21A345#32, []) := by decide +kernel
/-- R39: the code parcel of index 5 with S = 1. -/
theorem test_decode_dictionary_code : decodeParcels [0xF805#16, 0x1234#16] = .ok (.dict true false 5#10, [0x1234#16]) := by
  decide +kernel
/-- R37, R39: the encoder writes the parcels of R37, high half first, and a code as one parcel. -/
theorem test_encode : encode (.iadd mU 1#7 1#7 2#7) = some [0x2020#16, 0x4082#16]
    ∧ encode (.dict true false 5#10) = some [0xF805#16] := by decide +kernel

/-! ## Control -/

theorem test_moder_can_run : Ready base (operandLanes true base.cur.unguarded) [3] [base.cur.beyond [3]]
    ∧ (base.cur.uread 3).extractLsb' 28 4 = 0#4 := ⟨⟨by decide, by decide⟩, by decide⟩
theorem test_jmpr_can_run : Ready base (operandLanes true base.cur.unguarded) [4, 5] [base.cur.beyond [4, 5]]
    ∧ (base.cur.uread64 4).getLsbD 63 = false := ⟨⟨by decide, by decide⟩, by decide⟩

/-- A cane with a handler at 512, level S in SYS.ESTAT.HLVL. -/
def handled : State := { base with cur := { cane with tvec := 512, estat := 0x400#32, priv := 0 } }
theorem test_trap_enters_handler : (handled.imm 7#14).toNat ≤ 65535 ∧ handled.cur.unguarded ≠ 0#32
    ∧ handled.cur.vectors = true ∧ (handled.terrace (handled.wgOf handled.cur).terrace).dbg.attach = false := by decide
/-- R125, R307: CAUSE 0x0C, EPRIV 0, HLVL 1, INH 1, LEN 1, DEPTH 0. -/
theorem test_trap_status : (out (exec (.trap o 7#14) handled)).cur.estat = 0x0000340C#32
    ∧ (out (exec (.trap o 7#14) handled)).cur.pc = 512 ∧ (out (exec (.trap o 7#14) handled)).cur.earg = 7#32 := by
  decide +kernel
theorem test_trap_without_lanes : ({ base with cur := { cane with recon := 0 } } : State).cur.unguarded = 0#32 := by decide
/-- A debugger stands on the terrace that the cane runs on. -/
def debugged : State := base.setTerrace 16 { Terrace.zero with dbg := { DebugBlock.zero with attach := true } }
theorem test_bkpt_parks : debugged.cur.unguarded ≠ 0#32
    ∧ (debugged.terrace (debugged.wgOf debugged.cur).terrace).dbg.attach = true ∧ debugged.cur.passBkpt = false
    ∧ (out (exec (.bkpt o 3#14) debugged)).cur.wait = .debug := by decide +kernel
theorem test_failed_check_enters_handler : handled.cur.vectors = true ∧ handled.cur.priv < 4
    ∧ handled.cur.stack.length < 32 := by decide
/-- A handler of a cane that trapped with one entry on the stack, and has pushed another. -/
def handling : State :=
  { base with cur := { cane with estat := 0x11400#32, epc := 300, emask := 0xF#32, priv := 1,
                                 stack := [⟨.pending, 400, 1#32⟩, ⟨.join, 500, 3#32⟩] } }
/-- R126: the stack is cut to one entry, recon, the level and PC return, INH is cleared. -/
theorem test_eret_returns : let c := (out (exec (.eret o) handling)).cur
    c.stack = [⟨.join, 500, 3#32⟩] ∧ c.recon = 0xF#32 ∧ c.priv = 0 ∧ c.pc = 300 ∧ c.estat = 0x10400#32 := by
  decide +kernel
theorem test_eret_without_trap : base.cur.estat.getLsbD 12 = false := by decide

/-- The upper two lanes of recon leave; lanes 0 and 1 wait in an entry, and another entry has no other lanes. -/
def leaving : State :=
  { base with cur := { cane with recon := 0xC#32, stack := [⟨.pending, 400, 4#32⟩, ⟨.join, 500, 7#32⟩] } }
theorem test_exit0_goes_on : leaving.wide.1 = false
    ∧ leaving.cur.stack = [⟨.pending, 400, 4#32⟩] ++ ⟨.join, 500, 7#32⟩ :: []
    ∧ (∀ x ∈ [(⟨.pending, 400, 4#32⟩ : StackEntry)], x.mask &&& ~~~leaving.cur.recon &&& ~~~leaving.cur.qmask = 0#32)
    ∧ (7#32 : Mask) &&& ~~~leaving.cur.recon &&& ~~~leaving.cur.qmask ≠ 0#32
    ∧ (out (exec (.exit0 o) leaving)).cur.recon = 3#32 ∧ (out (exec (.exit0 o) leaving)).cur.pc = 500 := by
  decide +kernel
theorem test_exit0_retires : (∀ x ∈ base.cur.stack, x.mask &&& ~~~base.cur.recon &&& ~~~base.cur.qmask = 0#32)
    ∧ (out (exec (.exit0 o) base)).cur.live = false := by decide +kernel
theorem test_exit1_runs : ({ base with cur := { cane with routine := .exit } } : State).cur.routine = .exit
    ∧ base.cur.routine ≠ .exit ∧ base.cur.routine ≠ .entry := by decide
/-- A cane in its entry routine, whose section the workgroup holds. -/
def resuming : State :=
  { base with cur := { cane with routine := .entry },
              workgroups := [{ group with held := [⟨0, 700, et 1, [], 0#32, 0xFF#32, []⟩] }] }
theorem test_exit2_restores : resuming.cur.routine = .entry
    ∧ (resuming.wgOf resuming.cur).heldFor resuming.cur.idx = some ⟨0, 700, et 1, [], 0#32, 0xFF#32, []⟩
    ∧ (out (exec (.exit2 o) resuming)).cur.pc = 700 := by decide +kernel
/-- R118: both shapes of a stack whose JOIN entry stands at PC. -/
theorem test_reconverge_shapes :
    let s : State := { base with cur := { cane with stack := [⟨.join, 256, 0xFF#32⟩] } }
    let t : State := { base with cur := { cane with stack := [⟨.pending, 300, 0xF0#32⟩, ⟨.join, 256, 0xFF#32⟩] } }
    s.cur.live = true ∧ (out (exec (.reconverge 10) s)).cur.recon = 0xFF#32
      ∧ (out (exec (.reconverge 10) t)).cur.recon = 0xF0#32 ∧ (out (exec (.reconverge 10) t)).cur.pc = 300 := by
  decide +kernel
/-- R119, R120 (05): a forward branch that half the lanes take: the fall-through path runs and the others wait. -/
theorem test_bra_splits :
    let s : State := { base with cur := { cane with mode := 1#32, p := [0#32, 0xFFFF#32] } }
    let c := (out (exec (.bra o 16#21) s)).cur
    c.recon = 0xFFFF0000#32 ∧ c.pc = 258 ∧ c.stack = [⟨.pending, 272, 0xFFFF#32⟩] := by decide +kernel
theorem test_join_pushes : (out (exec (.join o 9#21) base)).cur.stack = [⟨.join, 265, 0xFFFFFFFF#32⟩] := by decide +kernel
theorem test_call_links : (out (exec (.call o 64#21) base)).cur.link = 258
    ∧ (out (exec (.call o 64#21) base)).cur.pc = 320 := by decide +kernel

/-! ## System instructions and operating points -/

theorem test_sysRd_can_run : base.wide.1 = false ∧ (base.cur.beyond (sysRegs (sysWide 0x008#12) 6)).1 = false
    ∧ base.cur.unguarded.getLsbD 5 = true ∧ (0x000, 5) ∈ sysTable base 5 ∧ (8#12).toNat ≠ 0x006 := by decide
theorem test_sysRd_values : lane5 (.sysRd o 6#7 0x000#12) base 6 = 5#32 ∧ lane5 (.sysRd o 6#7 0x00A#12) base 6 = 2#32
    ∧ lane5 (.sysRd o 6#7 0x01D#12) base 6 = 4096#32 ∧ lane5 (.sysRd o 6#7 0x01F#12) base 6 = 0xFFFFFFFF#32 := by
  decide +kernel
/-- v6 = 0xFFFFFFFF, and FLAGS = 0x3F. -/
def writing : State := { base with cur := { cane with v := List.replicate 6 [] ++ [row 0x15#32, row 0#32], flags := 0x3F#32 } }
theorem test_sysWr_can_run : Ready writing (operandLanes true writing.cur.unguarded) (sysRegs (sysWide 0x008#12) 6)
    [writing.wide, writing.cur.beyond (sysRegs (sysWide 0x008#12) 6)] := ⟨by decide, by decide⟩
theorem test_sysWr_cases : writing.cur.unguarded ≠ 0#32 ∧ writing.cur.priv ≠ 0
    ∧ (sysSource writing 6#7 0x009#12).getLsbD 63 = false ∧ handled.cur.priv = 0 := by decide
/-- R5: a 1 clears a flag (W1C); SYS.LFSR takes 1 for 0; SYS.TVEC takes a pair. -/
theorem test_sysWr_values : (out (exec (.sysWr o 6#7 0x008#12) writing)).cur.flags = 0x2A#32
    ∧ (out (exec (.sysWr o 7#7 0x00B#12) writing)).cur.lfsr = 1#32
    ∧ (out (exec (.sysWr o 6#7 0x014#12) writing)).cur.tvec = 0x15#64 := by decide +kernel
theorem test_perfRd_can_run : base.wide.1 = false ∧ (base.cur.beyond [2, 3]).1 = false
    ∧ (base.cluster (clusterOfCore base.cur.core)).ratio ≤ 65536 := by decide
/-- R354: one MODE has issued in a single pass: 4 slots, 1 of them in leaf 0x011. -/
theorem test_perfRd_values : let s := out (exec (.nop o) base)
    (out (exec (.perfRd o 1#6 0x000#12) s)).cur.V64 2 5 = 4 ∧ (out (exec (.perfRd o 1#6 0x011#12) s)).cur.V64 2 5 = 1
      ∧ (out (exec (.perfRd o 1#6 0x050#12) s)).cur.V64 2 5 = 0xFFFFFFFFFFFFFFFF := by decide +kernel
/-- The trace unit of die 0 is management's, with a start condition of type 2 and event 5. -/
def tracing : State :=
  ({ base with dies := [{ Die.zero with trace := ⟨some 16, false, 0, false, false, [], false, 0, 0⟩ }] } : State).setTerrace 16
    { Terrace.zero with dbg := { DebugBlock.zero with triggers := [⟨0x502#32, 0#32, 0, 0⟩] } }
theorem test_mark_and_trig : base.wide.1 = false ∧ (base.imm 0x55#14).toNat ≤ 65535 ∧ base.cur.unguarded ≠ 0#32
    ∧ base.cur.priv ≠ 0 ∧ (tracing.die 0).trace.owner = some 16
    ∧ ((out (exec (.mark o 0x55#14) base)).die 0).sample.events = 1 := by decide +kernel
theorem test_trig_meets_condition : ((out (exec (.trig o 5#4) tracing)).die 0).trace.start = true
    ∧ ((out (exec (.trig o 4#4) tracing)).die 0).trace.start = false := by decide +kernel
theorem test_tlbInv_can_run : tenant.cur.stage = 0 ∧ tenant.cur.hcnt = 0 ∧ tenant.walksOf (tenant.wgOf tenant.cur).terrace = []
    ∧ ((out (exec (.tlbInvVdev o) tenant)).core 0).utlb = [] := by decide +kernel

/-- v2 names cluster 0, which stands at point 3. -/
def powered : State :=
  ({ base with cur := { cane with v := [[], [], row 0#32] } } : State).setCluster 0 { Cluster.zero with point := 3, target := 3 }
theorem test_pwrReq_can_run : Ready powered (operandLanes true powered.cur.unguarded) [2] [powered.wide, powered.cur.beyond [2]]
    ∧ powered.powerTarget (powered.cur.V 2 (firstLane powered.cur.unguarded)).toNat = some 0
    ∧ (powered.cluster 0).stage = .idle ∧ powered.floorOf 0 ≤ 2 ∧ 2 < (powered.cluster 0).point :=
  ⟨⟨by decide, by decide⟩, by decide, by decide, by decide, by decide⟩
/-- R387: a step down from point 3 to 0 begins with its frequency switch; while it runs, a request for 5 is DEFERRED; then
the ramp ends it. -/
theorem test_pwrReq_down : let t := out (exec (.pwrReq o 2#7 0#3) powered)
    t.cur.V 2 5 = 0#32 ∧ (t.cluster 0).powerWord / 2 ^ 17 % 128 = 0b1000011
      ∧ (out (exec (.pwrReq o 2#7 5#3) t)).cur.V 2 5 = 1#32
      ∧ ((out (exec (.frequencySwitchEnd 0) t)).cluster 0).powerWord / 2 ^ 17 % 128 = 0b1000000
      ∧ ((out (exec (.voltageSettled 0) (out (exec (.frequencySwitchEnd 0) t)))).cluster 0).powerWord / 2 ^ 17 % 128 = 0 := by
  decide +kernel
/-- R379: a MATMUL runs on the cluster. -/
theorem test_pwrReq_floor : let s := powered.setCluster 0 { Cluster.zero with point := 3, target := 3, floor := 2 }
    (out (exec (.pwrReq o 2#7 0#3) s)).cur.V 2 5 = 2#32 := by decide +kernel
theorem test_pwrReq_budget : let s := powered.setCluster 0 { Cluster.zero with point := 3, target := 3, energy := 8000 }
    (s.cluster 0).budget ≠ 0 ∧ (s.cluster 0).budget * pointPower 3 < (s.cluster 0).energy * pointPower 6
      ∧ (out (exec (.pwrReq o 2#7 6#3) s)).cur.V 2 5 = 3#32 := by decide +kernel
theorem test_power_events : powered.hasCluster 0 = true ∧ powered.hasCluster 128 = false ∧ powered.hasCluster 30 = false
    ∧ powered.matmulOn 0 = false ∧ (0#32).toNat + 48 ≤ (powered.cluster 0).hotlim
    ∧ (powered.cluster 0).hotlim + 80 < (0x6E1#32).toNat ∧ (powered.cluster 0).critical = false := by decide
/-- R376: an up-step from 3 to 6: ramp, switch, end. -/
theorem test_up_step : let s := powered.setCluster 0 { Cluster.zero with point := 3, target := 6, stage := .rampUp }
    let t := out (exec (.voltageSettled 0) s)
    (t.cluster 0).stage = .switchUp ∧ (t.cluster 0).issuePaused = true
      ∧ ((out (exec (.frequencySwitchEnd 0) t)).cluster 0).point = 6 := by decide +kernel
/-- R386: a critical hotspot during an up-step from point 0: a down-step to point 0 follows. -/
theorem test_up_step_critical : let s := powered.setCluster 0 { Cluster.zero with point := 0, target := 6, stage := .rampUp, critical := true }
    ((out (exec (.voltageSettled 0) s)).cluster 0).stage = .switchDown ∧ ((out (exec (.voltageSettled 0) s)).cluster 0).target = 0 := by
  decide +kernel
/-- R385: above HOTLIM SERIAL steps pause; above HOTLIM + 5 °C the cluster moves to point 0. -/
theorem test_heat : ((out (exec (.hotspotOverLimit 0 0x691#32) powered)).cluster 0).serialPaused = true
    ∧ ((out (exec (.hotspotCritical 0 0x6E1#32) powered)).cluster 0).target = 0
    ∧ ((out (exec (.hotspotClear 0 0x660#32) powered)).cluster 0).serialPaused = false
    ∧ (let t := out (exec (.hotspotClear 0 0x680#32) (out (exec (.hotspotOverLimit 0 0x691#32) powered)))
       ((t.cluster 0).hot, (t.cluster 0).serialPaused) = (0x680, true)) := by decide +kernel
theorem test_power_faults : exec (.energyUpdate 30 5#32) base = .fault .noSuchUnit
    ∧ ((out (exec (.energyUpdate 0 5#32) base)).cluster 0).energy = 5 := by
  exact ⟨rfl, by decide +kernel⟩
/-- R382's example, and a window that is over and one that is not. -/
theorem test_stall_ratio : stallRatio 304000 228000 = 49152 := by decide
theorem test_window : ((out (exec (.stallRatioSample 0 5#32) { base with rtime := 10 })).cluster 0).sampleSeq = 1
    ∧ (base.cluster 0).window < ({ base with rtime := 10 } : State).rtime / 10 ∧ ({ base with rtime := 10 } : State).windowOver 0 = true ∧ ({ base with rtime := 9 } : State).windowOver 0 = false := by
  decide +kernel

/-! ### Pairs and dictionary codes -/

/-- R24, R40 (02): |U| movi v6, #0x12345 with its prefix. -/
theorem test_pair : encodeWord (.movi mU 6#7 0x2345#14) = some 0x3C21A345#32 ∧ takesImm 0x3C21A345#32 = true
    ∧ (Instr.movi mU 6#7 0x2345#14).wellFormed = true ∧ lane5 (.immx 4#24 0x3C21A345#32) base 6 = 0x12345#32 := by
  decide +kernel
theorem test_pair_refused : takesImm 0x20204082#32 = false
    ∧ out (exec (.immx 0x10#24 0x20204082#32) base) = base.raise .illegalEncoding := by decide +kernel
theorem test_pair_mode : ((((0#24 : BitVec 24) ++ (0x123#14 : BitVec 14)).signExtend 64 : Dword)).extractLsb' 28 36 = 0#36 := by
  decide
/-- A task type that names dictionary 0, whose entry 5 core 0 holds. -/
def coded : State :=
  { base with workgroups := [{ group with terrace := 0 }]
              images := [{ LinkedImage.empty with taskTypes := [{ TaskType.zero with dict := some 0 }] }]
              cores := [{ Core.zero with dict0 := ⟨some (0, 0), List.replicate 5 0#32 ++ [0x20204082#32]⟩ }] }
theorem test_dictionary_code : coded.dictOf (coded.wgOf coded.cur) = some (0, 0)
    ∧ withMarks ((coded.core 0).dictEntry (0, 0) 5) true false = 0x20A04082#32
    ∧ encodeWord (.iadd ⟨true, false, true⟩ 1#7 1#7 2#7) = some 0x20A04082#32 := by decide +kernel
theorem test_no_dictionary : base.dictOf (base.wgOf base.cur) = none := by decide

/-! ## SUP -/

/-- A cane whose v2 names an argument, with these bytes at the start of its scratch. -/
def calling (s : State) (a : Nat) (block : List Byte) : State :=
  { s with cur := { s.cur with v := [[], [], row (BitVec.ofNat 32 a)] }
           workgroups := s.workgroups.map fun w => { w with scratch := Memory.writeBytes [] a block } }
/-- A SUP of a level starts. -/
theorem called (s : State) (d : BitVec 7) (n : Nat)
    (h : (decide (∀ x ∈ [s.wide, s.cur.beyond [d.toNat], s.below n], x.1 = false)
      && (s.cur.poisonedRow (operandLanes true s.cur.unguarded) [d.toNat] == none) && decide (s.cur.unguarded ≠ 0#32) && s.cur.stage == 0
      && s.cur.released 5 && decide (s.sups = [])) = true) : Called s d n := by
  simp only [Bool.and_eq_true, decide_eq_true_eq, beq_iff_eq] at h
  exact ⟨⟨h.1.1.1.1.1, h.1.1.1.1.2⟩, h.1.1.1.2, h.1.1.2, h.1.2, h.2⟩

theorem test_sup_is_called : supOf (.terraceSet o 2#7) = some (o, 2#7, 2, 384) ∧ supOf (.fqSet o 2#7) = some (o, 2#7, 1, 9)
    ∧ handled.cur.priv < 1 ∧ ({ base with cur := { cane with recon := 0 } } : State).cur.unguarded = 0#32
    ∧ ({ base with cur := { cane with hcnt := 1 } } : State).cur.released 5 = false ∧ 16 ≤ (base.wgOf base.cur).terrace :=
  ⟨rfl, rfl, by decide⟩
theorem test_sup_level_1_called : Called (calling tenant 0 []) 2#7 1 ∧ ((calling tenant 0 []).wgOf (calling tenant 0 []).cur).terrace < 16 :=
  ⟨called _ _ _ (by decide +kernel), by decide⟩
theorem test_sup_level_2_called : Called (calling base 0 []) 2#7 2 := called _ _ _ (by decide +kernel)
theorem test_sup_without_block : ¬ HasBlock (calling base 8 []) 2#7 48 ∧ ¬ HasBlock (calling base 4032 []) 2#7 384
    ∧ HasBlock (calling base 64 []) 2#7 384 := by
  simp only [HasBlock, InScratch]; decide +kernel
/-- A poisoned block, and a terrace on which another cane's function is under way. -/
theorem test_sup_waits_and_traps : let s : State := { calling base 64 [] with workgroups := [{ group with scrPoison := [3] }] }
    let u : State := { calling base 3 [] with sups := [⟨3, 11⟩], others := [{ cane with id := 11, idx := 1, wait := .sup, pipe := none }] }
    s.scratchPoisoned (s.wgOf s.cur).id (supArg s 2#7) 384 = true ∧ supArg s 2#7 = 64
      ∧ out (exec (.terraceSet o 2#7) s) = s.raise .poisonedData
      ∧ u.supFirst (supArg u 2#7) = some 11 ∧ (out (exec (.terraceCommit o 2#7) u)).cur.wait = .sup := by decide +kernel
/-- Status of a SUP. -/
def status (i : Instr) (s : State) : Word := lane5 i s 2

/-- Another cane of the workgroup is fault-parked. -/
def faulted : State :=
  { calling tenant 0 (leBytes 8 0x20000 ++ leBytes 4 0 ++ leBytes 2 1) with
    others := [{ cane with id := 11, idx := 1, wait := .fault, pipe := none }] }
theorem test_fault_resume : (faulted.faultedCane (Memory.readBytes (faulted.wgOf faulted.cur).scratch 0 14)).isSome = true
    ∧ supArg faulted 2#7 = 0 ∧ status (.faultResume o 2#7) faulted = 0#32
    ∧ ((out (exec (.faultResume o 2#7) faulted)).findCane 11).map (·.wait) = some .none := by decide +kernel
theorem test_fault_retire : (out (exec (.faultRetire o 2#7) faulted)).others = [] := by decide +kernel
theorem test_fqSet : let s := calling tenant 0 (leBytes 8 0x30000 ++ leBytes 1 4)
    arg s 2#7 9 0 8 = 0x30000 ∧ arg s 2#7 9 8 1 = 4 ∧ s.ctxPagesOk ⟨0, 0, 0, none⟩ 0x30000 (64 + 32 * 2 ^ 4) needRW = true
      ∧ s.transEntries = [] ∧ ((out (exec (.fqSet o 2#7) s)).terrace 0).faultQueue = some ⟨0x30000, 4, 0⟩
      ∧ s.posts = [] ∧ s.ctxTranslate ⟨0, 0, 0, none⟩ 0x30000 needW = some 0x30000 ∧ s.reaches 0 0 (s.homeDie 0x30000) = true
      ∧ s.clockCovered 0 (s.homeDie 0x30000) = true ∧ leNat ((List.range 5).map fun i =>
        (out (exec (.fqSet o 2#7) s)).settlePosts.homeByte (0x30000 + i)) = 0x451554146 := by decide +kernel
theorem test_s1Root : let s := calling tenant 0 (leBytes 1 0 ++ leBytes 7 0 ++ leBytes 8 0x200000 ++ leBytes 1 2)
    arg s 2#7 17 0 1 < (s.terrace 0).part.vdevs ∧ arg s 2#7 17 1 7 = 0 ∧ rootBad (arg s 2#7 17 8 8) (arg s 2#7 17 16 1) = false
      ∧ s.walksOf 0 = [] ∧ getI none ((out (exec (.s1Root o 2#7) s)).terrace 0).roots 0 = some ⟨0x200000, 2⟩ := by decide +kernel
theorem test_vdSelect : supArg (calling tenant 0 []) 2#7 < ((calling tenant 0 []).terrace 0).part.vdevs
    ∧ status (.vdSelect o 2#7) (calling tenant 0 []) = 0#32 ∧ status (.vdSelect o 2#7) (calling tenant 1 []) = 3#32 := by
  decide +kernel
theorem test_s1Page : let s := calling tenant 0 (leBytes 8 0 ++ leBytes 8 0x12345)
    arg s 2#7 16 0 1 < (s.terrace 0).part.vdevs ∧ arg s 2#7 16 1 7 = 0 ∧ arg s 2#7 16 8 8 < 2 ^ 52
      ∧ ((out (exec (.s1Page o 2#7) s)).core 0).utlb = [] := by decide +kernel
/-- Handle 3, 64 KiB at 0x500000, backings 0x600000 and 0x700000. -/
def decanting : State :=
  calling tenant 0 (leBytes 8 3 ++ leBytes 8 0x500000 ++ leBytes 8 0x10000 ++ leBytes 8 0x600000 ++ leBytes 8 0x700000)
theorem test_decantSet : decanting.decantBad 0 (Memory.readBytes (decanting.wgOf decanting.cur).scratch 0 40) = false
    ∧ (decanting.decantEntry 0 3).valid = false ∧ (decanting.terrace 0).decants = []
    ∧ ((out (exec (.decantSet o 2#7) decanting)).decantEntry 0 3).valid = true := by decide +kernel
theorem test_decantClr : ¬ 255 < supArg (calling tenant 3 []) 2#7 ∧ 255 < supArg (calling tenant 256 []) 2#7
    ∧ status (.decantClr o 2#7) (calling tenant 256 []) = 3#32 := by decide +kernel
theorem test_urgent : let s := calling tenant 0 (leBytes 8 0x20000)
    (s.namedParcel (arg s 2#7 8 0 8)).map (·.id) = some 1 ∧ s.namedParcel 5 = none ∧ status (.urgent o 2#7) s = 0#32
      ∧ status (.urgent o 2#7) (calling tenant 0 (leBytes 8 5)) = 6#32 := by decide +kernel
theorem test_supDrain : let t := out (exec (.supDrain o 2#7) (calling tenant 0 (leBytes 8 0x20000)))
    (t.parcels.map (·.drained)) = [true] := by decide +kernel

/-- Level M, with terrace 3 in a state. -/
def managing (st : TerraceState) (a : Nat) (block : List Byte) : State :=
  (calling base a block).setTerrace 3 { Terrace.zero with part := { land.part with state := st } }
theorem test_terraceGet : let s := managing .off 0 (leBytes 64 3)
    arg s 2#7 64 0 1 < 16 ∧ arg s 2#7 64 1 63 = 0 ∧ supArg s 2#7 + 256 ≤ (s.wgOf s.cur).scrSize
      ∧ Memory.wf (s.wgOf s.cur).scratch = true ∧ status (.terraceGet o 2#7) s = 0#32 := by decide +kernel
/-- An entry's image with a weight, an exit bound and a quantum. -/
def image_ (bound quantum : Nat) : List Byte :=
  leBytes 128 3 ++ leBytes 2 0 ++ leBytes 2 1 ++ leBytes 2 bound ++ leBytes 2 4 ++ leBytes 4 quantum ++ leBytes 4 1000
    ++ leBytes 36 0 ++ leBytes 4 6 ++ leBytes 200 0
/-- R349 (16): quantum 150 with exit bound 50 is refused with CFG_QUANTUM, 200 is not. -/
theorem test_terraceSet : let s := calling base 64 (image_ 50 150)
    arg s 2#7 384 0 1 = 3 ∧ arg s 2#7 384 1 127 = 0 ∧ status (.terraceSet o 2#7) s = 1#32
      ∧ status (.terraceSet o 2#7) (calling base 64 (image_ 50 200)) = 0#32
      ∧ status (.terraceSet o 2#7) (calling base 64 (image_ 4 200)) = 3#32 := by decide +kernel
/-- R108: a steward's task type: 8 registers, one cane, level S, every bank REG. -/
def stewardType : List Byte := leBytes 4 0 ++ leBytes 4 0xFFFFFFFF ++ leBytes 2 8 ++ leBytes 2 1 ++ leBytes 4 0 ++ leBytes 2 1
  ++ leBytes 2 0xFFFF ++ leBytes 28 0
/-- Terrace 3 is OFF, and its steward is fixed: its entry at 256, its task type at 0x200000. -/
def committing : State :=
  ({ managing .off 3 [] with mem := Memory.writeBytes oneMap 0x200000 stewardType } : State).setTerrace 3
    { land with part := { land.part with state := .off, guaranteed := 1 }, steward := some ⟨256, 0x200000, 0x100000, 1⟩ }
theorem test_terraceCommit : (committing.terrace 3).part.state ≠ .running ∧ (committing.terrace 3).steward ≠ none
    ∧ ((committing.commit 3).stewardTask 3).isSome = true ∧ committing.walksOf 3 = [] ∧ committing.writesDone 3 = true ∧ supArg committing 2#7 < 16
    ∧ ((out (exec (.terraceCommit o 2#7) committing)).terrace 3).part.state = .running
    ∧ status (.terraceCommit o 2#7) (managing .off 3 []) = 6#32 := by decide +kernel
theorem test_terraceQuiesce : ((managing .running 3 []).terrace 3).part.state = .running
    ∧ ((out (exec (.terraceQuiesce o 2#7) (managing .running 3 []))).terrace 3).part.state = .quiescing
    ∧ status (.terraceQuiesce o 2#7) (managing .off 3 []) = 4#32 := by decide +kernel
theorem test_terraceOff : (managing .quiesced 3 []).writesDone 3 = true
    ∧ ((out (exec (.terraceOff o 2#7) (managing .quiesced 3 []))).terrace 3).part.state = .off
    ∧ status (.terraceOff o 2#7) (managing .running 3 []) = 4#32 := by decide +kernel
theorem test_keyLoad : let s := managing .off 0 (leBytes 16 3 ++ leBytes 16 5 ++ leBytes 16 6)
    arg s 2#7 48 0 1 = 3 ∧ arg s 2#7 48 1 15 = 0 ∧ arg s 2#7 48 16 16 ≠ arg s 2#7 48 32 16
      ∧ ((out (exec (.keyLoad o 2#7) s)).terrace 3).dataKey = 5#128 := by decide +kernel
theorem test_terraceScrub : let s : State := { managing .off 3 [] with mem := [(0x1000, 7#8)] }
    (s.terrace 3).part.state = .off ∧ (out (exec (.terraceScrub o 2#7) s)).homeByte 0x1000 = 0#8
      ∧ status (.terraceScrub o 2#7) (managing .running 3 []) = 4#32 := by decide +kernel
theorem test_s2Page : let s := managing .off 0 (leBytes 8 3 ++ leBytes 8 0x10000)
    arg s 2#7 16 0 1 < 16 ∧ arg s 2#7 16 1 7 = 0 ∧ arg s 2#7 16 8 8 < 2 ^ 52 ∧ status (.s2Page o 2#7) s = 0#32
      ∧ status (.s2Inv o 2#7) (managing .off 3 []) = 0#32 := by decide +kernel
theorem test_headlandRevoke : let s := (managing .off 5 []).setCluster 5 { Cluster.zero with lender := some 3, owner := some 4 }
    (s.cluster (supArg s 2#7)).lender ≠ none ∧ ((out (exec (.headlandRevoke o 2#7) s)).cluster 5).revoking = true
      ∧ status (.headlandRevoke o 2#7) (managing .off 5 []) = 6#32 ∧ 127 < supArg (managing .off 128 []) 2#7 := by decide +kernel
theorem test_stewardSet : let s := managing .off 0 (leBytes 8 3 ++ leBytes 8 256 ++ leBytes 8 0 ++ leBytes 8 0x100000 ++ leBytes 1 1)
    arg s 2#7 33 0 1 < 16 ∧ arg s 2#7 33 1 7 = 0 ∧ rootBad (arg s 2#7 33 24 8) (arg s 2#7 33 32 1) = false
      ∧ ((out (exec (.stewardSet o 2#7) s)).terrace 3).steward = some ⟨256, 0, 0x100000, 1⟩ := by decide +kernel
theorem test_mfqSet : let s := calling base 0 (leBytes 8 0x30000 ++ leBytes 1 4)
    s.ctxPagesOk ⟨mgmt, 0, dieOfCore s.cur.core, none⟩ 0x30000 (64 + 32 * 2 ^ 4) needRW = true
      ∧ ((out (exec (.mfqSet o 2#7) s)).terrace 16).faultQueue = some ⟨0x30000, 4, 0⟩ := by decide +kernel

/-! ## Memory -/

/-- v3 = l + 1, the pair at v4 is 0x1000, v6 = 4l, the pair at v8 is the scratch window; memory holds 100 + l at 0x1000 + 4l. -/
def data : State :=
  { withV (et 0) [[], [], [], lanes.map fun l => BitVec.ofNat 32 (l + 1), row 0x1000#32, row 0#32,
                  lanes.map fun l => BitVec.ofNat 32 (4 * l), [], row 0#32, row 0xFFFFFFFE#32] with
    mem := Memory.writeBytes [] 0x1000 (lanes.flatMap fun l => leBytes 4 (100 + l)) }
/-- Its lanes' words. -/
def words (l : Nat) : List Seg := [.glob (0x1000 + 4 * l) 4]
/-- The same words in scratch. -/
def scratched (l : Nat) : List Seg := [.scr 1 (4 * l) 4]
theorem reaches (s : State) (f : MemForm) (n : Nat) (ls : List (Nat × Nat)) (segs : Nat → List Seg)
    (h : ((s.terrace (s.wgOf s.cur).terrace).dbg.attach == false && decide (∀ x ∈ ls, s.laneFault s.cur f x.2 n = none)
      && decide (∀ x ∈ ls, s.laneTranslate s.cur f x.2 n = .ok (segs x.1))
      && decide (∀ x ∈ ls, ∀ g ∈ segs x.1, (spots g).length = g.size ∧ s.segPoisoned f.view g = false)) = true) :
    Reaches s f n ls segs := by
  simp only [Bool.and_eq_true, decide_eq_true_eq, beq_iff_eq] at h
  exact ⟨h.1.1.1, h.1.1.2, h.1.2, h.2⟩
theorem applied (s : State) (gs : List Seg)
    (h : ∀ g ∈ gs, match g with
      | .glob pa n => ∀ line ∈ linesOf pa n, s.covers (dieOfCore s.cur.core) (s.pastOf line) = true
          ∧ (s.die (dieOfCore s.cur.core)).l2 = []
      | _ => True) : AllApplied s gs := by
  intro pa n hg line hl
  have := h _ hg line hl
  exact ⟨this.1, by simp [this.2]⟩
theorem test_ld_can_run : loadOf data (.ld o 1#7 4#7 6#7) = some (o, loadForm 1 false, false, false, false, 1#7, 4#7, 6#7)
    ∧ Ready data (operandLanes o.u data.cur.active) [4, 5, 6] (data.cur.memChecks (fun _ => true) false false 1#7 [4, 5, 6])
    ∧ data.cur.active ≠ 0#32
    ∧ data.outboundRoom data.cur.core (toEnter data (loadForm 1 false)
        ((lanesFor false data.cur.active (data.addrAt 4#7 6#7)).flatMap fun x => words x.1)) = true
    ∧ Reaches data (loadForm 1 false) 4 (lanesFor false data.cur.active (data.addrAt 4#7 6#7)) words :=
  ⟨rfl, ⟨by decide, by decide⟩, by decide, by decide +kernel, reaches _ _ _ _ _ (by decide +kernel)⟩
/-- MODE.SCOPE is die. -/
def dieWide : State := { data with cur := { data.cur with mode := 0x00200000#32 } }
theorem test_ldAcq_can_run : (∃ f, loadOf dieWide (.ldAcq o 1#7 4#7 6#7) = some (o, f, false, true, false, 1#7, 4#7, 6#7))
    ∧ Ready dieWide (operandLanes o.u dieWide.cur.active) [4, 5, 6] (dieWide.cur.memChecks (fun _ => true) true false 1#7 [4, 5, 6])
    ∧ 4 ≤ dieWide.cur.scope ∧ ∀ x ∈ lanesFor false dieWide.cur.active (dieWide.addrAt 4#7 6#7), AllApplied dieWide (words x.1) :=
  ⟨⟨_, rfl⟩, ⟨by decide, by decide⟩, by decide +kernel, fun x _ => applied _ _ (by
    intro g hg
    simp only [words, List.mem_singleton] at hg
    subst hg
    intro line _
    exact ⟨by
      have : dieWide.pastOf line = [] := rfl
      rw [this]; decide +kernel, rfl⟩)⟩
theorem test_ld_values : lane5 (.ld o 1#7 4#7 6#7) data 1 = 105#32 ∧ lane5 (.ldNc mU 1#7 4#7 6#7) data 1 = 100#32
    ∧ (out (exec (.ldAcq o 1#7 4#7 6#7) dieWide)).cur.watch = ⟨some (.glob 0x1000), false⟩
    ∧ lane5 (.ldBlk o 1#7 4#7 6#7) { data with cur := { data.cur with mode := 0x10000#32 } } 2 = 106#32 := by decide +kernel
theorem test_st_can_run : storeOf data (.st o 4#7 3#7 6#7) = some (o, storeForm 2, false, false, false, 4#7, 3#7, 6#7)
    ∧ Ready data (operandLanes o.u data.cur.active) [4, 5, 6, 3] (data.cur.memChecks (fun t => t != .nq4) false false 3#7 [4, 5, 6])
    ∧ Reaches data (storeForm 2) 4 (lanesFor false data.cur.active (data.addrAt 4#7 6#7)) words
    ∧ Canonical data ∧ data.cur.heldBy none = none
    ∧ data.cur.storeFull ((lanesFor false data.cur.active (data.addrAt 4#7 6#7)).map fun x => ⟨x.1, x.2, words x.1⟩) = false
    ∧ data.outboundRoom data.cur.core (toEnter data (storeForm 2)
        ((lanesFor false data.cur.active (data.addrAt 4#7 6#7)).flatMap fun x => words x.1)) = true
    ∧ (∀ x ∈ lanesFor false data.cur.active (data.addrAt 4#7 6#7), ∀ g ∈ words x.1, data.segPoisoned .l2 g = false)
    ∧ data.backlog? data.cur.id = none :=
  ⟨rfl, ⟨by decide, by decide⟩, reaches _ _ _ _ _ (by decide +kernel), by simp only [Canonical]; decide +kernel, by decide,
    by decide +kernel, by decide +kernel, by decide +kernel, rfl⟩
theorem test_stRel_can_run : (∃ f, storeOf data (.stSig o 8#7 3#7 6#7) = some (o, f, true, true, false, 8#7, 3#7, 6#7))
    ∧ Ready data (operandLanes o.u data.cur.active) [8, 9, 6, 3] (data.cur.memChecks (fun t => t != .nq4) true false 3#7 [8, 9, 6])
    ∧ Reaches data (releaseForm false data.cur.scope) 4 (lanesFor false data.cur.active (data.addrAt 8#7 6#7)) scratched
    ∧ data.cur.heldBy (some data.cur.scope) = none ∧ data.cur.live = true ∧ ∀ c ∈ data.others, c.id ≠ data.cur.id :=
  ⟨⟨_, rfl⟩, ⟨by decide, by decide⟩, reaches _ _ _ _ _ (by decide +kernel), by decide, by decide⟩
/-- R211, R218: the word that lane 5 stores is in the die's L2 at once, on its way to the home, and counted (log entry 19). -/
theorem test_st_values : let t := out (exec (.st o 4#7 3#7 6#7) data)
    leNat (t.dieBytes 0 0x1014 4) = 6 ∧ t.homeByte 0x1014 = 105#8 ∧ t.cur.hcnt = 32
      ∧ (out (exec (.st o 8#7 3#7 6#7) data)).scratchOf 1 = (lanes.flatMap fun l => [(4 * l, BitVec.ofNat 8 (l + 1))]) := by
  decide +kernel
/-- R366: the first store of a cane writes 5 at 0x1000, so its hash becomes 0x80005. -/
theorem test_store_hash : let s := withV (et 0) [[], [], [], row 5#32, row 0x1000#32, row 0#32]
    (out (exec (.st mU 4#7 3#7 127#7) s)).cur.hash = 0x80005#64 := by decide +kernel
/-- R312: lane 2 addresses scratch at its end, lane 5 an odd address; under quarantine lane 2 alone faults. -/
def bounded : State :=
  { base with cur := { cane with mode := et 0, recon := 0xFF#32,
                                 v := [[], [], [], [], (lanes.map fun l => if l = 2 then 4096#32 else if l = 5 then 0x101#32
                                   else BitVec.ofNat 32 (4 * l)), row 0xFFFFFFFE#32, [], [], [], row 7#32] } }
theorem test_lane_fault : lanesFor false bounded.cur.active (bounded.addrAt 4#7 127#7) ≠ []
    ∧ bounded.laneFault bounded.cur (storeForm 2) 0xFFFFFFFE00001000 4 = some .scrBounds
    ∧ bounded.laneFault bounded.cur (storeForm 2) 0xFFFFFFFE00000101 4 = none
    ∧ bounded.laneFault bounded.cur (storeForm 2) 0xFFFFFFFDFFFFFFFE 4 = some .windowStraddle := by decide +kernel

/-- Three lanes with 1, 2 and 4 in v3, and the word 10 at 0x1000 (R223, R230). -/
def adding : State :=
  { withV (et 0) [[], [], [], [1#32, 2#32, 4#32], row 0x1000#32, row 0#32, row 0#32] with
    mem := [(0x1000, 10#8)] }
/-- Its lanes are 0, 1 and 2. -/
def three : State := { adding with cur := { adding.cur with recon := 7#32 } }
theorem test_atomAdd_can_run : (atomOf three (.atomAdd o 2#7 4#7 3#7)).isSome = true ∧ (typeOf three = .i32)
    ∧ Ready three (operandLanes o.u three.cur.active) ([4, 5] ++ [3])
      [three.cur.beyond [4, 5, 3, 2], three.cur.badType atomSum, three.cur.badScope,
       oddField three.cur.is64 [2#7], oddField three.cur.is64 [3#7]]
    ∧ three.cur.active ≠ 0#32 ∧ three.cur.stage = 0 ∧ three.cur.stageArg = 0 ∧ three.cur.wait = .none
    ∧ Reaches three (atomForm 4 true false none) 4 (lanesFor false three.cur.active (three.addrAt 4#7 127#7)) (fun _ => [.glob 0x1000 4])
    ∧ Canonical three ∧ Unlogged three
    ∧ three.outboundRoom three.cur.core (toEnter three (atomForm 4 true false none) [.glob 0x1000 4, .glob 0x1000 4, .glob 0x1000 4]) = true
    ∧ three.cur.storeFull ((lanesFor false three.cur.active (three.addrAt 4#7 127#7)).map fun x => ⟨x.1, x.2, [.glob 0x1000 4]⟩) = false
    ∧ three.cur.heldBy (if 2 ≤ three.cur.ord then some three.cur.scope else none) = none
    ∧ three.clockCovered (dieOfCore three.cur.core) (three.homeDie 0x1000) = true
    ∧ three.covers (dieOfCore three.cur.core) (three.pastOf (lineOf 0x1000)) = true :=
  ⟨rfl, rfl, ⟨by decide, by decide⟩, by decide, rfl, rfl, rfl, reaches _ _ _ _ _ (by decide +kernel),
    by simp only [Canonical]; decide +kernel, ⟨by decide +kernel, by decide +kernel, by decide +kernel, rfl⟩, by decide +kernel⟩
theorem test_atomAdd_acquires : let s : State := { three with cur := { three.cur with mode := 0x00600000#32 } }
    s.cur.ord % 2 = 1 ∧ 4 ≤ s.cur.scope ∧ s.covers (dieOfCore s.cur.core) s.cur.seen = true
      ∧ s.covers (dieOfCore s.cur.core) (s.die (dieOfCore s.cur.core)).filled = true := by decide +kernel
/-- R230: the lanes take 10, 11 and 13, and the word ends as 17. -/
theorem test_atomAdd : let t := out (exec (.atomAdd o 2#7 4#7 3#7) three)
    (t.cur.V 2 0 = 10#32 ∧ t.cur.V 2 1 = 11#32 ∧ t.cur.V 2 2 = 13#32) ∧ t.homeByte 0x1000 = 17#8 := by decide +kernel
/-- R230: under U one operation, by lane 0, whose result every active lane takes. -/
theorem test_atomAdd_once : let t := out (exec (.atomAdd mU 2#7 4#7 3#7) three)
    (t.cur.V 2 0 = 10#32 ∧ t.cur.V 2 2 = 10#32) ∧ t.homeByte 0x1000 = 11#8 := by decide +kernel
/-- R229: each kind on 10 with lane 0's 1, and RED without a result. -/
theorem test_atoms : (out (exec (.atomMax o 2#7 4#7 3#7) three)).homeByte 0x1000 = 10#8
    ∧ (out (exec (.atomMin o 2#7 4#7 3#7) three)).homeByte 0x1000 = 1#8
    ∧ (out (exec (.atomXor o 2#7 4#7 3#7) three)).homeByte 0x1000 = 13#8
    ∧ (out (exec (.atomOr mU 2#7 4#7 3#7) three)).homeByte 0x1000 = 11#8
    ∧ (out (exec (.atomAnd mU 2#7 4#7 3#7) three)).homeByte 0x1000 = 0#8
    ∧ (out (exec (.atomXchg o 2#7 4#7 3#7) three)).homeByte 0x1000 = 4#8
    ∧ (out (exec (.red o 4#7 3#7 127#7) three)).homeByte 0x1000 = 17#8 := by decide +kernel
/-- R229: B = 5 names v10 and v11: the word 10 is compared with v10 and replaced by v11. -/
theorem test_atomCas : let s : State := { three with cur := { three.cur with v := three.cur.v ++ [[], [], [], row 10#32, row 77#32] } }
    let t := out (exec (.atomCas o 2#7 4#7 5#6) s)
    t.homeByte 0x1000 = 77#8 ∧ t.cur.V 2 0 = 10#32 ∧ t.cur.V 2 1 = 77#32 := by decide +kernel

theorem test_fence_can_run : data.wide.1 = false ∧ data.cur.outstanding = 0 ∧ data.covers (dieOfCore data.cur.core) data.cur.seen = true
    ∧ data.cur.released 5 = true ∧ ({ data.cur with hcnt := 3 } : Cane).released 5 = false := by decide +kernel
/-- Two lines in L1. -/
def caching : State := { data with cores := [{ Core.zero with l1 := [⟨5, 0x20, List.replicate 128 1#8, mgmt, []⟩, ⟨6, 0x21, List.replicate 128 2#8, mgmt, []⟩] }] }
theorem test_inval_can_run : Ready caching (operandLanes o.u caching.cur.unguarded) [4, 5, 6] [caching.cur.beyond [4, 5, 6]]
    ∧ ∀ x ∈ lanesFor false caching.cur.unguarded (caching.addrAt 4#7 6#7), windowAt x.2 ≠ none := ⟨⟨by decide, by decide⟩, by decide +kernel⟩
theorem test_inval : ((out (exec (.inval o 4#7 6#7) caching)).core 0).l1.map (·.line) = [0x21]
    ∧ ((out (exec (.fenceAcquire o 0#1 2#3) caching)).core 0).l1 = [] := by decide +kernel
/-- v1 names bank 5, v2 the role; every bank is REG at first. -/
def role (r : Word) : State := withV (et 0) [[], row 5#32, row r]
theorem test_bankRole_can_run : Ready (role 1#32) (operandLanes true (role 1#32).cur.unguarded) [1, 2] [(role 1#32).cur.beyond [1, 2]]
    ∧ ((role 1#32).cur.uread 1).toNat ≤ 47 ∧ ((role 1#32).cur.uread 2).toNat ≤ 3 ∧ (role 1#32).cur.priv ≠ 0
    ∧ (role 3#32).roleFree 0 5 3 = true := ⟨⟨by decide, by decide⟩, by decide +kernel⟩
theorem test_bankRole : (out (exec (.bankRole o 1#3 1#7 2#7) (role 4#32))) = ((role 4#32).raise .illegalEncoding) := by
  decide +kernel

/-! ## WAIT.ADDR and rings -/

/-- v7 is a timeout. -/
def waiting (w : Word) : State := { data with cur := { data.cur with v := setI [] data.cur.v 7 (row w) } }
theorem test_waitAddr_can_run : Ready (waiting 9#32) (operandLanes true (waiting 9#32).cur.active) [4, 5, 7]
      [(waiting 9#32).cur.beyond [4, 5, 7], ((waiting 9#32).cur.routine == .exit, .illegalEncoding)]
    ∧ (waiting 9#32).cur.active ≠ 0#32 ∧ (waiting 9#32).cur.answer = none ∧ Seg.word (.glob 0x1000 8) = some (.glob 0x1000)
    ∧ Reaches (waiting 9#32) (waitForm 8 needR) 8 [(0, ((waiting 9#32).addrOnly 4#7 0).toNat)] (fun _ => [.glob 0x1000 8])
    ∧ Unlogged (waiting 9#32) ∧ (waiting 9#32).outboundRoom 0 (toEnter (waiting 9#32) (waitForm 8 needR) [.glob 0x1000 8]) = true :=
  ⟨⟨by decide, by decide⟩, by decide, rfl, rfl, reaches _ _ _ _ _ (by decide +kernel),
    ⟨by decide +kernel, by decide +kernel, by decide +kernel, rfl⟩, by decide +kernel⟩
theorem test_waitAddr : (out (exec (.waitAddr o 1#3 4#7 7#7) (waiting 9#32))).cur.wait = .waitAddr (.glob 0x1000) (some 9)
    ∧ (out (exec (.waitAddr o 1#3 4#7 7#7) (waiting 0#32))).cur.p = [0#32, 0#32]
    ∧ (out (exec (.waitAddr o 1#3 4#7 7#7) { waiting 9#32 with cur := { (waiting 9#32).cur with watch := ⟨some (.glob 0x1000), true⟩ } })).cur.p.getLast?
        = some 0xFFFFFFFF#32
    ∧ (waiting 9#32).cur.answer = none := by decide +kernel
/-- The cane of `base` waits on a word until its clock shows 9. -/
def parked : State := { base with cur := { cane with wait := .waitAddr (.glob 0x1000) (some 9), pipe := none } }
theorem test_waitAddrTimeout : parked.findCane 10 = some parked.cur ∧ parked.debugHeld 1 = false
    ∧ (out (exec (.waitAddrTimeout 10) parked)).cur.answer = some 0 := by decide +kernel

/-- R235: a header of 2 slots, 1 lane, width 1, scope wg, its slots at a base. -/
def header (fifo : Bool) (slots head tail : Nat) : List Byte :=
  leBytes 4 0x474E4952 ++ leBytes 1 1 ++ leBytes 1 1 ++ leBytes 1 0 ++ leBytes 1 1 ++ leBytes 1 (if fifo then 1 else 0)
    ++ leBytes 7 0 ++ leBytes 8 slots ++ leBytes 8 head ++ leBytes 8 tail ++ leBytes 24 0
/-- A ring in scratch: header at 0, slots at 256; v20 = 5 is the payload, the pair at v8 the header's address, and v1 a sequence. -/
def ringing (head tail : Nat) (slots : List Byte) : State :=
  { withV (et 0) ([[], row 0#32] ++ List.replicate 6 [] ++ [row 0#32, row 0xFFFFFFFE#32] ++ List.replicate 10 [] ++ [row 5#32]) with
    workgroups := [{ group with scratch := Memory.writeBytes (Memory.writeBytes [] 0 (header false 0xFFFFFFFE00000100 head tail)) 256 slots }] }
/-- The ring as the statements see it. -/
def ringing_ (head tail : Nat) : RingHead := ⟨1, 1, false, 1, false, false, 0xFFFFFFFE00000100, head, tail⟩
theorem ringAt (s : State) (va reg extra : Nat) (h : RingHead) (g : Seg) (v : Nat) (x : Seg)
    (h1 : ((s.terrace (s.wgOf s.cur).terrace).dbg.attach == false
      && decide (s.laneFault s.cur (waitForm 64 needRW) va 64 = none) && decide (s.laneTranslate s.cur (waitForm 64 needRW) va 64 = .ok [g])
      && decide ((spots g).length = g.size ∧ s.segPoisoned (waitForm 64 needRW).view g = false)
      && decide (ringHead va ((spots g).map (held s)) = some h)
      && decide (reg + h.width + extra ≤ 128 ∧ reg + h.width + extra ≤ s.cur.nreg) && !h.fifo) = true)
    (gs : Seg)
    (h2 : (decide (s.laneFault s.cur { waitForm 1 needRW with reads := false, writes := false } h.base h.size = none)
      && decide (s.laneTranslate s.cur { waitForm 1 needRW with reads := false, writes := false } h.base h.size = .ok [gs])
      && decide ((spots gs).length = gs.size ∧ s.segPoisoned (waitForm 1 needRW).view gs = false)) = true)
    (h3 : s.touchLanes 64 [(firstLane s.cur.active, va)] = s ∧ s.touchLanes h.size [(firstLane s.cur.active, h.base)] = s)
    (h4 : (spots x ++ spots g).Nodup ∧ (spots x).length = h.stride) (h4' : ∀ view, s.segPoisoned view x = false)
    (h5 : ∀ pa n, x ≠ .glob pa n) (h6 : ∀ y < h.size, s.decantAt (s.wgOf s.cur).terrace (h.base + y) = none)
    (h7 : Canonical s) (h8 : Unlogged s) (h9 : s.pressReady g = true)
    (h10 : (s.core s.cur.core).fifoPoison = []) (h11 : (spots g).length = 64) (h12 : AllApplied s [g] ∧ AllApplied s [x])
    (h13 : s.outboundRoom s.cur.core (h.stride / 128 + 3) = true) :
    RingAt s va reg extra h g (.mem v [x]) := by
  simp only [Bool.and_eq_true, decide_eq_true_eq, beq_iff_eq, Bool.not_eq_true'] at h1 h2
  obtain ⟨⟨⟨⟨⟨⟨a, b⟩, c⟩, d⟩, e⟩, f⟩, i⟩ := h1
  refine ⟨⟨a, ?_, ?_, ?_⟩, e, f, fun hf => by simp [i] at hf, fun _ => ⟨[gs], a, ?_, ?_, ?_⟩, h3, ⟨h11, ?_, h10, h7, h8⟩, h6, h9,
    ⟨h12.1, fun v' gs' hp => by cases hp; exact h12.2⟩, h13⟩
  · simpa using b
  · simpa using c
  · simpa using d
  · simpa using h2.1.1
  · simpa using h2.1.2
  · simpa using h2.2
  · intro v' gs' hp
    cases hp
    refine ⟨by simpa using h4.1, by simpa using h4.2, ?_⟩
    intro y hy
    simp only [List.mem_singleton] at hy
    subst hy
    exact ⟨h4', fun pa n hx => (h5 pa n hx).elim⟩
theorem untouched (s : State) (n l va : Nat) (h : windowAt va = some .scratch) : s.touchLanes n [(l, va)] = s := by
  simp [State.touchLanes, h]
/-- Its first slot. -/
abbrev slot0 : Seg := .scr 1 256 128
theorem ringsAt (head tail reg extra : Nat) (slots : List Byte)
    (h : (decide (ringHead 0xFFFFFFFE00000000 ((spots (.scr 1 0 64)).map (held (ringing head tail slots))) = some (ringing_ head tail))
      && decide (reg + extra < 100) && decide (Memory.wf ((ringing head tail slots).scratchOf 1) = true)
      && decide ((ringing head tail slots).laneFault (ringing head tail slots).cur { waitForm 1 needRW with reads := false, writes := false }
          (ringing_ head tail).base (ringing_ head tail).size = none
        ∧ (ringing head tail slots).laneTranslate (ringing head tail slots).cur { waitForm 1 needRW with reads := false, writes := false }
          (ringing_ head tail).base (ringing_ head tail).size = .ok [.scr 1 256 256])) = true) :
    RingAt (ringing head tail slots) 0xFFFFFFFE00000000 reg extra (ringing_ head tail) (.scr 1 0 64)
      (.mem 0xFFFFFFFE00000100 [slot0]) := by
  simp only [Bool.and_eq_true, decide_eq_true_eq] at h
  refine ringAt _ _ _ _ _ _ _ _ ?_ (.scr 1 256 256) ?_ ⟨untouched _ _ _ _ (by decide +kernel),
    untouched _ _ _ 0xFFFFFFFE00000100 (by decide +kernel)⟩ ?_ (fun _ => rfl)
    (by intro pa n; exact Seg.noConfusion) (fun _ _ => rfl) ?_
    ⟨rfl, rfl, by intro x hx; simp [ringing, withV, base, State.reset] at hx, rfl⟩ rfl rfl (by simp [spots])
    ⟨by intro pa n hx; simp at hx, by intro pa n hx; simp at hx⟩
    (by
      have h : base.outboundRoom 0 4 = true := by decide +kernel
      have e : (ringing_ head tail).stride / 128 + 3 = 4 := by simp [ringing_, RingHead.stride, RingHead.lanes]
      rw [e]
      exact h)
  · simp only [Bool.and_eq_true, decide_eq_true_eq, beq_iff_eq, Bool.not_eq_true']
    exact ⟨⟨⟨⟨⟨⟨rfl, rfl⟩, rfl⟩, by decide +kernel, rfl⟩, h.1.1.1⟩, by simp only [ringing_]; omega, by
      have : (ringing head tail slots).cur.nreg = 128 := rfl
      simp only [ringing_, this]; omega⟩, rfl⟩
  · simp only [Bool.and_eq_true, decide_eq_true_eq]
    exact ⟨h.2, by decide +kernel, rfl⟩
  · exact ⟨by decide +kernel, by simp [spots, ringing_, RingHead.stride, RingHead.lanes]⟩
  · refine ⟨rfl, ?_, by intro c hc; simp [ringing, withV, base, State.reset] at hc⟩
    intro w hw
    simp only [ringing, List.mem_singleton] at hw
    subst hw
    exact h.1.2
/-- R236: a slot with a status, mask 1 and sequence 0, and the payload 5. -/
def filled (st : Nat) : List Byte := slotHead st 0 1 0 ++ leBytes 4 5
theorem test_ringPut_can_run : RingAt (ringing 0 0 []) ((ringing 0 0 []).addrOnly 8#7 0).toNat 20 0 (ringing_ 0 0) (.scr 1 0 64)
      ((ringing 0 0 []).slotAt (ringing_ 0 0) 0)
    ∧ Ready (ringing 0 0 []) (operandLanes true (ringing 0 0 []).cur.active) [8, 9] [(ringing 0 0 []).cur.beyond [8, 9, 20]]
    ∧ leField (slotBytes (ringing 0 0 []) 16 ((ringing 0 0 []).slotAt (ringing_ 0 0) 0)) 0 1 = 0
    ∧ (ringing 0 0 []).cur.heldBy (some 1) = none
    ∧ (ringing 0 0 []).cur.poisonedRow ((ringing_ 0 0).putMask (ringing 0 0 []).cur.active) [20] = none
    ∧ (ringing 0 0 []).cur.active ≠ 0#32 ∧ (ringing 0 0 []).cur.routine ≠ .exit ∧ (ringing 0 0 []).cur.stage = 0 :=
  ⟨ringsAt 0 0 20 0 [] (by decide +kernel), ⟨by decide, by decide⟩, by decide +kernel, by decide +kernel⟩
theorem test_ringAcq_can_run : let s := ringing 1 0 (filled 1)
    RingAt s (s.addrOnly 8#7 0).toNat 20 1 (ringing_ 1 0) (.scr 1 0 64) (s.slotAt (ringing_ 1 0) 0)
    ∧ Ready s (operandLanes true s.cur.active) [8, 9] [s.cur.beyond [8, 9, 20]] ∧ ¬((ringing_ 1 0).closed = true ∧ (ringing_ 1 0).tail = (ringing_ 1 0).head)
    ∧ leField (slotBytes s 128 (s.slotAt (ringing_ 1 0) 0)) 0 1 = 1 ∧ leField (slotBytes s 128 (s.slotAt (ringing_ 1 0) 0)) 8 8 = 0 :=
  ⟨ringsAt 1 0 20 1 (filled 1) (by decide +kernel), ⟨by decide, by decide⟩, by decide +kernel⟩
theorem test_ringRel_can_run : let s := ringing 1 1 (filled 3)
    RingAt s (s.addrOnly 8#7 0).toNat 0 0 (ringing_ 1 1) (.scr 1 0 64) (s.slotAt (ringing_ 1 1) (s.cur.V 1 0).toNat)
    ∧ Ready s (operandLanes true s.cur.active) [1, 8, 9] [s.cur.beyond [1, 8, 9]]
    ∧ leField (slotBytes s 16 (s.slotAt (ringing_ 1 1) 0)) 0 1 = 3 ∧ leField (slotBytes s 16 (s.slotAt (ringing_ 1 1) 0)) 8 4 = 0 :=
  ⟨ringsAt 1 1 0 0 (filled 3) (by decide +kernel), ⟨by decide, by decide⟩, by decide +kernel⟩
/-- R237 to R239: 5 goes into slot 0 and comes back with its sequence 0; then the slot is free. -/
theorem test_rings : let s := out (exec (.ringPut o 8#7 20#7) (ringing 0 0 []))
    let t := out (exec (.ringAcq o 30#7 8#7 1#3) s)
    (s.scratchOf 1).filter (fun x => 256 ≤ x.1) = [(256, 1#8), (260, 1#8), (272, 5#8)]
      ∧ t.cur.V 30 7 = 5#32 ∧ t.cur.V 31 7 = 0#32 ∧ ringField t (.scr 1 0 64) 32 = 1
      ∧ ringField (out (exec (.ringRel o 1#7 8#7) t)) (.scr 1 0 64) 40 = 1 := by decide +kernel
/-- R377: the outbound FIFO of the cane's cluster is full. -/
def crowded : State := { data with clusters := [{ Cluster.zero with outbound := 32 }] }
theorem test_ld_waits_on_full_fifo : crowded.outboundRoom crowded.cur.core (toEnter crowded (loadForm 1 false) [.glob 0x1000 128]) = false
    ∧ (out (exec (.ld o 1#7 4#7 6#7) crowded)).cur.wait = .fifo ∧ crowded.inboundRoom 0 1 = true := by decide +kernel
/-- A slot has been claimed, and its use waited for a release. -/
def claiming (head tail : Nat) (slots : List Byte) (n : Nat) : State :=
  let s := ringing head tail slots
  { s with cur := { s.cur with claim := some ⟨ringing_ head tail, .scr 1 0 64, n, .mem 0xFFFFFFFE00000100 [slot0]⟩ } }
theorem test_ring_claims : RingSpot (claiming 1 0 [] 0) (ringing_ 1 0) (.scr 1 0 64) (.mem 0xFFFFFFFE00000100 [slot0])
    ∧ (claiming 1 0 [] 0).cur.claim = some ⟨ringing_ 1 0, .scr 1 0 64, 0, .mem 0xFFFFFFFE00000100 [slot0]⟩
    ∧ (claiming 1 0 [] 0).cur.heldBy (some (ringing_ 1 0).scope) = none ∧ (claiming 1 0 [] 0).pressReady (.scr 1 0 64) = true
    ∧ (putImage (claiming 1 0 [] 0) (ringing_ 1 0) 20#7 0).length ≤ (ringing_ 1 0).stride
    ∧ (claiming 1 1 [] 0).slotAt (ringing_ 1 1) ((claiming 1 1 [] 0).cur.V 1 0).toNat = .mem 0xFFFFFFFE00000100 [slot0]
    ∧ ringField (out (exec (.ringRel o 1#7 8#7) (claiming 1 1 [] 0))) (.scr 1 0 64) 40 = 1 := by
  refine ⟨⟨by simp [spots], ?_, rfl, by simp only [Canonical]; decide +kernel, ⟨rfl, rfl, by decide +kernel, rfl⟩⟩, rfl, by decide +kernel, rfl,
    by decide +kernel, by decide +kernel, by decide +kernel⟩
  intro v gs h
  cases h
  refine ⟨by decide +kernel, by decide +kernel, ?_⟩
  intro x hx
  simp only [List.mem_singleton] at hx
  subst hx
  exact ⟨fun _ => rfl, fun _ _ => Seg.noConfusion⟩

/-! ## Writes in flight and the events of canes -/

/-- A write of 7 by die 1 to a line whose home is die 2, counted by the cane of `base`. -/
def flying : Flight :=
  { id := 50, die := 1, terrace := 16, cane := some 10, parcel := none, addr := 0x1000, bytes := [7#8], signalled := false,
    stamp := [0, 1], inWcnt := true, l2Acked := false, seq := none, acked := false, bad := [], whole := 0, leaves := true, todo := [], origin := none }
/-- That write stands in flight. -/
def inFlight (f : Flight) : State := { base with flights := [f], cur := { cane with hcnt := 1, dcnt := 1, wcnt := 1 } }
theorem test_homeWriteApply_can_run : (inFlight flying).flight 50 = some flying ∧ (∀ g ∈ (inFlight flying).flights, g.id = 50 → g = flying)
    ∧ Memory.wf (inFlight flying).mem = true ∧ (inFlight flying).homeDue flying = true
    ∧ (inFlight flying).homeDie 0x1000 ≠ flying.die ∧ MergesNone (inFlight flying) flying 2 :=
  ⟨by decide +kernel, by decide +kernel, by decide +kernel, by decide +kernel, by decide +kernel, .inl rfl⟩
theorem test_homeWriteApply : let t := out (exec (.homeWriteApply 50) (inFlight flying))
    t.homeByte 0x1000 = 7#8 ∧ t.seqOf 0x20 = 1 ∧ getI 0 (t.die 2).clock 1 = 1
      ∧ exec (.remoteWriteApply 50 4) t = .fault .noSuchUnit := ⟨by decide +kernel, by decide +kernel, by decide +kernel, rfl⟩
/-- The home has applied it; die 3 has it to apply. -/
def applied_ : Flight := { flying with seq := some 1, todo := [3] }
theorem test_remoteWriteApply : (inFlight applied_).remoteDue applied_ 3 = true ∧ (inFlight applied_).remoteDue applied_ 0 = false
    ∧ lineOf (applied_.addr + applied_.bytes.length - 1) = lineOf applied_.addr ∧ (inFlight applied_).partsOf applied_ = [applied_]
    ∧ (let t := out (exec (.remoteWriteApply 50 3) (inFlight applied_))
       getI 0 (t.die 3).clock 1 = 1 ∧ (t.flights.map (·.todo)) = [[]]) := by decide +kernel
/-- Applied everywhere: the L2 acknowledges, then the owning slice. -/
def landed (l2 : Bool) : Flight := { flying with seq := some 1, l2Acked := l2 }
theorem test_ownWriteAck : (landed false).cane = some (inFlight (landed false)).cur.id
    ∧ (inFlight (landed false)).findCane 10 = some (inFlight (landed false)).cur
    ∧ (inFlight (landed false)).ackDue (landed false) = true ∧ (inFlight (landed true)).ackDue (landed true) = true
    ∧ ((out (exec (.ownWriteAck 50) (inFlight (landed false)))).cur.dcnt, (out (exec (.ownWriteAck 50) (inFlight (landed false)))).cur.wcnt,
        (out (exec (.ownWriteAck 50) (inFlight (landed false)))).cur.hcnt) = (0, 0, 1)
    ∧ (out (exec (.ownWriteAck 50) (inFlight (landed true)))).cur.hcnt = 0
    ∧ (inFlight { landed true with acked := true }).ackDue { landed true with acked := true } = false := by decide +kernel
/-- R411: a write of terrace 3 to host memory. -/
def toHost : Flight := { landed true with addr := 2 ^ 51, terrace := 3, die := 0, todo := [] }
theorem test_hostWriteAck : (isHost toHost.addr = true) ∧ toHost.terrace = 3 ∧ toHost.l2Acked = true
    ∧ (inFlight toHost).ackDue toHost = true ∧ (inFlight toHost).inboundRoom 0 ((inFlight toHost).hostAcks 3).length = true ∧ (out (exec (.hostWriteAck 3) (inFlight toHost))).cur.hcnt = 0
    ∧ (inFlight toHost).flight 50 = some toHost ∧ (out (exec (.hostWriteAck 3) (inFlight toHost))).flight 50 = none := by decide +kernel

theorem test_resultReturn : base.findCane cane.id = some cane ∧ ({ base with cur := { cane with outstanding := 1, wait := .results } } : State).cur.outstanding = 1 ∧ base.inboundRoom base.cur.core 1 = true
    ∧ (out (exec (.resultReturn 10) { base with cur := { cane with outstanding := 1, wait := .results } })).cur.wait = .none := by
  decide +kernel
/-- A cane of `tenant` waits for the walk of page 1. -/
def walking : State :=
  { tenant with cur := { tenant.cur with wait := .walk 1 0, pipe := none },
                dies := [{ Die.zero with walks := [⟨60, 0, 0, 0, 0, 1, 0⟩] }] }
/-- The walk. -/
def walk60 : Walk := ⟨60, 0, 0, 0, 0, 1, 0⟩
theorem test_pageWalkComplete : walking.findWalk 60 = some walk60 ∧ walking.cur ∈ walking.walkers walk60 ∧ walking.walkRoom walk60 = true
    ∧ walking.walk 0 0 0 (1 * 65536) = .ok entry0
    ∧ (out (exec (.pageWalkComplete 60) walking)).cur.wait = .none
    ∧ ((out (exec (.pageWalkComplete 60) walking)).cluster 0).tlb = [entry0] := by decide +kernel
/-- Without a root, or without a mapping and a fault queue, the page is denied. -/
theorem test_walk_denied : let s : State := walking.setTerrace 0 { land with roots := [] }
    let u : State := walking.setTerrace 0 { land with roots := [some ⟨0x200000, 1⟩] }
    s.walk 0 0 0 (1 * 65536) = .noRoot ∧ (out (exec (.pageWalkComplete 60) s)).cur.denied = [1]
      ∧ u.walk 0 0 0 (1 * 65536) = .miss1 ∧ (u.terrace 0).faultQueue = none
      ∧ (∀ x ∈ u.walkers walk60, x.routine ≠ .exit) ∧ (out (exec (.pageWalkComplete 60) u)).cur.denied = [1] := by
  decide +kernel
/-- An entry of the queue at 0x30000 waits for its answer, which stands in its byte 1. -/
def answering (r : Byte) : State :=
  { walking.setTerrace 0 { land with faultQueue := some ⟨0x30000, 4, 0⟩ } with
    cur := { walking.cur with wait := .service 70 }, transEntries := [⟨70, 0, 0, 0, 0, 5, 0⟩],
    mem := [(0x30010, 1#8), (0x30041, r)] ++ oneMap }
theorem test_translationResponse : (answering 2#8).response ⟨70, 0, 0, 0, 0, 5, 0⟩ = 2 ∧ (answering 3#8).response ⟨70, 0, 0, 0, 0, 5, 0⟩ = 3
    ∧ (answering 2#8).transEntries.find? (fun x => x.id == 70 && x.queue == 0) = some ⟨70, 0, 0, 0, 0, 5, 0⟩
    ∧ (out (exec (.translationResponse 0 70) (answering 2#8))).cur.denied = [5]
    ∧ (out (exec (.translationResponse 0 70) (answering 1#8))).cur.denied = [] := by decide +kernel
/-- Another cane of the core owns no pipe. -/
def second : State := { base with others := [{ cane with id := 11, idx := 1, pipe := none, slot := 1, wait := .none }] }
theorem test_pipeSelect : (second.findCane 11).map (·.pipe) = some none ∧ second.cur.id ≠ 11
    ∧ (second.findCane 11).map second.chosen = some true
    ∧ (out (exec (.pipeSelect 11) second)).cur.id = 11 ∧ (out (exec (.pipeSelect 11) second)).cur.pipe = some 1 := by decide +kernel
theorem test_ageing_and_switching : (out (exec (.agePriority 11) { second with clusters := [{ Cluster.zero with cycle := 4096 }] })).others.map (·.aged) = [true]
    ∧ (out (exec (.forcedSwitch 10) { base with cur := { cane with sinceSwitch := 128, outstanding := 2 } })).cur.wait = .results
    ∧ (out (exec (.codeFetchReturn 10) { base with cur := { cane with wait := .fetch } })).cur.wait = .none := by decide +kernel
/-- R207: row 5 of the cane, granule 9, and counts. -/
theorem test_memorySoftError : (out (exec (.memorySoftError 3 (512 * 10 + 5)) base)).cur.rowPoison = [5]
    ∧ (out (exec (.memorySoftError 2 9) base)).poison = [9]
    ∧ ((out (exec (.ld o 1#7 4#7 6#7) data)).l2Copy 0 0x20).isSome = true
    ∧ (out (exec (.memorySoftError 5 (4 * 0x80)) (out (exec (.ld o 1#7 4#7 6#7) data)))).diePoison 0 0x80 = true
    ∧ ({ base with clusters := [{ Cluster.zero with inbound := 32 }] } : State).inboundRoom base.cur.core 1 = false ∧ ((out (exec (.memorySoftError 0 1) base)).die 1).sample.ecc = 1 := by
  decide +kernel

/-! ## Workgroups -/

/-- Two canes of one workgroup. -/
def pair : State := { base with others := [{ cane with id := 11, idx := 1, slot := 1, pipe := some 1, ext0 := (16, 16) }] }
theorem test_barArr_can_run : GroupRuns pair ∧ (1#3 : BitVec 3) ≠ 0#3 ∧ pair.barrierOf 1 2 = some ⟨1, 1, 2⟩
    ∧ pair.cur.unguarded ≠ 0#32 ∧ pair.unperformed 10 1 = [] ∧ pair.pendingGen ⟨1, 1, 2⟩ = none
    ∧ (∀ a ∈ pair.cur.arrivals, a.bar ≠ ⟨1, 1, 2⟩)
    ∧ pair.barrierFull { pair.barrier ⟨1, 1, 2⟩ with arrived := [10] } = false := by
  simp only [GroupRuns]; decide +kernel
/-- The cane has arrived; its generation has not ended. -/
theorem test_barArr : let t := out (exec (.barArr o 1#3 2#4) pair)
    (t.barrier ⟨1, 1, 2⟩).arrived = [10] ∧ t.pendingGen ⟨1, 1, 2⟩ = some 0
      ∧ (out (exec (.barWait o 1#3 2#4) t)).cur.wait = .barrier ⟨1, 1, 2⟩ 0
      ∧ (let u := out (exec (.pipeSelect 11) t)
         let v := out (exec (.barArr o 1#3 2#4) { u with iss := t.iss })
         (v.barrier ⟨1, 1, 2⟩).gen = 1 ∧ (v.barrier ⟨1, 1, 2⟩).arrived = []) := by decide +kernel
/-- The generation has ended. -/
def ended : State := { pair with cur := { cane with arrivals := [⟨⟨1, 1, 2⟩, 0⟩] }, barriers := [⟨⟨1, 1, 2⟩, 1, [], [], []⟩] }
theorem test_barWait_ends : (∃ a ∈ ended.cur.arrivals, a.bar = ⟨1, 1, 2⟩) ∧ ended.pendingGen ⟨1, 1, 2⟩ = none
    ∧ (out (exec (.barWait o 1#3 2#4) ended)).cur.arrivals = [] := by decide +kernel
/-- An arrival waits for a write. -/
def arriving (fs : List Flight) : State :=
  { pair with flights := fs, pendingArrivals := [⟨70, 10, ⟨1, 1, 2⟩, 0, 1, 0, [50]⟩] }
theorem test_barrierArrival : (arriving []).arrivalDue ⟨70, 10, ⟨1, 1, 2⟩, 0, 1, 0, [50]⟩ = true
    ∧ (arriving [flying]).arrivalDue ⟨70, 10, ⟨1, 1, 2⟩, 0, 1, 0, [50]⟩ = false
    ∧ ((out (exec (.barrierArrival 70) (arriving []))).barrier ⟨1, 1, 2⟩).arrived = [10]
    ∧ (inFlight flying).unperformed 10 1 = [50] := by decide +kernel
/-- Code of terrace 0: one region whose phase end carries v1, a task type of one cane, and a graft record for its kernel at
128. -/
def program (canes : Nat) : LinkedImage :=
  ⟨0, [⟨1, 0, 0, 1024, none, none, true, false, false, [(0, 4)], 2#256⟩], [], [⟨none, 128, canes, 4096, 0, true, some 0, [1]⟩],
    [⟨128, 0, [(0, 4)], 2#256, 0#256⟩], []⟩
/-- The cane of `tenant` runs that code; its scratch holds 9 at 0 and 8 at 4. -/
def phasing : State :=
  { tenant with images := [program 1], cores := [{ Core.zero with roles := [1], utlb := [entry0] }],
                workgroups := [{ group with terrace := 0, parcel := some 1, scratch := [(0, 9#8), (4, 8#8)] }],
                cur := { tenant.cur with v := [[], row 21#32, row 22#32] } }
theorem test_barPhase_can_run : GroupRuns phasing ∧ (phasing.wgOf phasing.cur).parcel ≠ none ∧ phasing.cur.stack = []
    ∧ phasing.cur.arrivals = [] ∧ phasing.soloParcel = true ∧ phasing.cur.unguarded ≠ 0#32
    ∧ (phasing.imageOf phasing.cur).grafts[(0#13).toNat]? = some ⟨128, 0, [(0, 4)], 2#256, 0#256⟩
    ∧ ((phasing.imageOf phasing.cur).taskType? 0).map (·.priv) = some 0 := by simp only [GroupRuns]; decide +kernel
theorem test_barPhase_arrives : let u : State := { phasing.charge 0 1 0 with cur := { phasing.cur with stageArg := phasing.fall.toNat, wait := .phase, pipe := none } }
    u.findWg 1 = some (phasing.wgOf phasing.cur) ∧ (phasing.wgOf phasing.cur).parcel.bind u.findParcel = some (leaf 0)
      ∧ u.everyArrived 1 = true ∧ u.lastArrival (phasing.wgOf phasing.cur) (leaf 0) = none
      ∧ (out (exec (.barPhase o) phasing)).cur.wait = .phase := by decide +kernel
theorem oneName (s : State)
    (h : (decide (((s.cur :: s.others).map (·.id)).Nodup) && decide (∀ c ∈ s.canes, ∀ d ∈ s.canes, c.wg = d.wg → c.idx = d.idx → c = d)
      && decide (∀ c ∈ s.canes, c.idx < 32) && decide ((s.workgroups.map (·.id)).Nodup)
      && decide (∀ c ∈ s.cur :: s.others, c.id < s.nextId)) = true) : OneName s := by
  simp only [Bool.and_eq_true, decide_eq_true_eq] at h
  exact ⟨h.1.1.1.1, h.1.1.1.2, h.1.1.2, h.1.2, h.2⟩
/-- The workgroup of `phasing`. -/
def group0 : Workgroup := phasing.wgOf phasing.cur
theorem test_phaseEnd : let s := out (exec (.barPhase o) phasing)
    OneName s ∧ (s.findWg 1 = some group0) ∧ group0.parcel.bind s.findParcel = some (leaf 0) ∧ s.everyArrived 1 = true
      ∧ s.lastArrival group0 (leaf 0) = none ∧ (∀ c ∈ s.canesOf 1, c.wait = .phase)
      ∧ s.recordCheck group0 ((leaf 0).phaseRecord 0) (s.phasePlan group0).size = .ok ∧ s.settled 1 5 = true
      ∧ (out (exec (.phaseEnd 1) s)).workgroups = []
      ∧ (((out (exec (.phaseEnd 1) s)).die 0).queue.map (·.kind)) = [.phase 0] :=
  ⟨oneName _ (by decide +kernel), by decide +kernel, by decide +kernel, by decide +kernel, by decide +kernel,
    by decide +kernel, by decide +kernel, by decide +kernel, by decide +kernel, by decide +kernel⟩
/-- R170: the successor starts at 128 with v1 and its first 4 bytes of scratch. -/
theorem test_graftExecute : let s := out (exec (.graft o 0#13) phasing)
    OneName s ∧ (∀ c ∈ s.canesOf 1, c.wait = .graft 0) ∧ s.everyArrived 1 = true
      ∧ s.lastArrival group0 (leaf 0) = none ∧ s.settled 1 1 = true ∧ (s.graftInPlace group0 ⟨128, 0, [(0, 4)], 2#256, 0#256⟩
          ⟨none, 128, 1, 4096, 0, true, some 0, [1]⟩).isSome = true
      ∧ (group0.recordMap = none ∧ sameRoles (s.core 0).roles [1] = true ∧ (s.graftScratch group0 4096).isSome = true
        ∧ (s.dictRoom 0 none).isSome = true
        ∧ (s.graftRows group0 (((s.lowestCane 1).map (·.stripe)).getD 0) (TaskType.units ⟨none, 128, 1, 4096, 0, true, some 0, [1]⟩) 1 0).isSome = true
        ∧ ((List.range 1).filter fun i => (s.canesOf 1).any fun c => c.idx == i).length = 1)
      ∧ (let t := out (exec (.graftExecute 1) s)
         (t.cur.pc, t.cur.V 1 3, t.cur.V 2 3, t.scratchOf 1) = (128#64, 21#32, 0#32, [(0, 9#8)])) :=
  ⟨oneName _ (by decide +kernel), by decide +kernel, by decide +kernel, by decide +kernel, by decide +kernel,
    by decide +kernel, by decide +kernel, by decide +kernel⟩
/-- A task type with dictionaries and another bank map has no room: the workgroup falls back to its record. -/
theorem test_graft_falls_back : let s : State := { out (exec (.graft o 0#13) phasing) with cores := [{ Core.zero with roles := [1, 1], utlb := [entry0] }] }
    (s.graftInPlace group0 ⟨128, 0, [(0, 4)], 2#256, 0#256⟩ ⟨none, 128, 1, 4096, 0, true, some 0, [1]⟩).isNone = true
      ∧ (s.graftPlan group0 0 ⟨128, 0, [(0, 4)], 2#256, 0#256⟩).size ≤ (leaf 0).stride
      ∧ s.recordCheck group0 ((leaf 0).phaseRecord 0) (s.graftPlan group0 0 ⟨128, 0, [(0, 4)], 2#256, 0#256⟩).size = .ok
      ∧ s.settled 1 5 = true ∧ (((out (exec (.graftExecute 1) s)).die 0).queue.map (·.kind)) = [.phase 0] := by decide +kernel

/-- A cane of 16 registers. -/
def small : State := { base with cur := { cane with nreg := 16, ext0 := (0, 2), v := [[], row 21#32] } }
theorem test_grow_can_run : GroupRuns small ∧ small.cur.nreg + 8 * (3#4).toNat ≤ 128 ∧ small.cur.answer = none
    ∧ small.growRoom small.cur 3 = some (2, 3) ∧ (small.wgOf small.cur).exiting = false ∧ 128 < base.cur.nreg + 8 * (1#4).toNat
    ∧ (out (exec (.grow o 3#4) small)).cur.nreg = 40 ∧ (out (exec (.growTry o 1#3 3#4) small)).cur.V 1 0 = 21#32 := by
  simp only [GroupRuns]; decide +kernel
theorem test_shrink : ¬ small.cur.nreg < 8 + 8 * (1#4).toNat ∧ small.cur.nreg < 8 + 8 * (2#4).toNat
    ∧ (out (exec (.shrink o 1#4) small)).cur.nreg = 8 := by decide +kernel
/-- The stripe is full: another cane holds the rest. -/
def full (w : Wait) : State :=
  { small with cur := { small.cur with wait := w, pipe := if w = .none then some 0 else none },
               others := [{ cane with id := 11, idx := 1, slot := 1, ext0 := (2, 254), wait := .grow 1, pipe := none }] }
theorem test_grow_parks : (full .none).growRoom (full .none).cur 3 = none ∧ (out (exec (.grow o 3#4) (full .none))).cur.wait = .grow 3
    ∧ (full (.grow 3)).growStuck 0 = true ∧ (full .none).growStuck 0 = false := by decide +kernel
theorem test_growGrant : let s : State := { small with cur := { small.cur with wait := .grow 3, pipe := none } }
    OneName s ∧ s.findCane 10 = some s.cur ∧ s.growRoom s.cur 3 = some (2, 3)
      ∧ (out (exec (.growGrant 10) s)).cur.nreg = 40 ∧ (out (exec (.growGrant 10) s)).cur.answer = some 1 :=
  ⟨oneName _ (by decide +kernel), by decide +kernel, by decide +kernel, by decide +kernel, by decide +kernel⟩
/-- Two canes of leaves wait for room in vain: the last placed gives up its workgroup. -/
def stuck : State :=
  { full (.grow 3) with workgroups := [{ group with terrace := 0, parcel := some 1 }], parcels := [leaf 0], terraces := [land],
                        images := [program 2], mem := oneMap }
theorem test_growVictimSelect : OneName stuck ∧ stuck.growStuck 0 = true
    ∧ (lowestLast ((stuck.workgroups.filter fun w => w.core == 0 && !(stuck.canesOf w.id).isEmpty).filter
        fun w => !w.exiting && w.parcel.isSome)).map (·.terrace) = some 0
    ∧ ∀ c ∈ (out (exec (.growVictimSelect 0) stuck)).canesOf 1, c.growAsk = none :=
  ⟨oneName _ (by decide +kernel), by decide +kernel, by decide +kernel, by decide +kernel⟩
/-! ## Parcels and pre-emption -/

/-- R155: a leaf's record: priority 4, task type 0, entry 128, one workgroup on at most 8 cores, stride 1024. -/
def record : List Byte :=
  leBytes 1 1 ++ leBytes 1 4 ++ leBytes 6 0 ++ leBytes 8 128 ++ leBytes 24 0 ++ leBytes 4 0 ++ leBytes 2 8 ++ leBytes 2 48
    ++ leBytes 4 4096 ++ leBytes 4 0 ++ leBytes 8 1 ++ leBytes 8 0 ++ leBytes 8 0x40000 ++ leBytes 4 1024 ++ leBytes 4 0
/-- A cane whose pair v2, v3 names a record at 0x50000. -/
def spawning (s : State) (bs : List Byte) : State :=
  { s with cur := { s.cur with v := [[], [], row 0x50000#32, row 0#32] }, mem := Memory.writeBytes s.mem 0x50000 bs }
/-- Management's code. -/
def managed : State :=
  { base with images := List.replicate 16 LinkedImage.empty ++ [{ program 1 with taskTypes := [⟨none, 128, 1, 4096, 2, true, some 0, [1]⟩] }] }
theorem test_spawn_can_run : let s := spawning managed record
    GroupRuns s ∧ Ready s (operandLanes true s.cur.unguarded) [2, 3] [s.cur.beyond [2, 3]] ∧ s.cur.unguarded ≠ 0#32
      ∧ (s.cur.uread64 2).toNat % 256 = 0 ∧ s.cur.stage ≠ 1 ∧ s.cur.released 5 = true :=
  ⟨⟨by decide, by decide⟩, ⟨by decide, by decide⟩, by decide +kernel⟩
theorem test_spawn_record : let s := spawning managed record
    let p := Parcel.ofRecord (s.dieBytes 0 0x50000 256) s.nextId 0x50000 0x50000 16 (s.recordVdev s.cur) 0 none (s.die 0).clock
    (match s.recordPage o 0x50000 needRW with | .ok pa => pa == 0x50000 | .error _ => false) = true
      ∧ s.parentOf s.cur (leField (s.dieBytes 0 0x50000 256) 16 8) = some none ∧ s.headerMiss p = false
      ∧ recordBad (s.dieBytes 0 0x50000 256) = false ∧ s.parcelBad p s.cur.priv = false := by decide +kernel
/-- R195: accepted, with status 1 and its work queued. -/
theorem test_spawn_accepts : let t := out (exec (.spawn o 1#6) (spawning managed record))
    (t.parcels.map fun p => (p.status, p.entry, p.count)) = [(1, 128, 1)] ∧ ((t.die 0).queue.map (·.kind)) = [.leaf]
      ∧ leNat (t.dieBytes 0 0x50054 4) = 1 := by decide +kernel
/-- A poisoned record (log entry 30). -/
theorem test_poisoned_record : let s : State := { spawning managed record with poison := [0x2802] }
    s.poisonedAt 0 0x50000 256 = true ∧ s.poisoned (0x50000 + 84) 4 = true
      ∧ out (exec (.spawn o 1#6) s) = s.raise .poisonedData ∧ out (exec (.parcelWait o 1#6) s) = s.raise .poisonedData := by
  decide +kernel
/-- A terrace's root waits for its route check; no die may be reached, so it is refused. -/
def rooted : State := spawning { phasing with cur := { phasing.cur with priv := 1 } } record
theorem test_routeCheck : let t := out (exec (.spawn o 1#6) rooted)
    t.cur.wait = .route ∧ (t.parcels.map (·.status)) = [2, 0] ∧ (t.findParcel 100).isSome = true
      ∧ ((out (exec (.routeCheck 100) t)).parcels.map (·.status)) = [2, 4] ∧ (out (exec (.routeCheck 100) t)).cur.wait = .none := by
  decide +kernel
/-- The record is COMPLETE and its parcel is gone. -/
theorem test_parcelWait : let s := spawning managed (record.take 84 ++ leBytes 4 3)
    s.cur.answer = none ∧ leNat ((List.range 4).map fun i => s.homeByte (0x50000 + 84 + i)) = 3 ∧ s.parcels = []
      ∧ s.covers 0 (joinClocks s.cur.seen (s.pastOf (lineOf 0x50000))) = true
      ∧ (match s.recordPage o 0x50000 needR with | .ok pa => pa == 0x50000 | .error _ => false) = true ∧ s.poisoned (0x50000 + 84) 4 = false
      ∧ (out (exec (.parcelWait o 1#6) s)).cur.wait = .none
      ∧ (out (exec (.parcelWait o 1#6) (spawning managed record))).cur.wait = .parcel 0x50000 := by decide +kernel
/-- A leaf without work, whose counter lies at 0x50000. -/
def finished (st : Nat) : State :=
  { tenant with workgroups := [], cur := { cane with live := false }, parcels := [{ leaf 0 with status := st, counter := 0x50000 }] }
theorem test_parcelComplete : let s := finished 2
    let u := finished 3
    (s.findParcel 1).map (fun p => s.completeDue p) = some true ∧ (u.findParcel 1).map (fun p => u.completeDue p) = some true
      ∧ Memory.wf u.mem = true ∧ (tenant.findParcel 1).map (fun p => tenant.completeDue p) = some false
      ∧ ((out (exec (.parcelComplete 1) s)).parcels.map (·.status)) = [3] ∧ (out (exec (.parcelComplete 1) u)).parcels = []
      ∧ u.ctxTranslate (leaf 0).ctx 0x50000 needRW = some 0x50000
      ∧ (out (exec (.parcelComplete 1) u)).homeByte 0x50000 = 1#8 := by decide +kernel
/-- A leaf of terrace 0 is queued on die 0; cluster 0 is the terrace's. -/
def offering : State :=
  { tenant with workgroups := [], cur := { cane with live := false }, parcels := [{ leaf 0 with nextWg := 0, entry := 128 }],
                images := [program 1], terraces := [{ land with part := { land.part with nbdie := 1 } }], dies := [{ Die.zero with queue := [⟨1, 4, .leaf, 2, []⟩] }],
                clusters := [{ Cluster.zero with owner := some 0 }], cores := [{ Core.zero with roles := [1] }] }
theorem test_distributorOffer_can_run : (offering.headOf 0).map (·.kind) = some .leaf ∧ offering.offer 1 = none
    ∧ (offering.findParcel 1).map (·.setLog) = some 0
    ∧ (offering.placeLeaf 0 ⟨1, 4, .leaf, 2, []⟩ { leaf 0 with nextWg := 0, entry := 128 } ⟨none, 128, 1, 4096, 0, true, some 0, [1]⟩).isSome = true := by
  decide +kernel
/-- R19: the cane starts at the entry, with SYS.LFSR from its linear id and number. -/
theorem test_distributorOffer : ((out (exec (.distributorOffer 0) offering)).others.map fun c => (c.pc, c.core, c.lfsr, c.priv))
    = [(128#64, 0, 0x9E370000#32, 0)] := by decide +kernel
/-- The leaf of `offering` asks for its workgroup 0 again, from level 0; its task type asks for a level. -/
def again : Machine.Parcel := { leaf 0 with nextWg := 1, entry := 128, restartable := true }
def asking (priv : Nat) : State :=
  { offering with parcels := [again], dies := [{ Die.zero with queue := [⟨1, 4, .restart 0, 0, []⟩] }],
                  images := [{ program 1 with taskTypes := [⟨none, 128, 1, 4096, priv, true, some 0, [1]⟩] }] }
/-- R34, R319: it is placed at its entry, or dropped when its task type is above the level. -/
theorem test_offers_again : let s := asking 0
    (s.headOf 0).map (·.kind) = some (.restart 0) ∧ s.setStands again 0 = false
      ∧ s.together 0 ⟨1, 4, .restart 0, 0, []⟩ again = [⟨1, 4, .restart 0, 0, []⟩] ∧ s.covers 0 [] = true ∧ s.startable 0 [] = true
      ∧ (match s.plansOf again [⟨1, 4, .restart 0, 0, []⟩] with
        | .ok xs => match s.planPlaces again xs with
          | some ys => decide (ys.map Prod.fst = [0])
          | none => false
        | .error _ => false) = true
      ∧ ((out (exec (.distributorOffer 0) s)).others.map fun c => (c.pc, c.core, c.routine)) = [(128#64, 0, .none)]
      ∧ (match (asking 1).plansOf again [⟨1, 4, .restart 0, 0, []⟩] with | .error (_, .refused) => true | _ => false) = true
      ∧ ((out (exec (.distributorOffer 0) (asking 1))).die 0).queue = [] := by decide +kernel
/-- A leaf of sets of two, on a cluster of four cores. -/
def setLeaf : Machine.Parcel := { leaf 0 with nextWg := 0, entry := 128, setLog := 1, count := 2 }
def sets : State := { offering with parcels := [setLeaf], cores := List.replicate 4 { Core.zero with roles := [1] } }
theorem test_offers_sets : (sets.headOf 0).map (·.kind) = some .leaf ∧ setLeaf.setLog ≠ 0
    ∧ ((sets.firstGroup setLeaf ⟨none, 128, 1, 4096, 0, true, some 0, [1]⟩ (2 ^ setLeaf.setLog)).map fun xs => xs.map Prod.fst) = some [0, 1]
    ∧ sets.startable 0 [] = true ∧ sets.startable 1 [] = true
    ∧ ((out (exec (.distributorOffer 0) sets)).workgroups.map fun w => (w.core, w.linear, w.member)) = [(0, 0, some 0), (1, 1, some 1)] := by
  decide +kernel
/-- A committed terrace whose steward is offered. -/
def stewarding : State :=
  { out (exec (.terraceCommit o 2#7) committing) with workgroups := [], others := [], dies := [{ Die.zero with queue := [⟨0, 0, .steward 3, 2, []⟩] }] }
theorem test_offers_steward : (stewarding.headOf 0).map (·.kind) = some (.steward 3) ∧ ((stewarding.terrace 3).steward).isSome = true
    ∧ (stewarding.placeSteward 3).isSome = true
    ∧ ((out (exec (.distributorOffer 0) stewarding)).others.map fun c => (c.pc, c.priv)) = [(256#64, 1)] := by decide +kernel

/-- The program of `phasing` with an exit routine at 512; its workgroup is asked to exit by time 1000. -/
def exiting (grade restart : Bool) : State :=
  { phasing with
    images := [{ program 1 with regions := [⟨1, 0, 0, 1024, some 512, some 600, true, restart, false, [(0, 4)], 2#256⟩] }]
    workgroups := [{ group0 with request := some ⟨grade, 1000, false, false, none⟩ }]
    iss := ⟨256, 2, none, true⟩ }
theorem test_exitVector_can_run : (exiting true false).vectorDue = true ∧ (exiting false false).vectorDue = false
    ∧ (exiting true false).recordOpen ((exiting true false).wgOf (exiting true false).cur) ((leaf 0).exitRecord 0)
        (exitBytes ((exiting true false).sectionCount group0) 2#256 [(0, 4)]) = true
    ∧ exitBytes ((exiting true false).sectionCount group0) 2#256 [(0, 4)] ≤ (leaf 0).stride ∧ freeAffine 2#256 = some 0 := by
  decide +kernel
/-- The cane in its exit routine. -/
def routed : State := out (exec (.exitVector 10) (exiting true false))
/-- R315: it runs the exit routine under MODE 0, with a0 at its first carried word and a stride of 4. -/
theorem test_exitVector : routed.cur.routine = .exit ∧ routed.cur.pc = 512#64 ∧ routed.cur.vecPc = 256#64
    ∧ (routed.cur.aff 0).at 1 = BitVec.ofNat 64 ((leaf 0).exitRecord 0 + 112 + 4)
    ∧ (out (exec (.exitVector 10) (exiting true true))).canesOf 1 = [] := by decide +kernel
/-- Its routine has ended; it has stored no carried word, so its record is not trusted. -/
def done_ : State := { routed with cur := { routed.cur with routineDone := true, pipe := none } }
theorem test_exitDecision : let w := done_.wgOf done_.cur
    w.exitRec.isSome = true ∧ done_.exitsDone w = true ∧ done_.settled 1 5 = true
      ∧ (w.exitRec.map fun e => done_.recordOpen w e.addr (exitBytes e.canes e.carry e.ranges)) = some true
      ∧ (w.exitRec.map (done_.exitTrusted w)) = some false ∧ (out (exec (.exitDecision 1) done_)).canesOf 1 = []
      ∧ routed.exitsDone (routed.wgOf routed.cur) = false := by decide +kernel
/-- The 32 carried words of its section have been written. -/
def trusted : State :=
  { done_ with workgroups := done_.workgroups.map fun w => { w with exitRec := w.exitRec.map fun e =>
      { e with words := (List.range 32).map fun i => firstCarried e.carry 0 + 4 * i } } }
theorem test_exitDecision_resumes : let w := trusted.wgOf trusted.cur
    (w.exitRec.map (trusted.exitTrusted w)) = some true
      ∧ (((out (exec (.exitDecision 1) trusted)).die 0).queue.map (·.kind)) = [.resume 0] := by decide +kernel
theorem test_exit_bounds : let s := exiting true false
    let u := exiting false false
    s.breakpointDue = false ∧ s.boundDue (s.wgOf s.cur) = true ∧ u.boundDue (u.wgOf u.cur) = false ∧ u.drainDue (u.wgOf u.cur) = true
      ∧ (u.wgOf u.cur).member = none ∧ (∀ c ∈ u.canesOf 1, c.wait ≠ .fault)
      ∧ (out (exec (.exitBoundExpiry 1) s)).canesOf 1 = [] ∧ (out (exec (.exitBoundExpiry 1) s)).rtime = 1000
      ∧ ((out (exec (.drainEscalation 1) u)).wgOf u.cur).request = some ⟨true, 1020, false, false, none⟩ := by decide +kernel
/-! ## Engines -/

/-- The pair at v4 is 0x1000, where 7 and 8 stand; the pair at v8 is the scratch window; lane 0 alone is active. -/
def copying : State :=
  { data with cur := { data.cur with recon := 1#32 }, mem := [(0x1000, 7#8), (0x1001, 8#8)] }
theorem test_cp4_can_run : (∃ f p, engineOf copying (.cp4 o 8#7 4#7 3#6) = some (o, 8#7, 4#7, [], [], f, p) ∧ p.kind ≠ .gather)
    ∧ Ready copying (operandLanes o.u copying.cur.active) [8, 9, 4, 5] [copying.cur.beyond [8, 9, 4, 5]] ∧ copying.cur.active ≠ 0#32
    ∧ copying.cur.heldBy none = none
    ∧ Reaches copying (engineSource 4 sharedWindows) 4 (lanesFor false copying.cur.active (copying.cur.baseAt 4#7)) (fun _ => [.glob 0x1000 4])
    ∧ Reaches copying (engineDest 4 sharedWindows true) 4 (lanesFor false copying.cur.active (copying.cur.baseAt 8#7)) (fun _ => [.scr 1 0 4])
    ∧ copying.judge (engineSource 1 globalOnly) 1 [] = .lanes [] [] ∧ copying.engineLoad 0 false + 1 ≤ 4096 :=
  ⟨⟨_, _, rfl, by decide⟩, ⟨by decide, by decide⟩, by decide, by decide, reaches _ _ _ _ _ (by decide +kernel),
    reaches _ _ _ _ _ (by decide +kernel), rfl, by decide⟩
/-- The accepted copy. -/
def accepted : State := out (exec (.cp4 o 8#7 4#7 3#6) copying)
theorem test_cp4_accepted : (accepted.asyncOps.map fun x => (x.id, x.kind, x.tag, x.batch, x.done)) = [(100, .copy, 3, 0, 0)]
    ∧ ((accepted.core 0).tag 3).count = 1 ∧ accepted.scratchOf 1 = [] ∧ accepted.cur.openPending = 1 := by decide +kernel
/-- It performs, and it completes. -/
def performed : State := out (exec (.asyncOperationPerform 100) accepted)
theorem test_cp4_performs : (accepted.findOp 100).map (fun x => (x.src[x.done]?, x.dst[x.done]?, accepted.elementDue x))
      = some (some (.glob 0x1000), some (.scratch 1 0), true)
    ∧ CleanPlace accepted 16 0 (.glob 0x1000) 4 ∧ OpenPlace accepted 16 0 (.scratch 1 0) ∧ Canonical accepted
    ∧ performed.scratchOf 1 = [(0, 7#8), (1, 8#8)] := by
  simp only [CleanPlace, OpenPlace, Canonical]; decide +kernel
theorem test_cp4_completes : (performed.findOp 100).map performed.opDone = some true ∧ (accepted.findOp 100).map accepted.opDone = some false
    ∧ (let t := out (exec (.asyncOperationComplete 100) performed)
       t.asyncOps = [] ∧ (t.core 0).tag 3 = ⟨0, true, false⟩ ∧ t.cur.openPending = 0) := by decide +kernel

/-- Tags 3 (done) and 5 (outstanding). -/
def tagged : State := { copying with cores := [{ Core.zero with tags := [⟨0, false, false⟩, ⟨0, false, false⟩, ⟨0, false, false⟩, ⟨0, true, false⟩, ⟨0, false, false⟩, ⟨2, true, false⟩] }] }
theorem test_tag_waits_can_run : tagWaitOf tagged (.tagWanyImm o 0x28#14) = some (o, true, [], 0x28)
    ∧ Ready tagged (operandLanes true tagged.cur.unguarded) [] [tagged.cur.beyond [], (tagged.cur.routine == .exit, .illegalEncoding)]
    ∧ tagged.cur.answer = none ∧ DoneTag tagged 3 ∧ ¬ DoneTag tagged 5 ∧ (tagged.wgOf tagged.cur).exiting = false := by
  refine ⟨rfl, ⟨by decide, by decide⟩, rfl, ?_, ?_, by decide⟩ <;> simp only [DoneTag] <;> decide +kernel
theorem test_tag_waits : (out (exec (.tagWanyImm o 0x28#14) tagged)).cur.wait = .none
    ∧ (out (exec (.tagWallImm o 0x28#14) tagged)).cur.wait = .tags false 0x28
    ∧ (out (exec (.tagClrImm o 0x28#14) tagged)).cur.wait = .tagClear 0x28
    ∧ ((out (exec (.tagClrImm o 0x8#14) tagged)).core 0).tag 3 = ⟨0, false, false⟩ := by decide +kernel
theorem test_tagFfr : let s : State := { tagged with cur := { tagged.cur with v := [[], [], row 0x28#32, row 0#32] } }
    Ready s (operandLanes true s.cur.unguarded) [2, 3] [s.cur.beyond [6, 2, 3]] ∧ (out (exec (.tagFfr o 6#7 1#6) s)).cur.V 6 0 = 3#32 :=
  ⟨⟨by decide, by decide⟩, by decide +kernel⟩
theorem test_batches : accepted.cur.openUsed = true ∧ accepted.cur.batches.length < 15 ∧ GroupRuns accepted ∧ accepted.cur.answer = none
    ∧ (out (exec (.cpSeal o) accepted)).cur.batches = [⟨0, 1, false⟩] ∧ (out (exec (.cpSeal o) accepted)).cur.sealCount = 1
    ∧ (out (exec (.cpWaitb o 0#4) (out (exec (.cpSeal o) accepted)))).cur.wait = .batch 0 := by
  simp only [GroupRuns]; decide +kernel

/-- R257: entry 9 has 8 rows of 16 bytes from 0x2000; row 2 is 0x11 to 0x20; lane 0's list at offset 256 of scratch is 2, 2,
0xFFFFFFFF, 9. -/
def gathering : State :=
  { withV (et 0) ([[], [], [], [], row 0x100#32, row 0xFFFFFFFE#32, [], [], row 0#32, row 0xFFFFFFFE#32, [], [], row 0x00440309#32]) with
    mem := (List.range 16).map fun i => (0x2020 + i, BitVec.ofNat 8 (0x11 + i))
    workgroups := [{ group with scratch := Memory.writeBytes [] 256 (leBytes 4 2 ++ leBytes 4 2 ++ leBytes 4 0xFFFFFFFF ++ leBytes 4 9) }]
    dies := [{ Die.zero with tensors := [⟨16, 9, leBytes 8 0 ++ leBytes 8 8 ++ leBytes 8 16 ++ leBytes 8 0x2000, 0, 0⟩] }] }
/-- Under U: lane 0's list alone. -/
def gathered : State := out (exec (.gather mU 8#7 4#7 12#7) gathering)
/-- All four elements. -/
def gatheredAll : State := [0, 1, 2, 3].foldl (fun s (_ : Nat) => out (exec (.gatherPerform 100 0) s)) gathered
theorem test_gather_can_run : (∃ f p, engineOf gathering (.gather mU 8#7 4#7 12#7) = some (mU, 8#7, 4#7, [12], [(false, .illegalEncoding), (false, .tensorId)], f, p)
      ∧ p.kind = .gather ∧ p.rows = 8)
    ∧ Ready gathering (operandLanes mU.u gathering.cur.active) [8, 9, 4, 5] [gathering.cur.beyond [8, 9, 4, 5, 12], (false, .illegalEncoding), (false, .tensorId)] :=
  ⟨⟨_, _, rfl, rfl, rfl⟩, by decide, by decide⟩
theorem test_gather_accepted : (gathered.asyncOps.map fun x => (x.kind, x.tag, x.size, x.rows, x.src.length, x.dst.length)) = [(.gather, 3, 16, 8, 4, 4)] := by
  decide +kernel
theorem test_gather : let t := gatheredAll
    (t.scratchOf 1).take 32 = ((List.range 16).map fun i => (i, BitVec.ofNat 8 (0x11 + i))) ++ ((List.range 16).map fun i => (16 + i, BitVec.ofNat 8 (0x11 + i)))
      ∧ Memory.readBytes (t.scratchOf 1) 32 32 = List.replicate 32 0#8 ∧ t.cur.gfm = 1#32 ∧ (t.findOp 100).map (·.done) = some 4 := by
  decide +kernel
theorem test_gather_elements : (gathered.findOp 100).map (fun x => (x.src[0]?, x.dst[0]?, gathered.elementDue x)) = some (some (.scratch 1 256), some (.scratch 1 0), true)
    ∧ CleanPlace gathered 16 0 (.scratch 1 256) 4 ∧ OpenPlace gathered 16 0 (.scratch 1 0)
    ∧ gathered.pathTo 16 0 0x2020 = .arrives
    ∧ (gathered.findOp 100).map (fun x => ((List.range 16).map fun j => gathered.dataAddress x (x.base + 2 * x.stride + j), x.stale, x.strict))
      = some ((List.range 16).map fun j => some (0x2020 + j), [], false)
    ∧ gathered.granulePoison 16 0 (0x2020 / 32) = false := by
  simp only [CleanPlace, OpenPlace]; decide +kernel

/-- A set of two workgroups, 1 and 2, each with one cane; a multicast to both is on its way with its 16 bytes. -/
def multicasting : State :=
  { base with
    others := [{ cane with id := 11, wg := 2, core := 1, pipe := none }]
    workgroups := [group, { group with id := 2, core := 1 }]
    asyncOps := [⟨60, 60, .mcast, some 10, 0, 1, 0, 0, 16, 0, none, 0, 3, 0, [.glob 0x1000], [.scratch 1 64], [], [], 0x1000, 64, 16, false, 0, 0, 0,
      [1, 2], List.replicate 16 9#8, false, 1, none, (0, 0, 0, false)⟩] }
theorem test_mcastDelivery : (multicasting.findOp 60).map (fun x => multicasting.deliveryDue x 2) = some true
    ∧ (multicasting.findWg 2).isSome = true ∧ (multicasting.findOp 60).map (fun x => multicasting.deliveryDue x 3) = some false
    ∧ Canonical multicasting ∧ multicasting.canesOf 2 ≠ [] ∧ multicasting.reaches 16 0 (multicasting.scratchDie 2) = true
    ∧ (out (exec (.mcastDelivery 60 2) multicasting)).scratchOf 2 = ((List.range 16).map fun i => (64 + i, 9#8)) := by
  simp only [Canonical]; decide +kernel
/-- Before it has been read. -/
theorem test_mcast_reads : let s : State := { multicasting with asyncOps := multicasting.asyncOps.map fun x => { x with done := 0, data := [] }, mem := [(0x1000, 7#8)] }
    (s.findOp 60).map s.elementDue = some true ∧ (s.findOp 60).map (·.kind) = some .mcast
      ∧ ((out (exec (.asyncOperationPerform 60) s)).findOp 60).map (fun x => (x.done, x.data.take 2)) = some (1, [7#8, 0#8]) := by decide +kernel

/-- Terrace 0's handle 3 names 64 KiB at 0x500000 with its backings; v2 is 3. -/
def flipping : State :=
  { tenant.setTerrace 0 { land with decants := List.replicate 3 DecantEntry.zero ++ [⟨0x500000, 0x10000, 0x600000, 0x700000, true, false, 0, [], 0⟩] } with
    cur := { tenant.cur with v := [[], [], row 3#32] } }
theorem test_decant_can_run : Ready flipping (operandLanes true flipping.cur.unguarded) [2] [flipping.cur.beyond [2]] ∧ flipping.cur.routine ≠ .exit
    ∧ flipping.cur.stage = 0 ∧ (flipping.decantEntry 0 3).valid = true ∧ (flipping.decantEntry 0 4).valid = false
    ∧ flipping.cur.heldBy (some 3) = none ∧ (∀ x ∈ flipping.decantOps, x.id ≠ flipping.nextId)
    ∧ (let s : State := { flipping with cur := { flipping.cur with hcnt := 1, dcnt := 1 } }
       s.cur.heldBy (some 3) = some 3 ∧ (out (exec (.decant o 3#3 2#7) s)).cur.stage = 1
         ∧ (out (exec (.decant o 3#3 2#7) s)).cur.wait = .release 3) := ⟨⟨by decide, by decide⟩, by decide +kernel⟩
/-- DECANT at die scope has asked for its flip. -/
def asked : State := out (exec (.decant o 3#3 2#7) flipping)
theorem test_decantFlip : asked.cur.wait = .decant 100 ∧ (asked.findFlip 100).map asked.flipDue = some true
    ∧ (let t := out (exec (.decantFlip 100) asked)
       (t.decantEntry 0 3).live = true ∧ (t.decantEntry 0 3).flips = 1 ∧ t.cur.wait = .none) := by decide +kernel
/-- A flip made by die 1 that die 0 has yet to apply. -/
def flipped_ : State :=
  { flipping with decantOps := [⟨60, 0, 3, 1, 10, [], [], true, true, 1, true, [0, 1], [0]⟩] }
theorem test_decantFlipApply : (flipped_.findFlip 60).map (fun x => (flipped_.flipDue x, flipped_.flipApplyDue x 2)) = some (false, false)
    ∧ (flipped_.findFlip 60).map (flipped_.flipApplyDue · 0) = some true
    ∧ getI false ((out (exec (.decantFlipApply 60 0) flipped_)).decantEntry 0 3).seen 0 = true
    ∧ exec (.decantFlipApply 60 4) flipped_ = .fault .noSuchUnit := ⟨by decide +kernel, by decide +kernel, by decide +kernel, rfl⟩
/-! ## Tile tasks -/

/-- R270: a tensor-id entry. -/
def tensorImage (fmt flags inner outer stride base bs gs : Nat) : List Byte :=
  leBytes 1 fmt ++ leBytes 1 flags ++ leBytes 2 0 ++ leBytes 4 inner ++ leBytes 4 outer ++ leBytes 4 0 ++ leBytes 8 stride
    ++ leBytes 8 base ++ leBytes 8 bs ++ leBytes 8 gs ++ leBytes 80 0
/-- R274: a MATMUL of one element over 64 columns of A (1), B (2) and C (3), in FP32. -/
def matmulRecord (status : Nat) : List Byte :=
  leBytes 1 0 ++ leBytes 1 status ++ leBytes 6 0 ++ leBytes 1 1 ++ leBytes 1 2 ++ leBytes 1 3 ++ leBytes 13 0 ++ leBytes 4 1
    ++ leBytes 4 1 ++ leBytes 4 64 ++ leBytes 2 0 ++ leBytes 2 1 ++ leBytes 88 0
/-- R273: a queue of 2 slots from 0x30100 at die scope, served by the enqueuing cane's die, with a tail. -/
def queueHeader (closed : Bool) (tail : Nat) : List Byte :=
  leBytes 4 0x51545447 ++ leBytes 1 1 ++ leBytes 1 3 ++ leBytes 1 (if closed then 1 else 0) ++ leBytes 1 255 ++ leBytes 8 0
    ++ leBytes 8 0x30100 ++ leBytes 8 tail ++ leBytes 32 0
/-- A cane with the record in v10, a queue at 0x30000 in the pair at v4, and an index in v6. -/
def queueing (tail index : Nat) (slot : List Byte) : State :=
  { withV (et 0) [[], [], [], [], row 0x30000#32, row 0#32, row (BitVec.ofNat 32 index), [], [], [],
      lanes.map fun l => BitVec.ofNat 32 (leField (matmulRecord 0) (4 * l) 4)] with
    mem := Memory.writeBytes (Memory.writeBytes [] 0x30000 (queueHeader false tail)) 0x30100 slot }
theorem queueHead (s : State) (need : Need) (hr : (s.terrace (s.wgOf s.cur).terrace).dbg.attach = false
      ∧ s.laneFault s.cur (queueForm 64 need) 0x30000 64 = none
      ∧ s.laneTranslate s.cur (queueForm 64 need) 0x30000 64 = .ok [.glob 0x30000 64] ∧ s.segPoisoned (queueForm 64 need).view (.glob 0x30000 64) = false)
    (hq : queueHeaderOk ((List.range 64).map fun i => s.homeByte (0x30000 + i))
      (leField ((List.range 64).map fun i => s.homeByte (0x30000 + i)) 8 8) = true)
    (hc : s.touchLanes 64 [(firstLane s.cur.unguarded, 0x30000)] = s) (ho : s.outboundRoom s.cur.core 4 = true)
    (hp : s.covers (dieOfCore s.cur.core) (s.pastOf 0x600) = true ∧ (s.die (dieOfCore s.cur.core)).l2 = []) :
    QueueHead s need 0x30000 0x30000 ((List.range 64).map fun i => s.homeByte (0x30000 + i)) := by
  refine ⟨⟨hr.1, by simpa using hr.2.1, by simpa using hr.2.2.1, ?_⟩, rfl, hq, hc, applied s _ ?_, ho⟩
  · intro x _ g hg
    simp only [List.mem_singleton] at hg
    subst hg
    exact ⟨by simp [spots, Seg.size], hr.2.2.2⟩
  · intro g hg
    simp only [List.mem_singleton] at hg
    subst hg
    intro line hl
    have : line = 0x600 := by simpa [linesOf, lineOf] using hl
    subst this
    exact hp
theorem test_ttEnq_can_run : let s := queueing 0 0 []
    s.cur.unguarded ≠ 0#32 ∧ Ready s (operandLanes true s.cur.unguarded) [4, 5] (queueChecks s [4, 5, 10]) ∧ s.cur.poisonedRow 0xFFFFFFFF#32 [10] = none
      ∧ (s.addrAt 4#7 127#7 0).toNat = 0x30000 ∧ (s.queueOwner 0).map (·.isNone) = some true ∧ tileRecordBad (s.cur.image 10) = false
      ∧ s.clockCovered 0 (s.homeDie 0x30000) = true ∧ s.cur.heldBy (some 3) = none ∧ Memory.wf s.mem = true :=
  ⟨by decide, ⟨by simp only [queueChecks]; decide, by decide⟩, by decide +kernel⟩
theorem test_ttEnq_queue : QueueHead (queueing 0 0 []) needRW 0x30000 0x30000
    ((List.range 64).map fun i => (queueing 0 0 []).homeByte (0x30000 + i)) :=
  queueHead _ _ (by decide +kernel) (by decide +kernel) (by decide +kernel) (by decide +kernel) (by decide +kernel)
theorem test_ttEnq_slots : let s := queueing 0 0 []
    let h := (List.range 64).map fun i => s.homeByte (0x30000 + i)
    s.laneTranslate s.cur { queueForm 1 needRW with reads := false, writes := false } (leField h 16 8) (128 * 2 ^ headerOrder h)
        = .ok [.glob 0x30100 256]
      ∧ s.touchLanes (128 * 2 ^ headerOrder h) [(firstLane s.cur.unguarded, leField h 16 8)] = s
      ∧ queueSlot h [.glob 0x30100 256] 0 = 0x30100 ∧ queueSlot h [.glob 0x30100 256] 3 = 0x30180 := by decide +kernel
/-- R294: the task is queued with index 0, tail is 1, the slot says QUEUED, and lane 21 of v10 holds the index. -/
theorem test_ttEnq : let t := out (exec (.ttEnq o 4#7 10#7 127#7) (queueing 0 0 []))
    (t.tasks.map fun x => (x.index, x.slot)) = [(0, 0x30100)] ∧ homeNat t 0x30018 8 = 1 ∧ t.dieByte 0 0x30101 = 1#8
      ∧ t.cur.V 10 21 = 0#32 ∧ t.cur.V 10 6 = 1#32 := by decide +kernel
theorem test_ttEnq_meets_poison : let s : State := { queueing 0 0 [] with poison := [0x30100 / 32] }
    s.poisoned (0x30100 + 1) 1 = true ∧ (out (exec (.ttEnq o 4#7 10#7 127#7) s)).cur = (s.raise .poisonedData).cur := by decide +kernel
theorem test_ttEnq_closed : let s : State := { queueing 0 0 [] with mem := Memory.writeBytes [] 0x30000 (queueHeader true 0) }
    (out (exec (.ttEnq o 4#7 10#7 127#7) s)).cur = (s.raise .illegalEncoding).cur := by decide +kernel
/-- Slot 0 holds task 0 in a status. -/
def held_ (st : Nat) : State := queueing 1 0 (leBytes 1 0 ++ leBytes 1 st ++ leBytes 126 0)
theorem test_ttWait_can_run : let s := held_ 3
    Ready s (operandLanes true s.cur.unguarded) [4, 5, 6] (queueChecks s [4, 5, 6]) ∧ (s.cur.uread 6).toNat = 0 ∧ s.cur.answer = none
      ∧ leField (s.dieBytes 0 0x30100 128) 1 1 = 3 ∧ leField (s.dieBytes 0 0x30100 128) 84 4 = 0 ∧ (s.wgOf s.cur).exiting = false :=
  ⟨⟨by simp only [queueChecks]; decide, by decide⟩, by decide +kernel⟩
theorem test_ttWait : (out (exec (.ttWait o 2#3 4#7 6#7) (held_ 3))).cur.p = [0#32, 0#32, 0xFFFFFFFF#32]
    ∧ (out (exec (.ttWait o 2#3 4#7 6#7) (held_ 4))).cur.p = [0#32, 0#32, 0#32]
    ∧ (out (exec (.ttWait o 2#3 4#7 6#7) (held_ 1))).cur.wait = .task (.glob 0x30100) := by decide +kernel
/-- The enqueued task, and the cane with its index in v6. -/
def enqueued : State := { out (exec (.ttEnq o 4#7 10#7 127#7) (queueing 0 0 [])) with iss := ⟨258, 2, none, false⟩ }
theorem test_ttCancel : (enqueued.tasks.find? fun x => x.queue == 0x30000 && x.index == 0 && x.cancellable).map (·.id)
      = some 101 ∧ enqueued.cur.heldBy (some 3) = some 3
    ∧ (let s : State := { enqueued with cur := { enqueued.cur with hcnt := 0, dcnt := 0, wcnt := 0 } }
       (s.tasks.find? fun x => x.queue == 0x30000 && x.index == 5 && x.cancellable) = none ∧ (s.findTask 101).map (·.status) = some .queued
         ∧ ((out (exec (.ttCancel o 2#3 4#7 6#7) s)).findTask 101).map (fun x => (x.status, x.step)) = some (.cancelled, .ended)
         ∧ (out (exec (.ttCancel o 2#3 4#7 6#7) s)).cur.p = [0#32, 0#32, 0xFFFFFFFF#32]) := by decide +kernel
/-- v1 names entry 9; v2 is its image: BF16, 64 by 1, stride 128, base 0x1000. -/
def describing (base : Nat) : State :=
  withV (et 0) [[], row 9#32, lanes.map fun l => BitVec.ofNat 32 (leField (tensorImage 2 0 64 1 128 base 0 0) (4 * l) 4)]
theorem test_tidSet : let s := describing 0x1000
    Ready s (operandLanes true s.cur.unguarded) [1] [s.cur.beyond [2, 1]] ∧ s.cur.poisonedRow 0xFFFFFFFF#32 [2] = none
      ∧ s.tensorBad 16 (s.cur.image 2) = false ∧ (describing 0x1008).tensorBad 16 ((describing 0x1008).cur.image 2) = true
      ∧ ((out (exec (.tidSet o 2#7 1#7) s)).tensor 0 16 9).map (fun e => (e.base, e.stride, e.outer)) = some (0x1000, 128, 1)
      ∧ (out (exec (.tidClr o 1#7) (out (exec (.tidSet o 2#7 1#7) s)))).tensor 0 16 9 = none :=
  ⟨⟨by decide, by decide⟩, by decide +kernel⟩
theorem test_sacc : let s := withV (et 0) [[], row 0x13800#32, row 0x70#32]
    Ready s (operandLanes true s.cur.unguarded) [1] [s.cur.beyond [1]] ∧ Ready s (operandLanes true s.cur.unguarded) [2] [s.cur.beyond [3, 2]]
      ∧ ((out (exec (.saccCfg o 1#7) s)).core 0).sacc = 0x13800#32
      ∧ (out (exec (.saccRd o 3#7 2#7) (out (exec (.saccCfg o 1#7) s)))).cur.V 3 4 = 0x13800#32 :=
  ⟨⟨by decide, by decide⟩, ⟨by decide, by decide⟩, by decide +kernel⟩

/-- R72: A is the BF16 block 3.0, 1.5, −0.25, 2^−7 and zeros; B the codes 15, 0, 12, 15 and 7 elsewhere with q = 255 and
G = 1.0; C is 0. -/
def tiles : List Host.Cell :=
  let m := Memory.writeBytes oneMap 0x1000 (leBytes 2 0x4040 ++ leBytes 2 0x3FC0 ++ leBytes 2 0xBE80 ++ leBytes 2 0x3C00)
  let m := Memory.writeBytes m 0x2000 (leBytes 1 0x0F ++ leBytes 1 0xFC ++ List.replicate 30 0x77#8)
  let m := Memory.writeBytes (Memory.writeBytes m 0x3000 [255#8]) 0x3100 (leBytes 4 0x3F800000)
  Memory.writeBytes (Memory.writeBytes m 0x30000 (queueHeader false 1)) 0x30100 (matmulRecord 1)
/-- The queued task of terrace 0. -/
def task0 : Task :=
  { id := 60, terrace := 0, vdev := 0, die := 0, queue := 0x30000, slot := 0x30100, scope := 3, parcel := some 1, owner := 0x20000,
    index := 0, core := 0, record := matmulRecord 1, status := .queued, progress := 0, entries := [], cluster := 0,
    step := .loadB 0, bKey := [], aRow := [], ahead := none, aBlocks := [], sums := [], partials := [], loadFailed := false, rowFailed := false,
    failed := false, stopping := false, cancelled := false, doomed := false, throttled := 0, started := false, denied := [], agreement := .clear }
/-- Its terrace's die. -/
def tiling : State :=
  { tenant with tasks := [task0], mem := tiles, terraces := [{ land with part := { land.part with nbdie := 1 } }], clusters := [{ Cluster.zero with owner := some 0 }],
                dies := [{ Die.zero with tensors := [⟨0, 1, tensorImage 2 0 64 1 128 0x1000 0 0, 1, 1⟩,
                  ⟨0, 2, tensorImage 6 1 64 1 32 0x2000 0x3000 0x3100, 1, 2⟩, ⟨0, 3, tensorImage 0 0 1 1 16 0x4000 0 0, 1, 3⟩] }] }
/-- Events one after another. -/
def after (s : State) (is : List Instr) : State := is.foldl (fun s i => out (exec i s)) s
theorem test_taskIssue_can_run : tiling.candidate task0 = true ∧ tiling.taskHeld task0 = false ∧ tiling.orderedTurn task0 = true
    ∧ (∀ x ∈ task0.deps, tiling.dep task0 x = .met) ∧ tiling.firstReady task0 = true ∧ tiling.homesReady 0 [0x30000] = true
    ∧ tiling.matrixEngine task0 = some 0 ∧ task0.isMatmul = true ∧ Memory.wf tiling.mem = true := by decide +kernel
/-- Issued. -/
def issued_ : State := after tiling [.taskIssue 60]
theorem test_taskIssue : (issued_.findTask 60).map (fun x => (x.status, x.step, x.matmulCheck)) = some (.running, .loadB 0, none)
    ∧ homeNat issued_ 0x30020 8 = 1 ∧ issued_.dieByte 0 0x30101 = 2#8 := by decide +kernel
/-- Its weights are decoded, 16 macros one by one. -/
def loaded : State := after issued_ (List.replicate 16 (.loadB 60))
theorem test_loadB : (loaded.findTask 60).map (fun x => (x.step, x.loadFailed)) = some (.fetch, false)
    ∧ (loaded.macroColumn 0 0).map (fun b => (b.w.take 5, b.q, b.g)) = [([64, -64, 31, 64, 0], 255, 0x3F800000#32)] := by decide +kernel
/-- R71: m = 96, 48, −8, 0. -/
def aligned : State := after loaded [.fetchA 60, .align 60]
/-- R279: row 1 of A is fetched while row 0 is under way, and then taken. -/
theorem test_fetch_ahead :
    let two : List Byte := leBytes 8 0x200 ++ leBytes 3 0x030201 ++ leBytes 13 0 ++ leBytes 4 2 ++ leBytes 100 0
    let t : Task := { task0 with status := .running, step := .align, record := two }
    t.mayFetch = true ∧ (loaded.findTask 60).map (·.ahead) = some none
      ∧ (let s : State := { loaded with tasks := loaded.tasks.map fun x => { x with ahead := some ([5], none) } }
         ((after s [.fetchA 60]).findTask 60).map (fun x => (x.step, x.aRow, x.ahead)) = some (.align, [5], none)) := by decide +kernel
theorem test_align : (aligned.findTask 60).map (fun x => (x.aBlocks.map fun b => (b.m.take 4, b.e, b.bad))) = some [([96, 48, -8, 0], 1, false)] := by
  decide +kernel
/-- R72: the dot product is 2824; t = 2824/2048 is 0x3FB08000. -/
def scaled_ : State := after aligned [.serial 60, .reduce 60, .scale 60]
theorem test_reduce : (scaled_.findTask 60).map (fun x => (x.sums.map fun r => r.map fun b => (b.pos - b.neg, b.cp, b.cn)))
      = some [[(2824, 1, 2)]]
    ∧ (scaled_.findTask 60).map (fun x => (x.step, x.partials.map (·.p))) = some (.drain, [0x3FB08000]) := by decide +kernel
theorem test_serial_pauses : let s : State := { after aligned [] with clusters := aligned.clusters.map fun k => { k with point := 1 } }
    (s.cluster 0).serialRuns = false ∧ (aligned.cluster 0).serialRuns = true
      ∧ ({ loaded with clusters := [{ Cluster.zero with chilled := true }] } : State).findTask 60 = loaded.findTask 60 := by decide +kernel
/-- The homes apply what is on its way to them. -/
def settled_ (s : State) : State := after s (s.flights.map fun f => .homeWriteApply f.id)
/-- It is drained and pressed into C. -/
def drained_ : State := after (settled_ scaled_) [.drain 60]
theorem test_drain : drained_.partials.length = 1 ∧ (drained_.partials.map fun p => (p.va, p.task)) = [(0x4000, 60)]
    ∧ (drained_.findTask 60).map (·.step) = some .press ∧ Memory.wf drained_.mem = true
    ∧ (drained_.partials.map fun p => (drained_.findTask 60).map fun t => drained_.lineDue t p (drained_.pressAddress t needRW p.va)) = [some true]
    ∧ drained_.pathTo 0 0 0x4000 = .arrives := by decide +kernel
/-- Pressed. -/
def pressed_ : State := after drained_ (drained_.partials.map fun p => .pressApplyPartial p.id)
theorem test_press : homeNat pressed_ 0x4000 4 = 0x3FB08000
    ∧ (pressed_.findTask 60).map (fun x => (x.step, x.progress, x.outcome)) = some (.ended, 1, .done) := by decide +kernel
/-- R289: the status, then the queue's done count. -/
theorem test_taskRetire : let t := after pressed_ [.taskRetire 60]
    let u := after (settled_ t) [.taskRetire 60]
    (t.findTask 60).map (fun x => (x.status, x.step)) = some (.done, .finish) ∧ t.dieByte 0 0x30101 = 3#8
      ∧ (u.findTask 60).isNone = true ∧ homeNat u 0x30028 8 = 1 ∧ Memory.wf t.mem = true := by decide +kernel
/-- R288: a block copy of the word at 0x1000 to 0x4000, issued on die 0. -/
def copyTask : Task :=
  { task0 with status := .running, step := .key, record := leBytes 1 4 ++ leBytes 1 2 ++ leBytes 22 0 ++ leBytes 4 1 ++ leBytes 4 1
                 ++ leBytes 4 1 ++ leBytes 2 0 ++ leBytes 2 1 ++ leBytes 70 0 ++ leBytes 1 1 ++ leBytes 1 1 ++ leBytes 16 0
               entries := [tensorImage 0 0 1 1 16 0x1000 0 0, [], tensorImage 0 0 1 1 16 0x4000 0 0, []] }
/-- It stands in its terrace. -/
def copyState : State := { tiling with tasks := [copyTask] }
theorem test_collectiveStart : (copyState.findTask 60).map (fun t => ((copyState.collKey t).failed, (copyState.collKey t).cancelled,
        (copyState.rankedMembers t).map (·.map (·.id)), (copyState.severed [t]).isNone)) = some (false, false, some [60], true)
    ∧ (let t := after copyState [.collectiveStart 60]
       (t.findTask 60).map (fun x => (x.started, x.step)) = some (true, .press)
         ∧ (t.partials.map fun p => (p.va, p.raw)) = [(0x4000, leBytes 4 0x3FC04040)]) := by decide +kernel
/-- R289: its one member has ended, and nothing of it is under way. -/
theorem test_collective_retires : let s : State := { copyState with tasks := [{ copyTask with step := .ended, progress := 1 }] }
    (s.findTask 60).map (fun t => (t.outcome == .queued, t.isMatmul || t.doomed || t.status != .running, (s.members t).map (·.id),
        (s.members t).all fun x => x.step == .ended && !(s.partials.any fun p => p.task == x.id))) = some (false, false, [60], true)
      ∧ ((out (exec (.taskRetire 60) s)).findTask 60).map (fun t => (t.status, t.step)) = some (.done, .finish) := by decide +kernel
/-- R402: a collective of two dies has started, and the link between them goes down after 8 failures. -/
def cutting : State :=
  { copyState with tasks := [{ copyTask with started := true, step := .press }, { copyTask with id := 61, die := 1, started := true, step := .press }],
                   terraces := [{ land with part := { land.part with nbdie := 3 } }], links := List.replicate 20 ⟨8, false, false⟩,
                   dies := [{ Die.zero with router := [(1, 1#8)] }, { Die.zero with router := [(0, 3#8)] }] }
theorem test_cut_collective : cutting.flights = [] ∧ (cutting.severed cutting.tasks).isNone = true
    ∧ ((cutting.cutLink 16).severed cutting.tasks).isSome = true ∧ ((cutting.cutLink 17).severed cutting.tasks).isNone = true
    ∧ (cutting.findTask 60).map (fun t => (cutting.members t).map (·.id)) = some [60, 61]
    ∧ ((out (exec (.linkDown 16) cutting)).tasks.map fun t => (t.step, t.doomed)) = [(.ended, true), (.ended, true)] := by decide +kernel
/-! ## Debugging, tracing and replay -/

/-- Terrace 0 runs `phasing`'s program with a debugger: breakpoint 0 stands at region 1's ordinal 7, which is at 256. -/
def debugging : State :=
  { phasing.setTerrace 0 { land with dbg := { DebugBlock.zero with attach := true, bpen := 1#32, breakpoints := [⟨1, 7, 0⟩] } } with
    images := [{ program 1 with stops := [⟨7, 1, 256, false, 0⟩] }], iss := ⟨256, 2, none, true⟩ }
/-- The cane has stopped there. -/
def stopped : State := out (exec (.breakpointHit 10) debugging)
theorem test_breakpointHit : debugging.breakpointDue = true ∧ debugging.cur.id = 10
    ∧ ((debugging.terrace 0).dbg.events.length < 64) ∧ stopped.cur.wait = .debug
    ∧ ((stopped.terrace 0).dbg.events.map fun e => (e.length, leField e 0 1)) = [(64, 1)] := by decide +kernel
/-- DBG.CMD names the cane and a command: 1 RESUME, 2 STEP. -/
def commanding (op : Nat) : State :=
  stopped.setTerrace 0 { stopped.terrace 0 with dbg := { (stopped.terrace 0).dbg with
    cmd := leBytes 8 0x20000 ++ leBytes 4 0 ++ leBytes 2 0 ++ leBytes 1 op ++ leBytes 1 0 } }
theorem test_dbgGo : leField ((commanding 2).terrace 0).dbg.cmd 14 1 = 2
    ∧ ((commanding 2).parkedCane 0 ((commanding 2).terrace 0).dbg.cmd).map (·.id) = some 10
    ∧ (out (exec (.dbgStep 0 1#32) (commanding 2))).cur.stepping = true ∧ (out (exec (.dbgResume 0 1#32) (commanding 1))).cur.wait = .none
    ∧ ((out (exec (.dbgResume 0 1#32) (debugging.setTerrace 0 ((commanding 1).terrace 0)))).terrace 0).dbg.cmdst = 1 := by decide +kernel
theorem test_dbgCtl : (out (exec (.dbgCtlWrite 0 0#32) stopped)).cur.wait = .none ∧ (1#32 == 1#32) = true
    ∧ ((out (exec (.dbgEvpop 0 1#32) stopped)).terrace 0).dbg.events = [] := by decide +kernel
/-- Terrace 0 may trace die 0. -/
def tracing0 : State := tenant.setTerrace 0 { land with part := { land.part with guaranteed := 1 } }
theorem test_trcCtl : tracing0.guaranteedDies 0 = [0] ∧ (tracing0.terrace 0).dbg.trcEn = false
    ∧ (∀ g ∈ (tracing0.terrace 0).dbg.triggers, condOk g.start = true ∧ condOk g.stop = true)
    ∧ (∀ d ∈ tracing0.guaranteedDies 0, (tracing0.die d).trace.owner = none)
    ∧ ((out (exec (.trcCtlWrite 0 1#32) tracing0)).die 0).trace.owner = some 0
    ∧ ((out (exec (.trcCtlWrite 0 0#32) (out (exec (.trcCtlWrite 0 1#32) tracing0)))).die 0).trace.owner = none
    ∧ condOk 0x10#32 = false := by decide +kernel
theorem test_traceCycle : let s := out (exec (.trcCtlWrite 0 1#32) tracing0)
    s.traceCycleDue 0 = true ∧ s.traceCycleDue 1 = false ∧ ((out (exec (.traceCycleReached 0) s)).die 0).trace.cycleSeen = true := by
  decide +kernel
/-- An active unit. -/
def active_ : State :=
  { tracing0 with dies := [{ Die.zero with trace := ⟨some 0, true, 0, true, false, [], true, 0, 0⟩ }],
                  clusters := [{ Cluster.zero with cycle := 65536, owner := some 0 }] }
theorem test_traceTime : active_.traceTimeDue 0 = true ∧ ((out (exec (.traceTimeRecord 0) active_)).die 0).trace.pos = 1
    ∧ active_.traceTimeDue 1 = false := by decide +kernel
/-- The launch of the parcel at 0x20000 has diverged from its log. -/
def diverged : State :=
  tenant.setTerrace 0 { land with dbg := { DebugBlock.zero with replayMode := 2, replayActive := 2, replayDiverged := true, replayRoot := 0x20000#64 } }
theorem test_replay : (diverged.terrace 0).dbg.replayDiverged = true ∧ diverged.rootOf diverged.cur = some 0x20000
    ∧ ((out (exec (.replayHalt 0) diverged)).cur.wait = .debug ∨ (out (exec (.replayHalt 0) diverged)).cur.halting = true)
    ∧ ((out (exec (.replayFree 0) diverged)).terrace 0).dbg.replayActive = 0
    ∧ ((out (exec (.replayCtlWrite 0 1#32) diverged)).terrace 0).dbg.replayMode = 1 := by decide +kernel
/-- A cane stands at its gate, and nothing is replayed any more. -/
def gated : State := { tenant with cur := { tenant.cur with wait := .gate 1 (.glob 0x1000), pipe := none } }
theorem test_replayGateGrant : gated.findCane 10 = some gated.cur ∧ gated.gateDue 0 gated.cur = true ∧ gated.gateDue 1 gated.cur = false
    ∧ (out (exec (.replayGateGrant 0 10) gated)).cur.wait = .none := by decide +kernel
/-- A RED of 5 to the word at 0x1000 is held at its gate, and nothing is replayed any more. -/
def holding : State :=
  { tenant with mem := [(0x1000, 7#8)] ++ oneMap, heldReds := [⟨60, 10, 0, 0, 0, 0x20000, some 1, 0, 0, .glob 0x1000, .glob 0x1000, 0x1000, 4, .i32, 5,
      false, 0, ⟨0, 10, 0, 0, 256, false, 0, 0, 4, 0, 0x1000, 0, []⟩⟩] }
theorem test_held_red : holding.findCane 60 = none ∧ holding.heldReds.map (fun h => (holding.heldDue 0 h, holding.heldDue 1 h)) = [(true, false)]
    ∧ Canonical holding ∧ holding.poisoned 0x1000 4 = false
    ∧ (let t := out (exec (.replayGateGrant 0 60) holding)
       (t.homeByte 0x1000, t.heldReds.length) = (12#8, 0)) := by simp only [Canonical]; decide +kernel

/-! ## Register writes, the host, links and resets -/

theorem test_registerWrite : ((out (exec (.registerWrite (debugAddr 3 0x00C) 0x12345#64) base)).terrace 3).dbg.bpen = 0x2345#32
    ∧ ((out (exec (.registerWrite (BitVec.ofNat 64 (mmioBase + 0x03000000)) 0x06A00002#64) base)).cluster 0).hotlim = 0x6A0
    ∧ base.hasCluster 0 = true ∧ base.hasCluster 1 = true
    ∧ (0x1000#64).toNat < mmioBase := by decide +kernel
/-- Terrace 0 of `tenant` carries host traffic: the boot ROM has left recovery. -/
def hosted : State :=
  { tenant.setTerrace 0 { land with vf := { VfRegs.zero with nonce := List.replicate 32 5#8 } } with boot := { tenant.boot with recovery := false } }
theorem test_windows_can_run : hosted.boot.recovery = false ∧ (hosted.terrace 0).part.state = .running
    ∧ windowParts 4 8 (leBytes 4 7) = [(8, leBytes 4 7)] ∧ windowParts 2 8 (leBytes 2 7) = [] ∧ hosted.windowAddress 0 0x000FFFFFFFFF0008 needW = none
    ∧ hosted.signalReady 0 [(8, leBytes 4 7)] = true ∧ Memory.wf hosted.mem = true
    ∧ hosted.windowAddress 0 0x1000 needW = some 0x1000 ∧ hosted.windowAddress 0 0x1000 needR = some 0x1000
    ∧ hosted.windowReady 0 0x1000 = true ∧ 0x1000 + 2 ≤ 2 ^ (hosted.terrace 0).vf.mwsize := by decide +kernel
theorem test_windows : (out (exec (.memoryWindowWrite 0 0x1000#64 [1#8, 2#8]) hosted)).homeByte 0x1001 = 2#8
    ∧ ((out (exec (.signalWindowWrite 0 8#64 (leBytes 4 7)) hosted)).terrace 0).vf.sigdrop = 1
    ∧ (out (exec (.memoryWindowRead 0 0x1000#64 2) (out (exec (.memoryWindowWrite 0 0x1000#64 [1#8, 2#8]) hosted)))).completion
        = some [1#8, 2#8] := by decide +kernel
theorem test_function_register : ((out (exec (.registerWrite (BitVec.ofNat 64 (2 ^ 60 + 0x308)) 0x123456789#64) hosted)).terrace 0).dbg.trcBase = 0x123456789#64
    ∧ ((out (exec (.registerWrite (BitVec.ofNat 64 (2 ^ 60 + 0x1020)) 7#64) hosted)).terrace 0).vf.nonce.take 8 = leBytes 8 7 := by decide +kernel
theorem test_attest : (hosted.terrace 0).vf.atstat = .idle
    ∧ ((out (exec (.vfAttest 0 1#32) hosted)).terrace 0).vf.atstat = .busy
    ∧ ((out (exec (.vfAttest 0 1#32) hosted)).terrace 0).vf.nonceTaken = List.replicate 32 5#8
    ∧ ((out (exec (.attestReportDone 0) (out (exec (.vfAttest 0 1#32) hosted)))).terrace 0).vf.atstat = .done
    ∧ ((out (exec (.vfFlr 0) hosted)).terrace 0).vf.nonce = [] := by decide +kernel
theorem test_links : let down := after { base with links := List.replicate 4 ⟨8, false, false⟩ } [.linkDown 3]
    getI LinkState.up down.links 3 = ⟨8, true, true⟩ ∧ getI LinkState.up (after down [.linkRetrain 3]).links 3 = LinkState.up
      ∧ getI LinkState.up (after base [.linkDown 3]).links 3 = LinkState.up := by decide +kernel
/-- A store of terrace 0 on its way from die 0 to a home on die 2, over the link 17, which has failed 8 times. -/
def crossing : State :=
  let f : Flight := { flying with
    die := 0, terrace := 0, cane := some tenant.cur.id, parcel := some 1, bytes := [7#8],
    origin := some ⟨0, 0, 0, 0, 0, false, 1, 0, 4, 2, 0x1000, 0, []⟩ }
  (({ tenant with flights := [f], links := List.replicate 20 ⟨8, false, false⟩, cur := { tenant.cur with hcnt := 1, dcnt := 1, wcnt := 1 } } : State).setTerrace 0
    { land with part := { land.part with nbdie := 0x303#64, regions := [⟨0, 2 ^ 30, 16⟩] } }).setDie 0 { Die.zero with router := [(8, 2#8)] }
theorem test_link_down : crossing.flights.map (fun f => (f.cane, f.parcel)) = [(some crossing.cur.id, some 1)]
    ∧ (crossing.findCane crossing.cur.id).isSome = true ∧ (crossing.findParcel 1).isSome = true
    ∧ crossing.flights.map (crossing.loses (crossing.cutLink 17)) = [some .request]
    ∧ crossing.flights.map (crossing.loses (crossing.cutLink 18)) = [none]
    ∧ (∀ x ∈ crossing.tasks, x.started = false)
    ∧ (let t := out (exec (.linkDown 17) crossing)
       t.cur.hcnt = 0 ∧ (t.parcels.map (·.faulted)) = [true] ∧ t.homeByte 0x1000 = crossing.homeByte 0x1000) := by decide +kernel
theorem test_resets : let s : State := { tenant with mem := [(0x1000, 1#8), (2 ^ 51, 2#8)] }
    isHost (2 ^ 51) = true ∧ (out (exec .coldReset s)).mem = [(2 ^ 51, 2#8)] ∧ (out (exec .warmReset s)).cur.wait = .rom
      ∧ ((out (exec .warmReset s)).die 0).sample.warm = 1 ∧ ((out (exec .coldReset s)).die 0).sample.warm = 0 := by decide +kernel
theorem test_firmware : State.reset.boot.recovery = true ∧ hosted.boot.recovery = false ∧ headerSound [] = false
    ∧ (out (exec (.firmwareImageLoad ⟨0, []⟩) State.reset)).boot.reported = some .header := by decide +kernel

/-- R104: a header with its flags and one table entry, which holds no signature; without its flags it is sound and no more. -/
def header64 (flags : Nat) : List Byte :=
  leBytes 4 0x004F5653 ++ leBytes 2 1 ++ leBytes 2 64 ++ leBytes 4 flags ++ leBytes 4 1 ++ leBytes 8 64 ++ leBytes 40 0 ++ leBytes 32 1
theorem test_firmware_causes : headerSound (header64 0) = true ∧ headerOk (header64 0) = false
    ∧ imageFailure (header64 0) = some .image ∧ leField (header64 3) 8 4 = 3 ∧ headerSound (header64 3) = true := by decide +kernel
theorem test_firmware_signature : headerOk (header64 3) = true ∧ signatureOk (header64 3) = false := by
  have h : leField (header64 3) 24 4 = 0 := by decide +kernel
  refine ⟨?_, by decide +kernel⟩
  simp only [headerOk, h, Nat.zero_le, decide_true, Bool.and_true]
  decide +kernel
/-- R365: a warm reset takes a slot of each core sample. -/
theorem test_warm_reset_slot : let t := out (exec .warmReset base)
    (t.die 2).sample.events = 1 ∧ (t.die 2).sample.byte 64 = 4#8 := by decide +kernel

/-! ## Tenancy -/

/-- Terrace 3 in a state, with nothing of its own. -/
theorem test_quiesced : ((managing .quiescing 3 []).terrace 3).part.state = .quiescing ∧ (managing .quiescing 3 []).quiet 3 = true
    ∧ ((out (exec (.terraceQuiesced 3) (managing .quiescing 3 []))).terrace 3).part.state = .quiesced := by decide +kernel
/-- Terrace 3 runs and its steward has gone. -/
def stewardless : State := committing.setTerrace 3 { committing.terrace 3 with part := { (committing.terrace 3).part with state := .running } }
theorem test_stewardReplace : (stewardless.terrace 3).part.state = .running ∧ (stewardless.terrace 3).steward.isSome = true
    ∧ (stewardless.workgroups.any fun w => w.isSteward && w.terrace == 3) = false
    ∧ (stewardless.dies.any fun d => d.queue.any fun i => i.kind == .steward 3) = false := by decide +kernel
/-- A terrace at its quota of bytes; its period ends. -/
def metered : State :=
  tenant.setTerrace 0 { land with part := { land.part with quotaBytes := 100, period := 1000 }, usage := { land.usage with bytes := 100 } }
theorem test_quota : metered.quotaDue 0 = true ∧ (metered.terrace 0).part.state ≠ .off
    ∧ ((out (exec (.quotaReached 0) metered)).terrace 0).usage.quotaHit = true
    ∧ ((out (exec (.usagePeriodEnd 0) metered)).terrace 0).usage.sequence = 1 := by decide +kernel
/-- Two devices take turns. -/
def turning : State := tenant.setTerrace 0 { land with part := { land.part with vdevs := 2, quantum := 200 } }
/-- Device 0's turn ends, and its workgroup has drained. -/
def turned : State := { out (exec (.vdevQuantumEnd 0) turning) with workgroups := [] }
theorem test_turns : (turning.terrace 0).turnEnding = false ∧ (turning.terrace 0).usage.quotaHit = false
    ∧ (turned.terrace 0).turnEnding = true ∧ turned.turnDrained 0 0 = true ∧ turned.parcels.map (·.drained) = [true]
    ∧ ((out (exec (.vdevTurnStart 0) turned)).terrace 0).turnEnding = false ∧ 0 < (turned.terrace 0).part.vdevs := by decide +kernel
/-- Terrace 3 lends cluster 5 to terrace 4, which has work for it. -/
def lending : State :=
  let a := { land with part := { land.part with lend := true, headland := 1#128 <<< 5, lendMask := 0xFFFF } }
  (({ offering with parcels := [{ leaf 4 with nextWg := 0, entry := 128, maxCores := 48 }], images := [.empty, .empty, .empty, .empty, program 1],
                    clusters := [], mem := oneMap, rtime := 100 } : State).setTerrace 3 a |>.setTerrace 4 { land with part := { land.part with regions := [⟨0, 2 ^ 30, 0⟩] } }).setCluster 5
    { Cluster.zero with owner := some 3 }
theorem test_headland : lending.hasCluster 5 = true ∧ lending.hasCluster 128 = false ∧ lending.borrower 5 = some 4 ∧ lending.borrower 6 = none
    ∧ (let t := out (exec (.headlandLend 5) lending)
       (t.cluster 5).owner = some 4 ∧ (t.cluster 5).lender = some 3) := by decide +kernel
/-- Cluster 5 is called back, and nothing runs on it. -/
def revoked : State := (managing .off 5 []).setCluster 5 { Cluster.zero with lender := some 3, owner := some 4, revoking := true }
theorem test_headlandReturn : revoked.returnDue 5 = true ∧ ((out (exec (.headlandReturn 5) revoked)).cluster 5).owner = some 3
    ∧ (revoked.revokeHead 5).isSome = false := by decide +kernel
/-- A SUP function waits for a walk that has ended. -/
def waitingSup (w : Wait) : State := { base with cur := { cane with wait := w, pipe := none }, tlbInvs := [⟨10, [60]⟩] }
theorem test_supFunctionComplete : (waitingSup .sup).supDue (waitingSup .sup).cur = true ∧ (waitingSup .tlbInv).invDone 10 = true
    ∧ (waitingSup .sup).findCane 10 = some (waitingSup .sup).cur
    ∧ (out (exec (.supFunctionComplete 10) (waitingSup .sup))).cur.wait = .none
    ∧ (out (exec (.tlbInvRetire 10) (waitingSup .tlbInv))).cur.wait = .none := by decide +kernel

/-! ## The whole machine -/

/-- IADD v3, v1, v2 under U stands at the PC of the first cane. -/
def first : State := State.reset.withFetchWord 32 0x20204082
theorem test_step_can_run : (first.agenda = [] ∧ first.settle.canIssue = true)
    ∧ ({ first.settle with agenda := [] } : State).cur.halting = false
    ∧ ({ first.settle with agenda := [] } : State).mustYield = false ∧ first.settle.cur.reconvergeOnce = none
    ∧ first.settle.cur.sinceSwitch < 128 := by decide +kernel
/-- Its parcels. -/
def parcels0 : List Sys2Proof.Parcel := [0x2020#16, 0x4082#16]
theorem test_step_fetches : (match ({ first.settle with agenda := [] } : State).fetchInstr ({ first.settle with agenda := [] } : State).cur with
      | .ok ps => ps == parcels0 | .error _ => false) = true
    ∧ decodeParcels parcels0 = .ok (.iadd mU 1#7 1#7 2#7, [])
    ∧ (let v := ({ first.settle with agenda := [] } : State).setIssue parcels0
       v.stewardLeaves (.iadd mU 1#7 1#7 2#7) = false ∧ v.breakpointDue = false ∧ v.vectorDue = false) := by decide +kernel
theorem test_step_keeps_memory : first.posts = [] ∧ first.settle.cur.halting = false := by decide +kernel
theorem test_step_advances : (out (step first)).cur.pc = first.cur.pc + 2 := by decide +kernel
theorem test_reset_is_canonical : Canonical State.reset := by simp only [Canonical]; decide +kernel

end Sys2Proof.Tests
end

section
/-! PROOF. The integers that an element's bits stand for (R54), the two deliveries of R55 and the division of R56. -/

namespace Sys2Proof.Machine

/-! ## The range of an integer type and its bits (R54) -/

theorem ElemType.width_pos (t : ElemType) : 0 < t.width := by cases t <;> decide

/-- The modulus of a type is twice the weight of its top bit. -/
theorem ElemType.two_pow_width (t : ElemType) : 2 ^ t.width = 2 * 2 ^ (t.width - 1) := by
  rw [← Nat.pow_succ', Nat.succ_eq_add_one, Nat.sub_add_cancel t.width_pos]

/-- x is a value of the type. -/
def ElemType.Holds (t : ElemType) (x : Int) : Prop := t.minInt ≤ x ∧ x ≤ t.maxInt

theorem ElemType.holds_of_signed {t : ElemType} (h : t.signed = true) (x : Int) :
    t.Holds x ↔ -2 ^ (t.width - 1) ≤ x ∧ x < 2 ^ (t.width - 1) := by
  simp [ElemType.Holds, ElemType.minInt, ElemType.maxInt, h]

theorem ElemType.holds_of_unsigned {t : ElemType} (h : t.signed = false) (x : Int) :
    t.Holds x ↔ 0 ≤ x ∧ x < 2 ^ t.width := by
  simp [ElemType.Holds, ElemType.minInt, ElemType.maxInt, h]

theorem ElemType.holds_zero (t : ElemType) : t.Holds 0 := by
  cases h : t.signed with
  | true => simp [t.holds_of_signed h]
  | false => simp [t.holds_of_unsigned h]

theorem ElemType.minInt_le_maxInt (t : ElemType) : t.minInt ≤ t.maxInt := t.holds_zero.1.trans t.holds_zero.2

theorem ElemType.holds_minInt (t : ElemType) : t.Holds t.minInt := ⟨le_rfl, t.minInt_le_maxInt⟩

theorem ElemType.holds_maxInt (t : ElemType) : t.Holds t.maxInt := ⟨t.minInt_le_maxInt, le_rfl⟩

/-- A number with the sign of a value of the type, and no larger, is a value of the type too. -/
theorem ElemType.Holds.of_natAbs_le {t : ElemType} {x z : Int} (hx : t.Holds x) (habs : z.natAbs ≤ x.natAbs)
    (hsign : 0 ≤ x ∧ 0 ≤ z ∨ x ≤ 0 ∧ z ≤ 0) : t.Holds z := by
  obtain ⟨hmin, hmax⟩ := t.holds_zero
  obtain ⟨hlo, hhi⟩ := hx
  constructor <;> omega

@[simp] theorem coe_bitsOfInt (w : Nat) (x : Int) : (bitsOfInt w x : Int) = x % 2 ^ w :=
  Int.toNat_of_nonneg (Int.emod_nonneg x (by positivity))

@[simp] theorem bitsOfInt_zero (w : Nat) : bitsOfInt w 0 = 0 := by simp [bitsOfInt]

theorem intOf_of_unsigned {t : ElemType} (h : t.signed = false) (a : Nat) : intOf t a = a := by
  simp [intOf, h]

theorem intOf_of_signed {t : ElemType} (h : t.signed = true) (a : Nat) :
    intOf t a = if 2 ^ (t.width - 1) ≤ a then (a : Int) - 2 ^ t.width else a := by
  simp [intOf, h]

/-- The bits of a type stand for its values (R54). -/
theorem intOf_holds (t : ElemType) {a : Nat} (ha : a < 2 ^ t.width) : t.Holds (intOf t a) := by
  have hw := t.two_pow_width
  zify at hw ha
  cases h : t.signed with
  | true =>
    rw [t.holds_of_signed h, intOf_of_signed h]
    zify
    split <;> omega
  | false =>
    rw [t.holds_of_unsigned h, intOf_of_unsigned h]
    omega

theorem intOf_eq_zero (t : ElemType) {a : Nat} (ha : a < 2 ^ t.width) : intOf t a = 0 ↔ a = 0 := by
  have hw := t.two_pow_width
  zify at hw ha
  cases h : t.signed with
  | true =>
    rw [intOf_of_signed h]
    zify
    split <;> omega
  | false => simp [intOf_of_unsigned h]

/-- The bits of a value of the type stand for that value. -/
theorem ElemType.Holds.intOf_bitsOfInt {t : ElemType} {x : Int} (hx : t.Holds x) : intOf t (bitsOfInt t.width x) = x := by
  have hw := t.two_pow_width
  zify at hw
  cases h : t.signed with
  | true =>
    rw [t.holds_of_signed h] at hx
    obtain ⟨hlo, hhi⟩ := hx
    rw [intOf_of_signed h]
    zify
    rw [coe_bitsOfInt]
    rcases lt_or_ge x 0 with hneg | hpos
    · have hmod : x % 2 ^ t.width = x + 2 ^ t.width := by
        rw [← Int.add_emod_right, Int.emod_eq_of_lt] <;> omega
      rw [hmod, if_pos] <;> omega
    · rw [Int.emod_eq_of_lt hpos (by omega), if_neg (by omega)]
  | false =>
    rw [t.holds_of_unsigned h] at hx
    rw [intOf_of_unsigned h, coe_bitsOfInt, Int.emod_eq_of_lt hx.1 hx.2]

/-! ## The two deliveries (R55) -/

@[simp] theorem deliverInt_wrapping (t : ElemType) (x : Int) : deliverInt false t x = ⟨bitsOfInt t.width x, 0⟩ := rfl

@[simp] theorem deliverInt_saturating (t : ElemType) (x : Int) : deliverInt true t x = saturateInt t x := rfl

theorem intOf_saturateInt_bits (t : ElemType) (x : Int) :
    intOf t (saturateInt t x).bits = max t.minInt (min t.maxInt x) := by
  have hle := t.minInt_le_maxInt
  unfold saturateInt
  split_ifs with hlo hhi
  · rw [t.holds_minInt.intOf_bitsOfInt]; omega
  · rw [t.holds_maxInt.intOf_bitsOfInt]; omega
  · rw [ElemType.Holds.intOf_bitsOfInt ⟨not_lt.mp hlo, not_lt.mp hhi⟩]; omega

theorem saturateInt_flags (t : ElemType) (x : Int) :
    (saturateInt t x).flags = if x < t.minInt ∨ t.maxInt < x then flagIS else 0#32 := by
  unfold saturateInt
  split_ifs with hlo hhi hout hout
  · rfl
  · omega
  · rfl
  · omega
  · omega
  · rfl

/-! ## Division (R56) -/

/-- Only a signed type holds a negative value. -/
theorem ElemType.Holds.signed_of_neg {t : ElemType} {x : Int} (hx : t.Holds x) (hneg : x < 0) : t.signed = true := by
  by_contra h
  have := ((t.holds_of_unsigned (by simpa using h)) x).1 hx
  omega

/-- The minimum over −1: the one quotient that lies outside its type (R56's second edge). -/
abbrev ElemType.QuotientOverflows (t : ElemType) (x y : Int) : Prop := t.signed = true ∧ x = t.minInt ∧ y = -1

/-- Division truncates, so the quotient is no larger than the dividend: only the minimum over −1 leaves the type. -/
theorem ElemType.Holds.tdiv {t : ElemType} {x y : Int} (hx : t.Holds x) (hy : t.Holds y)
    (hedge : ¬ t.QuotientOverflows x y) : t.Holds (x.tdiv y) := by
  have habs : (x.tdiv y).natAbs = x.natAbs / y.natAbs := Int.natAbs_tdiv x y
  rcases le_or_gt 0 y with hpos | hneg
  · refine hx.of_natAbs_le (habs ▸ Nat.div_le_self _ _) ?_
    rcases le_total 0 x with hxpos | hxneg
    · exact .inl ⟨hxpos, Int.tdiv_nonneg hxpos hpos⟩
    · have hquot := Int.tdiv_nonneg (neg_nonneg.mpr hxneg) hpos
      exact .inr ⟨hxneg, by rwa [Int.neg_tdiv, neg_nonneg] at hquot⟩
  · have hsigned := hy.signed_of_neg hneg
    rcases eq_or_ne y (-1) with rfl | hy1
    · have hmin : x ≠ -2 ^ (t.width - 1) := fun h => hedge ⟨hsigned, by simp [h, ElemType.minInt, hsigned], rfl⟩
      rw [t.holds_of_signed hsigned] at hx ⊢
      simp only [Int.tdiv_neg, Int.tdiv_one]
      omega
    · have hhalf : x.natAbs / y.natAbs ≤ x.natAbs / 2 := Nat.div_le_div_left (by omega) (by omega)
      have htop : (0 : Int) < 2 ^ (t.width - 1) := by positivity
      rw [t.holds_of_signed hsigned] at hx ⊢
      omega

/-- The remainder has the dividend's sign, so it is a value of the dividend's type. -/
theorem ElemType.Holds.tmod {t : ElemType} {x : Int} (hx : t.Holds x) (y : Int) : t.Holds (x.tmod y) := by
  refine hx.of_natAbs_le (Int.natAbs_tmod x y ▸ Nat.mod_le _ _) ?_
  rcases le_total 0 x with hpos | hneg
  · exact .inl ⟨hpos, Int.tmod_nonneg y hpos⟩
  · have hrem := Int.tmod_nonneg y (neg_nonneg.mpr hneg)
    exact .inr ⟨hneg, by rwa [Int.neg_tmod, neg_nonneg] at hrem⟩

theorem divElem_of_divisor_zero (sat : Bool) (t : ElemType) (a : Nat) {b : Nat} (h : intOf t b = 0) :
    divElem sat t a b = ⟨0, flagDZ⟩ := by simp [divElem, h]

theorem remElem_of_divisor_zero (sat : Bool) (t : ElemType) (a : Nat) {b : Nat} (h : intOf t b = 0) :
    remElem sat t a b = ⟨a, flagDZ⟩ := by simp [remElem, h]

theorem divElem_of_overflow (sat : Bool) {t : ElemType} {a b : Nat} (h : t.QuotientOverflows (intOf t a) (intOf t b)) :
    divElem sat t a b = if sat then ⟨bitsOfInt t.width t.maxInt, flagIS⟩ else ⟨bitsOfInt t.width t.minInt, 0⟩ := by
  simp [divElem, h]

theorem remElem_of_overflow (sat : Bool) {t : ElemType} {a b : Nat} (h : t.QuotientOverflows (intOf t a) (intOf t b)) :
    remElem sat t a b = ⟨0, if sat then flagIS else 0#32⟩ := by
  simp [remElem, h]

theorem divElem_of_fits (sat : Bool) {t : ElemType} {a b : Nat} (hb : intOf t b ≠ 0)
    (h : ¬ t.QuotientOverflows (intOf t a) (intOf t b)) :
    divElem sat t a b = ⟨bitsOfInt t.width ((intOf t a).tdiv (intOf t b)), 0⟩ := by
  simp [divElem, hb, h]

theorem remElem_of_fits (sat : Bool) {t : ElemType} {a b : Nat} (hb : intOf t b ≠ 0)
    (h : ¬ t.QuotientOverflows (intOf t a) (intOf t b)) :
    remElem sat t a b = ⟨bitsOfInt t.width ((intOf t a).tmod (intOf t b)), 0⟩ := by
  have hoff : (t.signed && decide (intOf t a = t.minInt ∧ intOf t b = -1)) = false := by simpa using h
  simp only [remElem, hb, Bool.and_assoc, hoff, Bool.and_false, Bool.false_eq_true, if_false]

/-! ## CVT between integer types (R143) -/

theorem convertElem_of_ints (c : Cane) (rm : RMode) (g : Nat) {st tt : ElemType} (x : Nat) (hs : st.isInt = true)
    (ht : tt.isInt = true) (hne : st ≠ tt) : convertElem c rm g st tt x = deliverInt c.sat tt (intOf st x) := by
  simp [convertElem, hs, ht, hne]

/-! ## The obligations -/

/-- Settles O8: SAT = 0 keeps the exact result's bits modulo 2^n, SAT = 1 saturates, and CVT between integer types
delivers. -/
theorem integerResultsAreDelivered : Obligations.IntegerResultsAreDelivered := by
  intro t x ht
  refine ⟨⟨?wrapped, ?noFlag⟩, ⟨?clamped, ?flagIS⟩, ?cvt⟩
  case wrapped => simp
  case noFlag => rfl
  case clamped => exact intOf_saturateInt_bits t x
  case flagIS => exact saturateInt_flags t x
  case cvt => exact fun c rm g st y hs hne => convertElem_of_ints c rm g y hs ht hne

/-- Settles O9: by the three rows of R56's table. Away from the edges the quotient and the remainder are values of the
type, so their bits stand for them. -/
theorem divisionAndItsEdges : Obligations.DivisionAndItsEdges := by
  intro sat t a b _ ha hb
  have hzero := intOf_eq_zero t hb
  split
  case isTrue hb0 =>
    have hb' := hzero.2 hb0
    exact ⟨divElem_of_divisor_zero sat t a hb', remElem_of_divisor_zero sat t a hb'⟩
  case isFalse hb0 =>
    split
    case isTrue hedge =>
      refine ⟨?_, remElem_of_overflow sat hedge⟩
      rw [divElem_of_overflow sat hedge]
      cases sat with
      | false => exact ⟨t.holds_minInt.intOf_bitsOfInt, rfl⟩
      | true => exact ⟨t.holds_maxInt.intOf_bitsOfInt, rfl⟩
    case isFalse hfits =>
      have hb' : intOf t b ≠ 0 := mt hzero.1 hb0
      have hx := intOf_holds t ha
      have hquot := hx.tdiv (intOf_holds t hb) hfits
      have hrem := hx.tmod (intOf t b)
      rw [divElem_of_fits sat hb' hfits, remElem_of_fits sat hb' hfits]
      exact ⟨hquot.intOf_bitsOfInt, rfl, hrem.intOf_bitsOfInt, rfl⟩

end Sys2Proof.Machine
end

section
/-! PROOF. JOIN and BRA (R119, R120): each either traps on a full stack or changes the issuing cane in one pass and goes
on at a PC; a split's two paths are told apart by the order of their addresses. -/

namespace Sys2Proof.Machine

open Sys2Proof.Claims

/-! ## One pass of the issuing cane (R145) -/

/-- An instruction that charges its pass, changes the issuing cane by f and goes on at pc completes. -/
theorem completes_of_goTo {i : Instr} {m : Marks} {s : State} {pc : Dword} (f : Cane → Cane)
    (hpipe : (f s.cur).pipe = s.cur.pipe) (hexec : exec i s = .next (((s.charge 0 1 0).updCur f).goTo m pc)) :
    Completes i m s pc 1 (f s.cur) :=
  ⟨_, hexec, s.complete m pc 0 1 0 f hpipe⟩

/-- An instruction that changes the issuing cane by f before it charges its pass completes as well: f keeps the core and
the pipe, so the same cluster's clock moves. -/
theorem completes_of_finishOnce {i : Instr} {m : Marks} {s : State} (f : Cane → Cane)
    (hpipe : (f s.cur).pipe = s.cur.pipe) (hcore : (f s.cur).core = s.cur.core)
    (hexec : exec i s = .next ((s.updCur f).finishOnce m)) : Completes i m s s.fall 1 (f s.cur) := by
  obtain ⟨honly, hgone, htook, hrest⟩ := (s.updCur f).complete m s.fall 0 1 0 id rfl
  refine ⟨_, hexec, (OnlyCane.updCur s f).trans honly, hgone.of hpipe, fun k => ?_, hrest⟩
  rw [← hcore]
  exact htook k

/-! ## The stack's check (R119, R120) -/

/-- A full stack traps DIVERGE_DEPTH. -/
theorem State.attempt_stackFull {s : State} (h : 16 ≤ s.cur.stack.length) (e : State) :
    s.attempt [(decide (16 ≤ s.cur.stack.length), .divergeDepth)] e = .next (s.raise .divergeDepth) :=
  State.attempt_fail (by simp [firstFail, h]) e

/-- A stack with room lets the instruction have its effect. -/
theorem State.attempt_stackRoom {s : State} (h : ¬ 16 ≤ s.cur.stack.length) (e : State) :
    s.attempt [(decide (16 ≤ s.cur.stack.length), .divergeDepth)] e = .next e :=
  State.attempt_ok (by simpa using h) e

/-! ## JOIN (R119) -/

theorem join_traps (m : Marks) (j : BitVec 21) {s : State} (h : 16 ≤ s.cur.stack.length) :
    Traps (.join m j) s .divergeDepth :=
  State.attempt_stackFull h _

theorem join_completes (m : Marks) (j : BitVec 21) {s : State} (h : ¬ 16 ≤ s.cur.stack.length) :
    Completes (.join m j) m s s.fall 1
      { s.cur with stack := ⟨.join, s.target j, s.cur.recon⟩ :: s.cur.stack } :=
  completes_of_finishOnce (fun c => { c with stack := ⟨.join, s.target j, c.recon⟩ :: c.stack }) rfl rfl
    (State.attempt_stackRoom h _)

/-! ## BRA (R120) -/

/-- The lanes that take the branch. -/
abbrev Cane.taking (c : Cane) : Mask := c.unguarded &&& c.guardMask
/-- The lanes that go on at the next instruction. -/
abbrev Cane.notTaking (c : Cane) : Mask := c.unguarded &&& ~~~c.guardMask

theorem Cane.diverge_of_lt (c : Cane) (t n : Mask) {tgt fall : Dword} (h : tgt.toNat < fall.toNat) :
    c.diverge t n tgt fall = { c with stack := ⟨.pending, fall, n⟩ :: c.stack, recon := t, pc := tgt } :=
  if_pos h

theorem Cane.diverge_of_not_lt (c : Cane) (t n : Mask) {tgt fall : Dword} (h : ¬ tgt.toNat < fall.toNat) :
    c.diverge t n tgt fall = { c with stack := ⟨.pending, tgt, t⟩ :: c.stack, recon := n, pc := fall } :=
  if_neg h

theorem bra_fallsThrough (m : Marks) (j : BitVec 21) {s : State} (h : s.cur.taking = 0#32) :
    Completes (.bra m j) m s s.fall 1 s.cur :=
  completes_of_goTo id rfl (if_pos h)

theorem bra_jumps (m : Marks) (j : BitVec 21) {s : State} (ht : s.cur.taking ≠ 0#32)
    (h : s.cur.notTaking = 0#32 ∨ s.target j = s.fall) : Completes (.bra m j) m s (s.target j) 1 s.cur :=
  completes_of_goTo id rfl ((if_neg ht).trans (if_pos h))

/-- Some lanes take the branch, others do not, and they go on at different places. -/
structure State.Splits (s : State) (j : BitVec 21) : Prop where
  taking : s.cur.taking ≠ 0#32
  notTaking : s.cur.notTaking ≠ 0#32
  apart : s.target j ≠ s.fall

/-- A split checks the stack, and then takes the stack, recon and PC that diverge gives. -/
theorem State.Splits.exec_bra {s : State} {j : BitVec 21} (hs : s.Splits j) (m : Marks) {c : Cane}
    (hc : s.cur.diverge s.cur.taking s.cur.notTaking (s.target j) s.fall = c) :
    exec (.bra m j) s = s.attempt [(decide (16 ≤ s.cur.stack.length), .divergeDepth)]
      (((s.charge 0 1 0).updCur fun k => { k with stack := c.stack, recon := c.recon }).goTo m c.pc) := by
  subst hc
  exact (if_neg hs.taking).trans (if_neg (not_or.2 ⟨hs.notTaking, hs.apart⟩))

theorem State.Splits.bra_traps {s : State} {j : BitVec 21} (hs : s.Splits j) (m : Marks)
    (h : 16 ≤ s.cur.stack.length) : Traps (.bra m j) s .divergeDepth :=
  (hs.exec_bra m rfl).trans (State.attempt_stackFull h _)

theorem State.Splits.bra_completes {s : State} {j : BitVec 21} (hs : s.Splits j) (m : Marks)
    (h : ¬ 16 ≤ s.cur.stack.length) {c : Cane}
    (hc : s.cur.diverge s.cur.taking s.cur.notTaking (s.target j) s.fall = c) :
    Completes (.bra m j) m s c.pc 1 { s.cur with stack := c.stack, recon := c.recon } :=
  completes_of_goTo (fun k => { k with stack := c.stack, recon := c.recon }) rfl
    ((hs.exec_bra m hc).trans (State.attempt_stackRoom h _))

/-! ## The obligation -/

/-- Settles O2: by R119's check of the stack and R120's cases in order; a split with room runs the path at the lower
address. -/
theorem joinAndBraSplit : Obligations.JoinAndBraSplit := by
  intro m j s t n tgt
  refine ⟨?join, ?bra⟩
  case join =>
    split
    case isTrue hroom => exact join_completes m j (Nat.not_le.2 hroom)
    case isFalse hfull => exact join_traps m j (Nat.not_lt.1 hfull)
  case bra =>
    split
    case isTrue hnone => exact bra_fallsThrough m j hnone
    case isFalse htaking =>
      split
      case isTrue hall => exact bra_jumps m j htaking hall
      case isFalse hapart =>
        obtain ⟨hnotTaking, htgt⟩ := not_or.1 hapart
        have hsplits : s.Splits j := ⟨htaking, hnotTaking, htgt⟩
        split
        case isTrue hfull => exact hsplits.bra_traps m hfull
        case isFalse hroom =>
          split
          case isTrue hlower => exact hsplits.bra_completes m hroom (Cane.diverge_of_lt _ _ _ hlower)
          case isFalse hhigher => exact hsplits.bra_completes m hroom (Cane.diverge_of_not_lt _ _ _ hhigher)

end Sys2Proof.Machine
end
